-- ==== Sys2Proof/Word.lean ====
section
/-! DEFINITION. The plain word and table types of the FVU-256 model, and the names of its physical units. -/

namespace Sys2Proof

/-- One byte of a memory (R61). -/
abbrev Byte := BitVec 8

/-- Sparse table: entries in strictly rising key order, and no entry that equals what an unlisted key reads as. -/
abbrev Tab (α : Type) := List (Nat × α)

/-- A physical core: 72 × (17r + c) + 9i + j for physical core row i and column j of site P(r,c) (R25). -/
abbrev PCore := Fin 19584

/-- A sett site, by the index 17r + c of P(r,c) (R25). -/
abbrev Site := Fin 272

/-- An HBM stack and its sump, by the stack index of R10. -/
abbrev Stack := Fin 32

/-- A gallery G0 to G3. -/
abbrev Gal := Fin 4

/-- A meadow 0 to 7, rows 2m and 2m + 1. -/
abbrev Meadow := Fin 8

/-- A Penlet engine OE0 to OE15 (R446). -/
abbrev Engine := Fin 16

/-- A node of the ring fabric, which is also a clock island (R246, R339). -/
inductive Node where
  | sett (s : Site)
  | sump (s : Stack)
  | gal (g : Gal)
  deriving DecidableEq, Repr

end Sys2Proof
end

