-- ==== Sys2Proof/Types.lean ====
section
/-! DEFINITION. The data that commands carry: guards, packets, descriptors, frames, measurements and test findings. -/

namespace Sys2Proof

/-- The guard fields of a sequencer instruction (R180): negate GN and predicate GP. -/
structure Guard where
  gn : Bool
  gp : BitVec 3
  deriving DecidableEq, Repr

/-- The multicast extension of a packet (R263). -/
structure McExt where
  sites : BitVec 272
  root  : BitVec 10
  sctl  : Bool
  cores : BitVec 64
  deriving DecidableEq, Repr

/-- A ring packet: the header fields of R248, the multicast extension of R263 and the payload (R247). -/
structure Packet where
  opc    : BitVec 6
  tc     : BitVec 2
  vc     : Bool
  turned : Bool
  sclass : BitVec 3
  spec   : Bool
  daddr  : BitVec 48
  seq    : BitVec 16
  stream : BitVec 8
  ctx    : BitVec 10
  len    : BitVec 14
  src    : BitVec 15
  status : BitVec 4
  aux    : BitVec 48
  pass   : BitVec 32
  didx   : BitVec 10
  mcx    : Option McExt
  data   : List Byte
  deriving DecidableEq, Repr

/-- How a packet reached a router (R256): injected, or on a ring (ring B when the flag is true); a gallery has column rings 0 to 3. -/
inductive Arrival where
  | injected
  | row (ringB : Bool)
  | col (k : Fin 4) (ringB : Bool)
  | rim (ringB : Bool)
  deriving DecidableEq, Repr

/-- The path that carried a command (R318): a queue pair of a function (port, VF or 0 for PF0, index), or MCTP. -/
inductive Src where
  | queue (port : Gal) (vf : Fin 64) (qp : Fin 1024)
  | mctp
  deriving DecidableEq, Repr

/-- A command descriptor, words w0 to w7, and its extension when EXT is set (R318, R319). -/
structure Desc where
  w0  : BitVec 64
  w1  : BitVec 64
  w2  : BitVec 64
  w3  : BitVec 64
  w4  : BitVec 64
  w5  : BitVec 64
  w6  : BitVec 64
  w7  : BitVec 64
  ext : Option (BitVec 512)
  deriving DecidableEq, Repr

/-- A command in progress: its path and its descriptor. -/
structure Cmd where
  src  : Src
  desc : Desc
  deriving DecidableEq, Repr

/-- What a read of host memory brings back: the bytes, or the fabric status of R300. -/
inductive HostRead where
  | ok (data : List Byte)
  | fail (status : BitVec 4)
  deriving DecidableEq, Repr

/-- The outcome of a request on a PCIe link (R300). -/
inductive LinkOutcome where
  | success (data : List Byte)
  | unsupported
  | completerAbort
  | poisoned
  deriving DecidableEq, Repr

/-- How a register write reaches its register: a fabric access with its source class, a write to BAR0 of a function (port, VF or 0 for
PF0), or one to BAR0 of the recovery function (R295, R418). -/
inductive RegPath where
  | fabric (sclass : BitVec 3) (addr : BitVec 48)
  | bar0 (port : Gal) (vf : Fin 64) (off : BitVec 18)
  | recovery (off : BitVec 12)
  deriving DecidableEq, Repr

/-- A bit error that a check of memory words finds: the 8-byte word's index and whether two bits are wrong. -/
structure Upset where
  word   : Nat
  double : Bool
  deriving DecidableEq, Repr

/-- What a step of a bench finds (R399 to R403). -/
structure Findings where
  deadSites : List (Site × BitVec 4)
  deadCores : List PCore
  deadLanes : List (Site × Fin 10)
  deadLinks : List (Node × Fin 16)
  spRows    : List (PCore × Fin 12 × Fin 256)
  deriving DecidableEq, Repr

/-- What a phase of bring-up finds (R397, R402, R407). -/
structure PhaseFindings where
  g0Fails    : Bool
  galFails   : List Gal
  hbmRows    : List (Stack × Nat)
  deriving DecidableEq, Repr

/-- One sett's thermal forecast (R386): the forecast in 1/16 °C, the highest ACLK step whose forecast stays at or below
the target, and whether the forecast crosses the trip limit within 200 ms (R392). -/
structure Forecast where
  site    : Site
  temp    : BitVec 16
  maxStep : BitVec 7
  crosses : Bool
  deriving DecidableEq, Repr

/-- The Penlet prefix of a DATA frame (R448). -/
structure Prefix where
  srcPanel : Fin 64
  dstPanel : Fin 64
  mc       : Bool
  ttl      : BitVec 6
  jobId    : BitVec 64
  epoch    : BitVec 64
  mask     : BitVec 64
  deriving DecidableEq, Repr

/-- The span record of the tray (R449). -/
structure SpanRecord where
  spanId : BitVec 32
  index  : Fin 64
  lead   : Bool
  deriving DecidableEq, Repr

/-- An IDENT frame (R450). -/
structure IdentFrame where
  spanId : BitVec 32
  index  : Fin 64
  serial : BitVec 64
  lead   : Bool
  engine : Engine
  deriving DecidableEq, Repr

/-- A HEARTBEAT frame (R455) with the TTL of its prefix (R448). -/
structure HeartbeatFrame where
  index    : Fin 64
  serial   : BitVec 64
  count    : BitVec 32
  sentAt   : BitVec 64
  fnState  : BitVec 4
  pwrState : BitVec 2
  ttl      : BitVec 6
  deriving DecidableEq, Repr

/-- A ROSTER frame (R450): the lead that sends it, the members with their serial numbers, and for each job the panels that hold a context of
it. -/
structure RosterFrame where
  lead    : Fin 64
  members : List (Fin 64 × BitVec 64)
  jobs    : List (BitVec 64 × BitVec 64)
  deriving DecidableEq, Repr

/-- A port event that resets a PCIe link (R291). -/
inductive PortReset where
  | perst
  | hotReset
  | linkDisable
  deriving DecidableEq, Repr

/-- Which reference of G0, or which listed input of an island, an input event names (CLK_STATUS.INPUT codes). -/
abbrev RefInput := BitVec 4

end Sys2Proof
end

