-- ==== Sys2Proof/Syntax.lean ====
section
/-! DEFINITION. The commands of the block: one constructor per row of spec/opcode_table.json, with the row's operands. -/

namespace Sys2Proof

/-- A command: a sequencer instruction issued by a core, an arriving packet, a host or management command, a register
write, or an event of one of the part's own units. `p` is the physical core, `dt` the TCLK cycles that pass up to a timed
event. The body `b` of a sequencer instruction is the part of its word below OP and, where one OP serves several rows,
below FN, bit i of the body being bit i of the word (R180). -/
inductive Instr where
  /-- NOP (R184): A sequencer NOP issues and retires, taking its issue cycle. -/
  | nop (p : PCore) (g : Guard) (b : BitVec 48)
  /-- PDONE (R212): The pass-done instruction issues, waits for all units and acknowledgements, then sends the done message and halts the sequencer. -/
  | pdone (p : PCore) (g : Guard) (b : BitVec 48)
  /-- BREAK (R178): A breakpoint halts the sequencer in TRAPPED at debug level FULL, or traps as ILLEGAL_INSTR otherwise. -/
  | brk (p : PCore) (g : Guard) (b : BitVec 48)
  /-- SEQ_FENCE (R211): The FENCE instruction waits until every operation accepted before it by the units selected in UMASK has completed. -/
  | seqFence (p : PCore) (g : Guard) (b : BitVec 48)
  /-- ALU_R (R186): A register-register scalar ALU function writes its result to rd. -/
  | aluR (p : PCore) (g : Guard) (b : BitVec 54)
  /-- ALU_I (R186): A register-immediate scalar ALU function writes its result to rd. -/
  | aluI (p : PCore) (g : Guard) (b : BitVec 54)
  /-- LIL (R187): Writes a sign-extended 32-bit immediate to rd. -/
  | lil (p : PCore) (g : Guard) (b : BitVec 48)
  /-- LIH (R187): Writes a 32-bit immediate to the upper half of rd, keeping the lower half. -/
  | lih (p : PCore) (g : Guard) (b : BitVec 48)
  /-- EXT (R187): Extracts a zero-extended bit field of s[ra] into rd. -/
  | ext (p : PCore) (g : Guard) (b : BitVec 48)
  /-- DEP (R187): Deposits the low bits of s[ra] into a field of rd. -/
  | dep (p : PCore) (g : Guard) (b : BitVec 48)
  /-- LD (R188): A scalar load reads 1 to 8 bytes of the scratchpad into rd. -/
  | ld (p : PCore) (g : Guard) (b : BitVec 54)
  /-- ST (R188): A scalar store writes the low bytes of s[rs] into the scratchpad. -/
  | st (p : PCore) (g : Guard) (b : BitVec 54)
  /-- RDREG (R189): Reads a register of the core's own block into rd, clearing RC fields. -/
  | rdreg (p : PCore) (g : Guard) (b : BitVec 50)
  /-- WRREG (R189): Waits for earlier array and vector work, then writes CORE_NUM_CTRL, CORE_NUM_STATUS or CORE_NUM_SEED. -/
  | wrreg (p : PCore) (g : Guard) (b : BitVec 50)
  /-- RDTIME (R356): Returns the latest accepted snapshot of the island's panel time. -/
  | rdtime (p : PCore) (g : Guard) (b : BitVec 50)
  /-- RDLAUNCH (R189): Returns the launch time of the current pass. -/
  | rdlaunch (p : PCore) (g : Guard) (b : BitVec 50)
  /-- MOVU (R189): Copies a summary register into rd after any pending chain has written it. -/
  | movu (p : PCore) (g : Guard) (b : BitVec 50)
  /-- RDID (R189): Returns the pass number and the core's logical address. -/
  | rdid (p : PCore) (g : Guard) (b : BitVec 50)
  /-- J (R190): Jumps relative to the program counter. -/
  | j (p : PCore) (g : Guard) (b : BitVec 48)
  /-- JAL (R190): Jumps relative to the program counter and writes the return address. -/
  | jal (p : PCore) (g : Guard) (b : BitVec 48)
  /-- JR (R190): Jumps to the address held in s[ra]. -/
  | jr (p : PCore) (g : Guard) (b : BitVec 48)
  /-- BCMP (R191): Branches when a comparison of scalar registers or an immediate holds. -/
  | bcmp (p : PCore) (g : Guard) (b : BitVec 54)
  /-- PSET (R191): Writes the result of a scalar comparison to a predicate. -/
  | pset (p : PCore) (g : Guard) (b : BitVec 54)
  /-- BSUM (R192): Branches on a comparison of a summary register's VALUE or its flags. -/
  | bsum (p : PCore) (g : Guard) (b : BitVec 54)
  /-- PSUM (R192): Writes a summary comparison to a predicate. -/
  | psum (p : PCore) (g : Guard) (b : BitVec 54)
  /-- PLOG (R193): Combines two predicates logically into a third. -/
  | plog (p : PCore) (g : Guard) (b : BitVec 54)
  /-- MMA_OS (R84): Issues an output-stationary accumulation of STEPS cell steps into one tile. -/
  | mmaOs (p : PCore) (g : Guard) (b : BitVec 54)
  /-- MMA_WS (R86): Issues a weight-stationary stream of A rows through a weight set. -/
  | mmaWs (p : PCore) (g : Guard) (b : BitVec 54)
  /-- WLOAD (R85): Issues a load of 8 steps of a B stream into a weight set. -/
  | wload (p : PCore) (g : Guard) (b : BitVec 54)
  /-- ACC_LOAD (R98): Issues a bit-exact copy of tiles from the scratchpad into the accumulator store. -/
  | accLoad (p : PCore) (g : Guard) (b : BitVec 54)
  /-- DRAIN (R96): Issues a write of accumulator tiles to the scratchpad through row scales and conversion. -/
  | drain (p : PCore) (g : Guard) (b : BitVec 54)
  /-- ARRAY_OP_COMPLETE (R99): An array operation writes its last result and leaves the array, releasing its scoreboard ranges. -/
  | arrayOpComplete (p : PCore)
  /-- VCHAIN (R195): Issues a vector chain whose descriptor is read and checked during its 3 issue cycles. -/
  | vchain (p : PCore) (g : Guard) (b : BitVec 54)
  /-- CHAIN_START (R121): A queued chain begins entering tiles once the running chain has entered its last tile. -/
  | chainStart (p : PCore)
  /-- CHAIN_COMPLETE (R119): A chain makes its last write of OUT, RED or its summary register. -/
  | chainComplete (p : PCore)
  /-- SUMMARY_WRITE (R116): A chain writes its summary into a u register, clearing its UPEND bit. -/
  | summaryWrite (p : PCore)
  /-- FILL (R196): Issues a fill of a scratchpad range with a repeated 64-bit pattern. -/
  | fill (p : PCore) (g : Guard) (b : BitVec 54)
  /-- COPY (R196): Issues a copy of a scratchpad range within the front banks. -/
  | copy (p : PCore) (g : Guard) (b : BitVec 54)
  /-- FILL_COPY_COMPLETE (R140): The fill and copy unit finishes an operation and starts the next queued one. -/
  | fillCopyComplete (p : PCore)
  /-- FRD (R197): Issues a fabric read into a local scratchpad range. -/
  | frd (p : PCore) (g : Guard) (b : BitVec 54)
  /-- FWR (R197): Issues a write of a local range to a fabric address. -/
  | fwr (p : PCore) (g : Guard) (b : BitVec 54)
  /-- MCW (R199): Issues a multicast write to the cores that a mask selects. -/
  | mcw (p : PCore) (g : Guard) (b : BitVec 54)
  /-- HINT (R197): Asks the sumps holding an HBM range to stage it. -/
  | hint (p : PCore) (g : Guard) (b : BitVec 54)
  /-- MSEND (R219): Puts a message into the injection queue of a scheduled-mesh flow. -/
  | msend (p : PCore) (g : Guard) (b : BitVec 54)
  /-- DWAIT (R203): Waits until the selected completion groups have nothing outstanding, then reports and optionally clears them. -/
  | dwait (p : PCore) (g : Guard) (b : BitVec 54)
  /-- TRANSFER_COMPLETE (R200): A transfer completes with its status and updates its completion group. -/
  | transferComplete (p : PCore) (tid : Nat)
  /-- TRANSFER_TIMEOUT (R200): A transfer not complete TIMEOUT_US after issue completes with TIMEOUT. -/
  | transferTimeout (p : PCore) (tid : Nat) (dt : Nat)
  /-- TWAIT (R160): Waits until a token counter reaches k and subtracts k. -/
  | twait (p : PCore) (g : Guard) (b : BitVec 54)
  /-- CWAIT (R160): Waits until a credit counter reaches k and subtracts k. -/
  | cwait (p : PCore) (g : Guard) (b : BitVec 54)
  /-- TSEND (R161): Sends k tokens to a core's counter once all earlier writes are acknowledged. -/
  | tsend (p : PCore) (g : Guard) (b : BitVec 54)
  /-- CRET (R162): Returns k credits to a core's counter once earlier reads are released. -/
  | cret (p : PCore) (g : Guard) (b : BitVec 54)
  /-- WOPEN (R205): Opens or re-opens a remote-write window with new bounds and filter. -/
  | wopen (p : PCore) (g : Guard) (b : BitVec 54)
  /-- WCLOSE (R206): Closes the windows selected by a mask, retiring once applied. -/
  | wclose (p : PCore) (g : Guard) (b : BitVec 54)
  /-- CBCFG (R207): Disables a circular buffer, optionally resets its counts, and writes its configuration. -/
  | cbcfg (p : PCore) (g : Guard) (b : BitVec 54)
  /-- CBPUSH (R208): Advances a buffer's TAIL by one entry, waiting while it is full. -/
  | cbpush (p : PCore) (g : Guard) (b : BitVec 54)
  /-- CBPOP (R147): Pops k entries, waiting while too few are held, and returns credits when enabled. -/
  | cbpop (p : PCore) (g : Guard) (b : BitVec 54)
  /-- CBADDR (R209): Returns the offset of a buffer entry relative to HEAD or TAIL. -/
  | cbaddr (p : PCore) (g : Guard) (b : BitVec 54)
  /-- WAITT (R210): Waits until the island's panel time reaches a target. -/
  | waitt (p : PCore) (g : Guard) (b : BitVec 54)
  /-- TIME_RELEASE (R357): The time unit releases a WAITT or TIMED start at the first ACLK edge at or after its target. -/
  | timeRelease (p : PCore) (dt : Nat)
  /-- RUN_AHEAD_START (R167): One ACLK after a token, credit or buffer wait blocks, the sequencer begins run-ahead on shadow registers. -/
  | runAheadStart (p : PCore)
  /-- WATCHDOG_FIRE (R165): A token, credit or buffer wait without progress for LIMIT_US reports to the sett controller and rearms. -/
  | watchdogFire (p : PCore) (dt : Nat)
  /-- PROBE (R50): The sett controller probes the reported producer and confirms it dead or counts the firing. -/
  | probe (p : PCore) (alive : Bool)
  /-- RESUME (R179): A write of RESUME returns a halted sequencer to RUN at PC. -/
  | resume (p : PCore)
  /-- STEP (R179): A write of STEP issues one instruction of a halted sequencer and halts again. -/
  | step (p : PCore)
  /-- HALT (R179): A write of HALT halts a running sequencer at the next instruction boundary. -/
  | halt (p : PCore)
  /-- CORE_NUM_SEED_WRITE (R76): A write of CORE_NUM_SEED restarts all 128 stochastic-rounding generators. -/
  | coreNumSeedWrite (p : PCore) (v : BitVec 32)
  /-- WIN_CFG_WRITE (R143): A register write of CORE_WIN_CFG_n with OPEN = 1 opens the window and clears its byte count. -/
  | winCfgWrite (p : PCore) (n : Fin 16) (v : BitVec 64)
  /-- BANK_POWER_UP (R130): Setting CORE_SP_PWR.ON powers a bank and zero-fills it before READY. -/
  | bankPowerUp (p : PCore) (on : BitVec 12)
  /-- BANK_ZERO_FILL_DONE (R130): A bank's zero-fill completes and the bank becomes READY or its slot becomes LOADING. -/
  | bankZeroFillDone (p : PCore) (bank : Fin 12)
  /-- SCRUB_TICK (R151): Every INTERVAL ACLK scrub reads one line per bank and corrects single-bit errors. -/
  | scrubTick (p : PCore) (upsets : List Upset)
  /-- SP_ROW_REPAIR (R152): Between passes the sett controller repairs a spall-listed row into a spare or retires it. -/
  | spRowRepair (p : PCore) (bank : Fin 12) (row : Fin 256)
  /-- RD_REQ (R274): A read request packet reaches its target, which checks and answers it with RD_RSP packets. -/
  | rdReq (k : Packet)
  /-- RD_RSP (R134): A read response lands its payload at the requester. -/
  | rdRsp (k : Packet)
  /-- WR (R274): A write packet reaches its target, is checked and applied, and is acknowledged. -/
  | wr (k : Packet)
  /-- ACK (R253): An acknowledgement reaches the requester and completes the packets it counts. -/
  | ack (p : Option PCore) (k : Packet)
  /-- MCW_PKT (R264): A multicast packet is replicated by row and column copies and delivered to selected cores. -/
  | mcwPkt (k : Packet)
  /-- TOKEN (R163): A token packet adds to a token counter or advances a linked circular buffer. -/
  | token (k : Packet)
  /-- CREDIT (R163): A credit packet adds to a credit counter, trapping above LIMIT. -/
  | credit (k : Packet)
  /-- RETRACT (R173): A retract makes a sump or core drop unserved reads and untaken hinted lines. -/
  | retract (k : Packet)
  /-- HINT_PKT (R279): A hint packet makes a sump stage its stripes into the hint buffer. -/
  | hintPkt (k : Packet)
  /-- HINT_LINE_LAPSE (R279): A hint line never taken lapses 100 µs after staging. -/
  | hintLineLapse (s : Stack) (stripe : Nat) (dt : Nat)
  /-- DONE (R42): A done message is recorded by the ledger arbiter, fixing COMPLETED when DONE reaches EXPECT. -/
  | done (k : Packet)
  /-- ABORT_EVENT (R42): An abort event is recorded by the ledger arbiter, fixing ABORTED or setting ABORT_LATE. -/
  | abortEvent (reason : BitVec 8) (lost : List PCore)
  /-- STOP (R45): A stop reaches a core, which stops issuing, cancels run-ahead, drops queued work, closes windows and acknowledges. -/
  | stop (p : PCore)
  /-- STOP_ACK (R45): A core's stop acknowledgement reaches the ledger, which leaves QUIESCING when all have answered. -/
  | stopAck (p : PCore)
  /-- QUIESCE_LIMIT (R45): A core that has not acknowledged the stop within 500 µs is counted as lost. -/
  | quiesceLimit (dt : Nat)
  /-- PASS_RECORD_POST (R42): The ledger posts the status record of an ended pass and returns to IDLE. -/
  | passRecordPost
  /-- LAUNCH (R35): A launch message reaches a participating core, which starts at once for TOKEN launch or arms its TIMED start. -/
  | launch (p : PCore) (dt : Nat)
  /-- TIMED_START (R36): At T each participating core flips if asked, runs the pass-start support code and starts its program. -/
  | timedStart (dt : Nat)
  /-- STANDALONE_FLIP (R242): At T_f the cores and edge switches holding the placement in back flip, and launch follows. -/
  | standaloneFlip (dt : Nat)
  /-- SCHEDULER_PICK (R48): When the ledger is IDLE and a pass is ready, the scheduler picks it by deficit round-robin and accepts its launch. -/
  | schedulerPick
  /-- PASS_TIME_LIMIT (R47): A pass still launching or running at its time limit is aborted with TIME_LIMIT. -/
  | passTimeLimit (dt : Nat)
  /-- NEXT_PASS_FILL (R49): While a pass runs the scheduler fills the next pass's placement into back. -/
  | nextPassFill
  /-- MAP_CHANGE (R20): Firmware applies a confirmed structural-map change, marks touched residencies stale and increments GAL_SHAPE_GEN. -/
  | mapChange
  /-- LOAD_START (R237): G0 starts the load at the head of the fill queue, releasing and claiming back slots. -/
  | loadStart
  /-- LOAD (R237): A residency record reaches a sett's loader and is applied to the back slot. -/
  | load (seg : Fin 32)
  /-- LOAD_COMPLETE (R237): A load ends when every participating core is READY or the load fails. -/
  | loadComplete
  /-- HOST_SEGMENT_FETCH (R240): A gallery fetches its quarter of a host image and writes it to the home stacks for forwarding. -/
  | hostSegmentFetch (g : Gal) (seg : Fin 32) (r : HostRead)
  /-- HINT_FILL (R243): With the fill queue empty the scheduler loads the hinted entry into back. -/
  | hintFill
  /-- PIN_LAPSE (R243): A pin lapses 100 ms after it was set without a pass of the entry launching. -/
  | pinLapse (handle : BitVec 19) (dt : Nat)
  /-- MESH_MESSAGE_LAND (R222): A mesh message's payload lands at its terminal queue and one acknowledgement is sent. -/
  | meshMessageLand (id : Nat)
  /-- HOP_QUEUE_FLUSH (R223): After a pass ends each sett controller empties every hop queue of its sett. -/
  | hopQueueFlush (s : Site)
  /-- MESH_LANE_REPLAY (R217): A slot unit that fails its CRC is replayed from the replay buffer. -/
  | meshLaneReplay (s : Site) (lane : Fin 10)
  /-- MESH_LANE_DEAD (R217): A lane whose replays fail 16 times in a row is declared dead and recorded. -/
  | meshLaneDead (s : Site) (lane : Fin 10)
  /-- ROUTE_PACKET (R256): A router forwards, delivers, turns or drops a packet by its route entry. -/
  | routePacket (n : Node) (from_ : Arrival) (k : Packet)
  /-- FLIT_REPLAY (R247): A ring flit that fails its CRC is replayed. -/
  | flitReplay (n : Node) (port : Fin 12)
  /-- RING_LINK_DEAD (R247): After 16 consecutive replay failures a ring link is declared dead and folded. -/
  | ringLinkDead (n : Node) (port : Fin 12)
  /-- LINK_LOCK_LOSS (R266): A router folds a link whose receiver loses lock. -/
  | linkLockLoss (n : Node) (port : Fin 12)
  /-- LINK_IDLE_TIMEOUT (R266): A router folds a link that carries no flit or idle for 500 ns. -/
  | linkIdleTimeout (n : Node) (port : Fin 12)
  /-- COMBINE_TIMEOUT (R265): A multicast combine entry waiting longer than WAIT_US sends its ACK with TIMEOUT. -/
  | combineTimeout (n : Node) (dt : Nat)
  /-- DRAIN_START (R260): Setting GAL_DRAIN.START begins a drain that waits for the ledger to be IDLE. -/
  | drainStart (v : BitVec 64)
  /-- DRAIN_LIMIT (R261): A drain whose census is not empty LIMIT_US after the hold ends with TIMEOUT. -/
  | drainLimit (dt : Nat)
  /-- BEACON (R350): G0 emits a time beacon at each multiple of 1,024 ns, carrying drain HOLD, FLIP, FOLD and STEP. -/
  | beacon (dt : Nat)
  /-- BEACON_RECEIVE (R352): An island receives a valid beacon, corrects its time and applies drain flips, folds or a time step. -/
  | beaconReceive (n : Node) (frame : BitVec 128)
  /-- SYNC_LOSS (R354): An island that misses four consecutive beacons clears SYNC. -/
  | syncLoss (n : Node)
  /-- TIME_STEP (R355): Setting TIME_CTRL.STEP requests a step of panel time applied at a beacon when conditions hold. -/
  | timeStep (v : BitVec 64)
  /-- REFERENCE_LOSS (R342): An island's reference input is lost and its generator enters HOLDOVER and selects the next input. -/
  | referenceLoss (n : Node) (input : RefInput)
  /-- INPUT_QUALIFIED (R342): An input qualifies after 2 µs of clean edges and the generator locks and slews to it. -/
  | inputQualified (n : Node) (input : RefInput)
  /-- VCO_LOCK_FAIL (R348): A generator out of lock for 10 µs enters FAILED. -/
  | vcoLockFail (n : Node)
  /-- ACLK_STEP (R345): The generator moves ACLK one 25 MHz step toward its target. -/
  | aclkStep (s : Site)
  /-- CLOCK_VIOLATION (R346): A period or duty-cycle violation switches ACLK to the safe path. -/
  | clockViolation (s : Site) (duty : Bool)
  /-- SAFE_CLEAR (R346): Writing 1 to CLK_STATUS.SAFE returns ACLK to the fractional divider. -/
  | safeClear (s : Site)
  /-- DROOP (R347): A rail droop stretches the next ACLK cycle and lowers the DROOP limit. -/
  | droop (s : Site) (row : Fin 8)
  /-- DROOP_RECOVERY (R347): After 1 ms without droop the DROOP limit rises one step per millisecond. -/
  | droopRecovery (s : Site) (dt : Nat)
  /-- EFUSE_TRIP (R365): A region's e-fuses open on short, overcurrent, connector, undervoltage, step or command. -/
  | efuseTrip (region : Fin 9) (cause : BitVec 4)
  /-- CONNECTOR_OPEN (R367): A connector carrying under 1 A for 10 ms while its peers carry load is counted open. -/
  | connectorOpen (n : Fin 36)
  /-- CONNECTOR_ESTIMATE (R369): Every 10 ms the power manager forms a connector resistance estimate and acts on its ratio. -/
  | connectorEstimate (n : Fin 36) (microOhm : Nat) (centiAmp : BitVec 16) (dt : Nat)
  /-- ALLOCATION_TICK (R371): Every 1 ms the power manager sets each live sett's CAP from the budget. -/
  | allocationTick (power : List (Site × Nat)) (rim : Nat) (planeMilliVolt : List (Fin 9 × Nat)) (dt : Nat)
  /-- CAP_COMPARE (R372): Every 10 µs a sett controller compares its power with CAP and steps PWR. -/
  | capCompare (s : Site) (power : BitVec 16) (below1ms : Bool)
  /-- PANEL_CLAMP (R373): Panel input above the cap makes G0 lower every sett's PWR by 8 steps. -/
  | panelClamp (power : Nat)
  /-- PHASE_FAIL (R374): A VPM sheds a failed phase and the sett lowers CAP or the site dies. -/
  | phaseFail (s : Site) (phase : Fin 8)
  /-- IVR_FAIL (R375): An IVR fails and the sett closes ties, sets TIE_MAX or darkens rows. -/
  | ivrFail (s : Site) (ivr : Fin 9) (tieMax : BitVec 7)
  /-- INRUSH_GRANT (R376): The power manager grants in-rush headroom to the oldest meadow request. -/
  | inrushGrant (power : Nat)
  /-- INRUSH_REEVALUATE (R378): Every 1 ms a DEFERRED meadow request is re-evaluated for a grant. -/
  | inrushReevaluate (power : Nat) (dt : Nat)
  /-- TURN_ON_PHASE (R377): A meadow turn-on phase ends and the next begins, until the meadow is powered. -/
  | turnOnPhase (m : Meadow)
  /-- MEADOW_POWER_DOWN (R379): A planned power-down drains, opens headers, stops IVRs and VPMs and opens the e-fuses. -/
  | meadowPowerDown
  /-- CORE_GATE (R380): A write of PWR_CORE_GATE gates or ungates core logic, refusing protected cores. -/
  | coreGate (s : Site) (v : BitVec 64)
  /-- RIM_POWER_LOSS (R381): Loss of rim power makes the panel OFF and resets it. -/
  | rimPowerLoss
  /-- COOLANT_READ (R383): Every 10 ms G0 reads inlet, outlet and flow from the tray. -/
  | coolantRead (r : Option (BitVec 16 × BitVec 16 × BitVec 16)) (dt : Nat)
  /-- FLOW_LOW (R390): Flow below rated or inlet above 35 °C for 1 s sets FLOW_LOW and posts the event. -/
  | flowLow (dt : Nat)
  /-- COOL_LOST_CLEAR (R393): After 1 s at rated flow COOL_LOST clears. -/
  | coolLostClear (dt : Nat)
  /-- SENSOR_SAMPLE (R384): Each junction sensor is sampled every 100 µs. -/
  | sensorSample (s : Site) (k : Fin 16) (temp : BitVec 16)
  /-- GUARD_RELEASE (R389): After 1 ms below 100 °C the guard returns THERM to the manager. -/
  | guardRelease (s : Site) (dt : Nat)
  /-- SENSOR_DISAGREE (R385): A sensor pair differing by over 6 °C for 100 ms has one sensor marked suspect. -/
  | sensorDisagree (s : Site) (pair : Fin 8) (estimate : BitVec 16)
  /-- THERMAL_TICK (R387): Every 1 ms the thermal manager forecasts each hot spot and sets THERM. -/
  | thermalTick (fc : List Forecast) (dt : Nat)
  /-- STACK_READOUT (R388): Every 1 ms a sump reads its stack temperature and throttles above 95 °C. -/
  | stackReadout (s : Stack) (temp : Option (BitVec 8))
  /-- THERMTRIP (R394): A comparator trips, asserting THERMTRIP_n and opening every meadow's e-fuses. -/
  | thermtrip (hbm : Bool) (source : BitVec 9)
  /-- REFRESH (R281): The sump issues per-bank, all-bank or RFM refresh to keep every row within its interval. -/
  | refresh (s : Stack) (rfm : Bool) (bank : Nat)
  /-- PATROL_SCRUB (R285): Every SCRUB_NS the sump reads one 128 B unit and corrects it. -/
  | patrolScrub (s : Stack) (upsets : List Upset) (dt : Nat)
  /-- HBM_ROW_REPAIR (R286): Firmware repairs a proposed HBM row with soft post-package repair. -/
  | hbmRowRepair (s : Stack) (unit : BitVec 21) (resource : Bool)
  /-- STACK_FAILED (R288): A failed stack is set unreachable and STACK_FAILED is posted. -/
  | stackFailed (s : Stack)
  /-- REGION_ZERO_FILL_DONE (R278): A sump finishes zero-filling a new region's range and validates its entry. -/
  | regionZeroFillDone (s : Stack)
  /-- PANEL_RESET_PIN (R395): PANEL_RESET_n held low resets the panel, and its release begins bring-up. -/
  | panelResetPin (level : Bool)
  /-- RIM_POWER_GOOD (R473): The rim plane becomes good with PANEL_RESET_n high and bring-up begins. -/
  | rimPowerGood
  /-- BRINGUP_PHASE (R397): A bring-up phase ends and the next phase begins. -/
  | bringupPhase (f : PhaseFindings) (dt : Nat)
  /-- BENCH_STEP (R399): A bench step of a meadow ends and the next step begins. -/
  | benchStep (f : Findings) (dt : Nat)
  /-- HBM_TRAINING (R270): A sump trains its interface at the highest rate that passes, or fails the stack. -/
  | hbmTraining (s : Stack) (rate : Option (BitVec 2)) (laneRepairs : BitVec 8)
  /-- GO (R418): Setting GAL_REC_CTRL.GO makes the boot ROM fetch, check and write a recovery image. -/
  | go (image : HostRead)
  /-- MC_WATCHDOG_EXPIRY (R413): A management core's watchdog expires and the core is restarted or marked FAILED. -/
  | mcWatchdogExpiry (g : Gal) (b : Fin 4) (dt : Nat)
  /-- SETT_CONTROLLER_PROBE (R413): Every 10 ms G0 probes each sett controller and confirms a site dead after three misses. -/
  | settControllerProbe (s : Site) (answered : Bool)
  /-- FWCHUNK (R420): A firmware chunk or announcement reaches a sett controller and is staged. -/
  | fwchunk (s : Site) (k : Packet)
  /-- REPAIR_ROUND_END (R421): A firmware repair round ends when all requests are answered or 20 ms pass. -/
  | repairRoundEnd (dt : Nat)
  /-- FLASH_WRITE_DONE (R419): The firmware flash write and read-back end. -/
  | flashWriteDone (ok : Bool)
  /-- HOLD_BEGIN (R422): HOLD begins, stopping launches and loads until the ledger is IDLE, then T_act is multicast. -/
  | holdBegin (dt : Nat)
  /-- ACTIVATION (R422): At T_act every non-fenced receiver switches to the new image and the fences take effect. -/
  | activation (dt : Nat)
  /-- ICU_CLAIM (R425): A read of ICU_CLAIM_b claims the highest-priority claimable source. -/
  | icuClaim (g : Gal) (b : Fin 4)
  /-- ICU_COMPLETE (R425): A write of ICU_COMPLETE_b ends service of a source. -/
  | icuComplete (g : Gal) (b : Fin 4) (v : BitVec 32)
  /-- ICU_SGI (R424): A write of ICU_SGI sets a software interrupt in a core's private bank. -/
  | icuSgi (g : Gal) (v : BitVec 32)
  /-- GDIS (R426): A write of ICU_CTRL.GDIS holds off or releases delivery. -/
  | gdis (g : Gal) (v : BitVec 32)
  /-- INTERRUPT_EDGE (R427): A source edge is latched, wakes a waiting core and sets the pending bit. -/
  | interruptEdge (g : Gal) (n : Fin 1024)
  /-- SQ_DOORBELL (R308): A write of an SQ tail doorbell advances the queue or puts it in ERROR. -/
  | sqDoorbell (port : Gal) (vf : Fin 64) (qp : Fin 1024) (v : BitVec 32)
  /-- CQ_DOORBELL (R308): A write of a CQ head doorbell frees entries or puts the queue in ERROR. -/
  | cqDoorbell (port : Gal) (vf : Fin 64) (qp : Fin 1024) (v : BitVec 32)
  /-- SQ_FETCH (R309): The gallery fetches an SQ entry once a CQ entry is reserved and starts its command. -/
  | sqFetch (port : Gal) (vf : Fin 64) (qp : Fin 1024) (r : HostRead)
  /-- CQ_POST (R310): The gallery writes a status record into the next CQ entry. -/
  | cqPost (port : Gal) (vf : Fin 64) (qp : Fin 1024) (ok : Bool)
  /-- MSIX_COALESCE_TIMEOUT (R315): TIME after the oldest unsignalled record the gallery sends the vector's message. -/
  | msixCoalesceTimeout (port : Gal) (vf : Fin 64) (qp : Fin 1024) (dt : Nat)
  /-- MSIX_UNMASK (R316): Unmasking a vector with its pending bit set sends its message. -/
  | msixUnmask (port : Gal) (vf : Fin 64) (vector : Fin 2048)
  /-- AQ_ENABLE (R307): Setting GAL_FN_AQ_CFG.EN enables the admin queue and resets its indices. -/
  | aqEnable (port : Gal) (vf : Fin 64)
  /-- PERST (R291): PERST_n, hot reset or link disable resets one port's link and its functions. -/
  | perst (port : Gal) (kind : PortReset)
  /-- FLR (R298): A Function Level Reset closes home contexts, detaches and deletes queue pairs of the function. -/
  | flr (port : Gal) (vf : Fin 64)
  /-- D_STATE_CHANGE (R298): A function moves between D0 and D3hot, holding or resuming records. -/
  | dStateChange (port : Gal) (vf : Fin 64) (d3hot : Bool)
  /-- PORT_LINK_DOWN (R312): A port link goes down or returns, holding or resuming its queues. -/
  | portLinkDown (port : Gal) (up : Bool)
  /-- APERTURE_ACCESS (R297): An access through the management aperture reaches the selected register block as HOST. -/
  | apertureAccess (write : Bool) (off : BitVec 24) (wide : Bool) (v : BitVec 64)
  /-- MCTP_MESSAGE (R317): An MCTP message reaches the endpoint and is served by type. -/
  | mctpMessage (type : BitVec 8) (body : List Byte)
  /-- CTX_OPEN (R304): Opens a context with the lowest free id and returns its attach cookie. -/
  | ctxOpen (c : Cmd)
  /-- CTX_CLOSE (R306): Closes a context through aborting, releasing, removing regions and deleting queues. -/
  | ctxClose (c : Cmd)
  /-- CTX_ATTACH (R305): Binds a function on another port to a context given its cookie. -/
  | ctxAttach (c : Cmd)
  /-- CTX_DETACH (R305): Unbinds a function from a context. -/
  | ctxDetach (c : Cmd)
  /-- CTX_SET (R324): Changes a context's weight, pass time limit or job id. -/
  | ctxSet (c : Cmd)
  /-- QP_CREATE (R307): Creates an I/O queue pair for a bound context. -/
  | qpCreate (c : Cmd)
  /-- QP_DELETE (R324): Deletes a queue pair after its fetched commands complete. -/
  | qpDelete (c : Cmd)
  /-- VF_QUOTA (R303): Sets a VF's maximum contexts and queue pairs. -/
  | vfQuota (c : Cmd)
  /-- REGION_CREATE (R278): Creates a zero-filled HBM region for the context. -/
  | regionCreate (c : Cmd)
  /-- REGION_REMOVE (R278): Removes a region after admitted accesses are served. -/
  | regionRemove (c : Cmd)
  /-- PLACE_REGISTER (R229): Registers a placement image header in the directory and returns its handle. -/
  | placeRegister (c : Cmd)
  /-- PLACE_UNREGISTER (R231): Releases and removes a directory entry. -/
  | placeUnregister (c : Cmd)
  /-- RES_LOAD (R237): Queues a load of a placement from HBM into back slots. -/
  | resLoad (c : Cmd)
  /-- RES_LOAD_HOST (R240): Fetches an image from host memory, registers it and loads it. -/
  | resLoadHost (c : Cmd) (page : HostRead)
  /-- RES_RELEASE (R244): Releases a residency on every core that holds it. -/
  | resRelease (c : Cmd)
  /-- RES_HINT (R243): Sets or withdraws the context's residency hint. -/
  | resHint (c : Cmd)
  /-- RES_PIN (R243): Pins or unpins a directory entry. -/
  | resPin (c : Cmd)
  /-- PASS_LAUNCH (R326): Queues a pass of a placement with its discipline and parameter block. -/
  | passLaunch (c : Cmd)
  /-- ABORT (R328): Aborts or cancels a target command or pass. -/
  | abort (c : Cmd)
  /-- MEM_COPY (R325): Copies bytes between host memory and the context's HBM regions. -/
  | memCopy (c : Cmd) (src : HostRead)
  /-- DRAIN_CMD (R330): Runs a fabric drain that applies staged tables and folds. -/
  | drainCmd (c : Cmd)
  /-- FENCE (R459): A signed fence raises a job's epoch, aborts covered passes and stops their output. -/
  | fence (c : Cmd)
  /-- UNFENCE (R459): A signed unfence lifts a job's fence at a higher epoch. -/
  | unfence (c : Cmd)
  /-- STATE_COPY (R462): Sends or receives a context's HBM regions between panels. -/
  | stateCopy (c : Cmd)
  /-- STATE_COPY_PAIR_TIMEOUT (R462): A STATE_COPY without a partner within 10 s completes with TIMEOUT. -/
  | stateCopyPairTimeout (ctx : BitVec 10) (dt : Nat)
  /-- SOURCE_LOST (R463): The receiver declares the source lost and the copy completes with SOURCE_LOST. -/
  | sourceLost (ctx : BitVec 10)
  /-- SHADOW (R464): Sets a context's digest table and release suppression. -/
  | shadow (c : Cmd)
  /-- MEADOW_POWER (R330): Turns named meadows on through in-rush grants or off by the planned sequence. -/
  | meadowPower (c : Cmd)
  /-- PANEL_RESET (R395): Posts its record and resets the panel 1 ms later. -/
  | panelReset (c : Cmd)
  /-- QUERY (R333): Returns device, shape, entry, ledger, context or HBM information. -/
  | query (c : Cmd)
  /-- FW_UPDATE (R419): Fetches, verifies, distributes and activates a new firmware image. -/
  | fwUpdate (c : Cmd) (image : HostRead)
  /-- EVENT (R314): An event packet reaches a sett controller or gallery and an event record is queued for posting. -/
  | event (k : Packet)
  /-- NEW (R432): Writing SEC_AUTH_CTRL.NEW draws a fresh nonce. -/
  | new
  /-- UNLOCK_FULL (R437): An authorised unlock closes every context, wipes memories and enters debug level FULL. -/
  | unlockFull
  /-- PROVISION (R433): Steps a BLANK panel to PROVISIONED. -/
  | provision
  /-- CLAIM (R433): Blows a fleet key into slot 0 and steps to FIELD. -/
  | claim
  /-- KEY_ADD (R433): Blows a fleet key into the lowest empty slot. -/
  | keyAdd
  /-- KEY_REVOKE (R433): Revokes a fleet slot. -/
  | keyRevoke
  /-- SVN_COMMIT (R433): Raises the fused minimum SVN to the running image's SVN. -/
  | svnCommit
  /-- RETIRE (R433): Closes every context and steps to RETIRED. -/
  | retire
  /-- LISTS_CLEAR (R433): Arranges that the next bring-up starts from empty defect lists. -/
  | listsClear
  /-- SEC_DBG_CTRL_WRITE (R435): A write of LEVEL changes the debug level between OFF and OBSERVE. -/
  | secDbgCtrlWrite (v : BitVec 32)
  /-- GET_VERSION (R443): SPDM request for the supported version. -/
  | getVersion
  /-- GET_CAPABILITIES (R443): SPDM request for responder capabilities. -/
  | getCapabilities
  /-- NEGOTIATE_ALGORITHMS (R443): SPDM algorithm negotiation. -/
  | negotiateAlgorithms
  /-- GET_DIGESTS (R443): SPDM request for certificate chain digests. -/
  | getDigests
  /-- GET_CERTIFICATE (R443): SPDM request for the slot 0 certificate chain. -/
  | getCertificate (off : BitVec 16) (len : BitVec 16)
  /-- CHALLENGE (R443): SPDM challenge answered with an alias-key signature. -/
  | challenge (nonce : BitVec 256)
  /-- GET_MEASUREMENTS (R443): SPDM request for signed measurement blocks. -/
  | getMeasurements (index : BitVec 8) (nonce : BitVec 256)
  /-- BYPASS (R438): TAP BYPASS instruction. -/
  | bypass
  /-- IDCODE (R438): TAP IDCODE instruction. -/
  | idcode
  /-- SEC_ACCESS (R438): TAP access to the SEC_ registers, and reach R1 at OBSERVE. -/
  | secAccess (write : Bool) (addr : BitVec 48) (wide : Bool) (v : BitVec 64)
  /-- EXTEST (R438): TAP boundary-scan test at debug level FULL. -/
  | extest
  /-- TAP_DEBUG_ACCESS (R438): A Ditrix debug instruction issues a SYS fabric access through MC0 at FULL. -/
  | tapDebugAccess (write : Bool) (addr : BitVec 48) (bytes : BitVec 14) (data : List Byte)
  /-- PENLET_LINK_TRAIN (R447): A Penlet link trains its lanes and becomes UP, DEGRADED or DOWN. -/
  | penletLinkTrain (e : Engine) (lanes : BitVec 4)
  /-- PENLET_LINK_LOSS (R447): Loss of signal on a link declares it DOWN or DEGRADED and switches routes to ALT. -/
  | penletLinkLoss (e : Engine) (lanes : BitVec 4)
  /-- IDENT (R450): An IDENT frame makes a link UP or MISMATCH. -/
  | ident (e : Engine) (f : IdentFrame)
  /-- ROSTER (R450): A roster frame from the lead updates a member's roster. -/
  | roster (e : Engine) (f : RosterFrame)
  /-- SPAN_RECORD_READ (R449): G0 reads the span record from the tray and applies it when idle. -/
  | spanRecordRead (r : SpanRecord)
  /-- TIME_FRAME_SEND (R453): Every 8,192 ns the lead sends a TIME frame on each UP link. -/
  | timeFrameSend (dt : Nat)
  /-- TIME (R453): A member receives a TIME frame from its parent and slews or steps its panel time. -/
  | time (e : Engine) (t : BitVec 64) (agePs : Nat)
  /-- TSYNC_LOSS (R454): A member without a valid TIME frame for 64 µs clears TSYNC. -/
  | tsyncLoss (dt : Nat)
  /-- HEARTBEAT_SEND (R455): Every PERIOD_US G0 sends a heartbeat on each UP link. -/
  | heartbeatSend (dt : Nat)
  /-- HEARTBEAT (R455): A heartbeat frame is recorded and flooded onward once. -/
  | heartbeat (e : Engine) (f : HeartbeatFrame)
  /-- UNRESPONSIVE (R455): A member silent for MISS_LIMIT periods becomes UNRESPONSIVE. -/
  | unresponsive (index : Fin 64) (dt : Nat)
  /-- DATA (R452): A DATA frame is relayed or delivered with PEER class under the job's local context. -/
  | data (e : Engine) (f : Prefix) (k : Packet)
  /-- HANDOFF (R457): After a COMPLETED pass of a job, G0 performs the entries of its handoff table. -/
  | handoff
  /-- REGISTER_WRITE (R7): A write to a register without behaviour of its own updates its writable fields under their access codes. -/
  | registerWrite (t : RegPath) (wide : Bool) (v : BitVec 64)
  /-- IDLE_PROBE (R52): Between passes a sett controller's idle probe confirms a dead core, which changes the map before the next launch. -/
  | idleProbe (p : PCore) (alive : Bool)
  /-- CORE_READY (R380): An ungated core finishes power-up and resynchronisation, sets its PWR_CORE_READY bit, and a launch waiting on its participating set may proceed. -/
  | coreReady (p : PCore)
  /-- HOST_COMPLETION (R300): A PCIe completion for a host-memory request arrives at the gallery and is mapped to a fabric status and response. -/
  | hostCompletion (port : Gal) (id : Nat) (o : LinkOutcome)
  /-- COMPLETION_TIMEOUT (R300): A host-memory request whose PCIe completion does not arrive within the completion timeout completes with TIMEOUT. -/
  | completionTimeout (port : Gal) (id : Nat)
  /-- HANDOFF_TIMEOUT (R457): A handoff entry that has waited 1 ms for its acknowledgements completes with TIMEOUT and is counted in HO_FAILED. -/
  | handoffTimeout (id : Nat) (dt : Nat)
  /-- PENLET_FRAME_REPLAY (R448): A Penlet frame that fails its CRC is replayed on the link. -/
  | penletFrameReplay (e : Engine)
  /-- RETENTION_SOAK (R402): The 16 s refresh pause of an HBM pseudo-channel group's retention soak ends, the group is read back, and the soak moves on or ends with SOAK_DONE. -/
  | retentionSoak (group : Fin 4) (rows : List (Stack × BitVec 21))
  /-- RESTART_COMPLETE (R413): A management core restarted after a watchdog expiry finishes rebuilding its service state and leaves RESTARTING for RUN. -/
  | restartComplete (g : Gal) (b : Fin 4)
  /-- VF_ENABLE (R298): A change of the SR-IOV VF Enable bit creates the VFs, or on clearing acts as an FLR of every VF of the port. -/
  | vfEnable (port : Gal) (enable : Bool)
  /-- TAP_RESET (R472): Driving trst_n low resets G0's TAP. -/
  | tapReset
  deriving DecidableEq, Repr

end Sys2Proof
end

