-- ==== Sys2Proof/Config.lean ====
section
/-! DEFINITION. The values that the manual leaves open: constants without a body, so nothing can be proved about their values. -/

namespace Sys2Proof.Config

/-- A free value of the vector engine's functions whose result R111 bounds by an accuracy only: function code, compute format
code and operand code give the bits of a finite magnitude (log entry 12). -/
opaque approx : Nat → Nat → Nat → Nat

/-- A free value: which of the results within 1 ulp RCP and RSQRT give (log entry 12). -/
opaque ulpPick : Nat → Nat → Nat → Nat

/-- A free value: the n-th random or device-made number of 256 bits (nonces, cookies; log entry 13). -/
opaque fresh : Nat → BitVec 256

/-- A free value: whether an ECDSA P-256 signature over these bytes verifies under this 512-bit public key (log entry 13). -/
opaque verifies : BitVec 512 → List Byte → BitVec 512 → Bool

/-- A free value: the SHA-256 hash of bytes (log entry 13). -/
opaque sha256 : List Byte → BitVec 256

/-- A free value: the device's own signature over bytes with the alias key that a digest of measurements 1 to 5 gives (log entry 13). -/
opaque sign : BitVec 256 → List Byte → BitVec 512

/-- A free value: a portion of the device's certificate chain, by offset and length, for the alias key of a digest (log entry 13). -/
opaque certificate : BitVec 256 → Nat → Nat → List Byte

/-- A free value: the public keys whose digests are fused (R430): 0 the manufacturing firmware key, 1 the production firmware key, 2 the
manufacturing authorisation key (log entry 13). -/
opaque fusedKey : Nat → BitVec 512

/-- A free value: the digest of the boot ROM, measurement 1 (R443; log entry 13). -/
opaque romDigest : BitVec 256

/-- A free value: the FP64 sum of the elements of a type in bytes, or of their squares; the order of the additions is open (R465; log
entry 12). -/
opaque digestSum : Bool → BitVec 8 → List Byte → BitVec 64

/-- A free value: what QUERY CONTEXT reports as the pinned handle of a context without a pin (log entry 22). -/
opaque noPin : BitVec 64

/-- A free value: the identity code that the TAP shifts out (log entry 23). -/
opaque idcode : BitVec 32

end Sys2Proof.Config
end

