-- ==== Sys2Proof/Machine/Bits.lean ====
section
/-! DEFINITION. Bit fields, sign extension and little-endian byte order (R25, R61). -/

namespace Sys2Proof

/-- Bits hi..lo of a word, as a number. -/
def fld {n : Nat} (x : BitVec n) (hi lo : Nat) : Nat := (x.toNat >>> lo) % 2 ^ (hi + 1 - lo)

/-- Bit i of a word. -/
def bit {n : Nat} (x : BitVec n) (i : Nat) : Bool := x.toNat.testBit i

/-- The word with bits hi..lo replaced by the low bits of `v`. -/
def setFld {n : Nat} (x : BitVec n) (hi lo v : Nat) : BitVec n :=
  BitVec.ofNat n (x.toNat % 2 ^ lo + (v % 2 ^ (hi + 1 - lo)) * 2 ^ lo + (x.toNat >>> (hi + 1)) * 2 ^ (hi + 1))

/-- The word with bit i set or cleared. -/
def setBit {n : Nat} (x : BitVec n) (i : Nat) (v : Bool) : BitVec n := setFld x i i (if v then 1 else 0)

/-- A flag as a number. -/
def b2n (b : Bool) : Nat := if b then 1 else 0

/-- The number `v` taken as a signed number of `n` bits. -/
def sgn (n v : Nat) : Int := if v % 2 ^ n < 2 ^ (n - 1) then (v % 2 ^ n : Nat) else (v % 2 ^ n : Nat) - (2 : Int) ^ n

/-- An integer modulo 2^n. -/
def wrapN (n : Nat) (z : Int) : Nat := (z % (2 : Int) ^ n).toNat

/-- The number that bytes in little-endian order spell. -/
def leNat : List Byte → Nat
  | [] => 0
  | b :: t => b.toNat + 256 * leNat t

/-- The `n` bytes of a number in little-endian order. -/
def leBytes : Nat → Nat → List Byte
  | 0, _ => []
  | n + 1, v => BitVec.ofNat 8 v :: leBytes n (v / 256)

/-- Bits hi..lo of a number. -/
def nfld (x hi lo : Nat) : Nat := (x >>> lo) % 2 ^ (hi + 1 - lo)

/-- A 64-bit word of a wider number. -/
def word64 {n : Nat} (x : BitVec n) (k : Nat) : BitVec 64 := BitVec.ofNat 64 (x.toNat >>> (64 * k))

/-- A count that stops at its field's maximum (R27). -/
def satAdd {n : Nat} (x : BitVec n) (k : Nat) : BitVec n := BitVec.ofNat n (min (2 ^ n - 1) (x.toNat + k))

/-- A count field hi..lo of a register that saturates at its maximum. -/
def satFld {n : Nat} (x : BitVec n) (hi lo k : Nat) : BitVec n :=
  setFld x hi lo (min (2 ^ (hi + 1 - lo) - 1) (fld x hi lo + k))

/-- The bits of a mask of `n` bits, by rising index. -/
def bitsOf (n v : Nat) : List Nat := (List.range n).filter fun i => v.testBit i

/-- The mask of a list of bit indexes. -/
def maskOf : List Nat → Nat
  | [] => 0
  | i :: t => maskOf t ||| 2 ^ i

/-- The number of ones of a mask of `n` bits. -/
def popc (n v : Nat) : Nat := (bitsOf n v).length

/-- The list with `x` at its end unless it is there. -/
def addOnce {α : Type} [DecidableEq α] (l : List α) (x : α) : List α := if l.contains x then l else l ++ [x]

/-- The sum of a list of numbers. -/
def sumN : List Nat → Nat
  | [] => 0
  | x :: t => x + sumN t

/-- A list inserted in rising order without repeats. -/
def insN : List Nat → Nat → List Nat
  | [], x => [x]
  | y :: t, x => if x < y then x :: y :: t else if x = y then y :: t else y :: insN t x

end Sys2Proof
end

