-- ==== Sys2Proof/Machine/Tab.lean ====
section
/-! DEFINITION. Operations over sparse tables and over byte memories, with their canonical form. -/

namespace Sys2Proof

/-- What key `i` reads as, `d` where the table lists nothing. -/
def Tab.get {α : Type} (d : α) : Tab α → Nat → α
  | [], _ => d
  | (k, v) :: t, i => if k = i then v else Tab.get d t i

/-- The table without any entry for key `i`. -/
def Tab.erase {α : Type} : Tab α → Nat → Tab α
  | [], _ => []
  | (k, v) :: t, i => if k = i then Tab.erase t i else (k, v) :: Tab.erase t i

/-- The table with the entry (i, v) at its place in rising key order. -/
def Tab.insert {α : Type} : Tab α → Nat → α → Tab α
  | [], i, v => [(i, v)]
  | (k, w) :: t, i, v =>
    if i < k then (i, v) :: (k, w) :: t else if i = k then (i, v) :: t else (k, w) :: Tab.insert t i v

/-- Writes `v` at key `i`; writing what an unlisted key reads as removes the entry. -/
def Tab.set {α : Type} [DecidableEq α] (d : α) (t : Tab α) (i : Nat) (v : α) : Tab α :=
  if v = d then Tab.erase t i else Tab.insert t i v

/-- Applies `f` to what key `i` reads as. -/
def Tab.mod {α : Type} [DecidableEq α] (d : α) (t : Tab α) (i : Nat) (f : α → α) : Tab α :=
  Tab.set d t i (f (Tab.get d t i))

/-- The `n` entries from key `i` on. -/
def Tab.read {α : Type} (d : α) (t : Tab α) : Nat → Nat → List α
  | _, 0 => []
  | i, n + 1 => Tab.get d t i :: Tab.read d t (i + 1) n

/-- Writes a list from key `i` on, in rising key order. -/
def Tab.write {α : Type} [DecidableEq α] (d : α) (t : Tab α) : Nat → List α → Tab α
  | _, [] => t
  | i, v :: vs => Tab.write d (Tab.set d t i v) (i + 1) vs

/-- The table without the `n` entries from key `i` on. -/
def Tab.clear {α : Type} (t : Tab α) (i n : Nat) : Tab α :=
  t.filter fun e => decide (e.1 < i) || decide (i + n ≤ e.1)

/-- The keys of the table rise strictly. -/
def Tab.sorted {α : Type} : Tab α → Bool
  | [] => true
  | (k, _) :: t => t.all (fun e => decide (k < e.1)) && Tab.sorted t

/-- The canonical form: strictly rising keys, and no entry that equals what an unlisted key reads as. -/
def Tab.wf {α : Type} [DecidableEq α] (d : α) (t : Tab α) : Bool :=
  Tab.sorted t && t.all fun e => decide (e.2 ≠ d)

/-- A memory in canonical form: an unlisted byte reads 0 (R61). -/
def Memory.wf (m : Tab Byte) : Bool := Tab.wf 0 m

/-- The `n` bytes of a memory from address `a` on. -/
def Memory.read (m : Tab Byte) (a n : Nat) : List Byte := Tab.read 0 m a n

/-- Stores bytes from address `a` on. -/
def Memory.write (m : Tab Byte) (a : Nat) (bs : List Byte) : Tab Byte := Tab.write 0 m a bs

/-- Zero-fills `n` bytes from address `a` on. -/
def Memory.zero (m : Tab Byte) (a n : Nat) : Tab Byte := Tab.clear m a n

end Sys2Proof
end

