-- ==== Sys2Proof/Machine/Num.lean ====
section
/-! DEFINITION. Number formats, exact values, rounding and conversion, block scales and stochastic draws (chapter 03). -/

namespace Sys2Proof.Machine

/-- The data formats of R55. -/
inductive Fmt where
  | fp32 | bf16 | fp16 | e4m3 | e5m2 | e3m2 | e2m3 | e2m1 | int8 | int32 | e8m0
  deriving DecidableEq, Repr

/-- The format of an FMT code; the codes 0xB to 0xF are reserved (R55). -/
def fmtOf : Nat → Option Fmt
  | 0 => some .fp32
  | 1 => some .bf16
  | 2 => some .fp16
  | 3 => some .e4m3
  | 4 => some .e5m2
  | 5 => some .e3m2
  | 6 => some .e2m3
  | 7 => some .e2m1
  | 8 => some .int8
  | 9 => some .int32
  | 10 => some .e8m0
  | _ => none

/-- The format that a legal type byte names. -/
def typeFmt (t : BitVec 8) : Fmt := (fmtOf (fld t 3 0)).getD .fp32

/-- MX of a type byte. -/
def typeMx (t : BitVec 8) : Bool := bit t 7

/-- ZS of a type byte. -/
def typeZs (t : BitVec 8) : Bool := bit t 6

/-- RS of a type byte. -/
def typeRs (t : BitVec 8) : Bool := bit t 5

/-- Whether a format allows MX (R55). -/
def Fmt.mxOk : Fmt → Bool
  | .e4m3 | .e5m2 | .e3m2 | .e2m3 | .e2m1 | .int8 => true
  | _ => false

/-- The type bytes that R55 does not call illegal. -/
def typeLegal (t : BitVec 8) : Bool :=
  !bit t 4 && match fmtOf (fld t 3 0) with
    | none => false
    | some f => (!typeMx t || f.mxOk) && (!typeZs t || typeMx t)

/-- Width in bits (R55). -/
def Fmt.width : Fmt → Nat
  | .fp32 | .int32 => 32
  | .bf16 | .fp16 => 16
  | .e4m3 | .e5m2 | .int8 | .e8m0 => 8
  | .e3m2 | .e2m3 => 6
  | .e2m1 => 4

/-- Mantissa bits of a floating-point format (R56). -/
def Fmt.mant : Fmt → Nat
  | .fp32 => 23
  | .bf16 => 7
  | .fp16 => 10
  | .e4m3 => 3
  | .e5m2 => 2
  | .e3m2 => 2
  | .e2m3 => 3
  | .e2m1 => 1
  | .int8 | .int32 | .e8m0 => 0

/-- Exponent bias (R56). -/
def Fmt.bias : Fmt → Nat
  | .fp32 | .bf16 | .e8m0 => 127
  | .fp16 | .e5m2 => 15
  | .e4m3 => 7
  | .e3m2 => 3
  | .e2m3 | .e2m1 => 1
  | .int8 | .int32 => 0

/-- Exponent bits (R56). -/
def Fmt.expo (f : Fmt) : Nat := f.width - 1 - f.mant

/-- The formats with an infinity (R56). -/
def Fmt.hasInf : Fmt → Bool
  | .fp32 | .bf16 | .fp16 | .e5m2 => true
  | _ => false

/-- The integer formats (R60). -/
def Fmt.isInt : Fmt → Bool
  | .int8 | .int32 => true
  | _ => false

/-- The code of the largest finite magnitude (R56). -/
def Fmt.maxCode : Fmt → Nat
  | .fp32 => 0x7F7FFFFF
  | .bf16 => 0x7F7F
  | .fp16 => 0x7BFF
  | .e4m3 => 0x7E
  | .e5m2 => 0x7B
  | .e3m2 => 0x1F
  | .e2m3 => 0x1F
  | .e2m1 => 0x7
  | .int8 => 0x7F
  | .int32 => 0x7FFFFFFF
  | .e8m0 => 0xFE

/-- The code of +Inf of a format that has one. -/
def Fmt.infCode (f : Fmt) : Nat := f.maxCode + 1

/-- The canonical NaN of R58; the formats without NaN take 0 (R75). -/
def Fmt.nanCode : Fmt → Nat
  | .fp32 => 0x7FC00000
  | .bf16 => 0x7FC0
  | .fp16 => 0x7E00
  | .e4m3 => 0x7F
  | .e5m2 => 0x7E
  | .e8m0 => 0xFF
  | _ => 0

/-- The formats that can hold a NaN (R56). -/
def Fmt.hasNan : Fmt → Bool
  | .fp32 | .bf16 | .fp16 | .e4m3 | .e5m2 | .e8m0 => true
  | _ => false

/-- A value: NaN, an infinity, or exactly (−1)^neg × m × 2^e. -/
inductive Val where
  | nan
  | inf (neg : Bool)
  | fin (neg : Bool) (m : Nat) (e : Int)
  deriving DecidableEq, Repr

/-- +0. -/
def Val.zero : Val := .fin false 0 0

/-- 1.0. -/
def Val.one : Val := .fin false 1 0

/-- Whether a value is NaN. -/
def Val.isNan : Val → Bool
  | .nan => true
  | _ => false

/-- Whether a value is an infinity. -/
def Val.isInf : Val → Bool
  | .inf _ => true
  | _ => false

/-- Whether a value is +0 or −0. -/
def Val.isZero : Val → Bool
  | .fin _ m _ => m == 0
  | _ => false

/-- The sign of a value. -/
def Val.neg : Val → Bool
  | .nan => false
  | .inf n => n
  | .fin n _ _ => n

/-- The value with the sign `n`. -/
def Val.withSign (n : Bool) : Val → Val
  | .nan => .nan
  | .inf _ => .inf n
  | .fin _ m e => .fin n m e

/-- The exact value z × 2^e; an exact zero takes the sign `nz`. -/
def Val.ofInt (z : Int) (e : Int) (nz : Bool) : Val :=
  .fin (if z = 0 then nz else decide (z < 0)) z.natAbs e

/-- What a code of a floating-point or integer format stands for (R56, R60, R63). -/
def decodeVal (f : Fmt) (c : Nat) : Val :=
  match f with
  | .int8 => .ofInt (sgn 8 c) 0 false
  | .int32 => .ofInt (sgn 32 c) 0 false
  | .e8m0 => if c % 256 = 255 then .nan else .fin false 1 ((c % 256 : Nat) - 127)
  | _ =>
    let n := c.testBit (f.width - 1)
    let mag := c % 2 ^ (f.width - 1)
    let ex := mag >>> f.mant
    let mm := mag % 2 ^ f.mant
    if f.hasInf && ex = 2 ^ f.expo - 1 then (if mm = 0 then .inf n else .nan)
    else if f = .e4m3 && mag = 0x7F then .nan
    else if ex = 0 then .fin n mm (1 - (f.bias : Int) - f.mant)
    else .fin n (2 ^ f.mant + mm) ((ex : Int) - f.bias - f.mant)

/-- The rounding modes of a conversion (R74); stochastic rounding carries its drawn 16-bit fraction (R76). -/
inductive Rnd where
  | rne
  | rtz
  | stoch (fraction : Nat)
  deriving DecidableEq, Repr

/-- m × 2^e rounded to a whole multiple of 2^q (R74, R76). -/
def roundMag (m : Nat) (e q : Int) (r : Rnd) : Nat :=
  if q ≤ e then m <<< (e - q).toNat
  else
    let d := (q - e).toNat
    let n := m >>> d
    match r with
    | .rtz => n
    | .rne =>
      let rem := m % 2 ^ d
      if 2 * rem > 2 ^ d || (2 * rem = 2 ^ d && n % 2 = 1) then n + 1 else n
    | .stoch f => (m * 65536 + f * 2 ^ d) >>> (d + 16)

/-- floor(log2 (m × 2^e)) for m ≠ 0. -/
def ilog (m : Nat) (e : Int) : Int := (Nat.log2 m : Int) + e

/-- The code of the magnitude n × 2^q in a floating-point format, q being the quantum that `encodeVal` chose. -/
def packMag (f : Fmt) (n : Nat) (q : Int) : Nat :=
  if n = 0 then 0
  else
    let l := ilog n q
    if l < 1 - (f.bias : Int) then n
    else ((l + f.bias).toNat <<< f.mant) + ((if Nat.log2 n ≤ f.mant then n <<< (f.mant - Nat.log2 n)
      else n >>> (Nat.log2 n - f.mant)) - 2 ^ f.mant)

/-- A magnitude code with its sign. -/
def signed (f : Fmt) (neg : Bool) (mag : Nat) : Nat := if neg then mag + 2 ^ (f.width - 1) else mag

/-- The flags of CORE_NUM_STATUS as a mask. -/
def fNanIn : Nat := 1
/-- NAN_GEN. -/
def fNanGen : Nat := 2
/-- OVF. -/
def fOvf : Nat := 4
/-- INT_SAT. -/
def fIntSat : Nat := 8
/-- CONV_SAT. -/
def fConvSat : Nat := 16
/-- NAN_LOST. -/
def fNanLost : Nat := 32
/-- SCALE_CLAMP. -/
def fClamp : Nat := 64

/-- An overflow of a finite value (R75): the code and the flags. -/
def overflow (f : Fmt) (neg nonsat : Bool) (r : Rnd) : Nat × Nat :=
  match f with
  | .fp32 | .bf16 | .fp16 =>
    if r = .rne then (signed f neg f.infCode, fOvf) else (signed f neg f.maxCode, fConvSat)
  | .e5m2 => if nonsat then (signed f neg f.infCode, fOvf) else (signed f neg f.maxCode, fConvSat)
  | .e4m3 => if nonsat then (f.nanCode, fOvf) else (signed f neg f.maxCode, fConvSat)
  | _ => (signed f neg f.maxCode, fConvSat)

/-- An infinite input of a conversion (R75). DEDUCED, log entry 14: an Inf that becomes a NaN of E4M3 sets NAN_GEN. -/
def convInf (f : Fmt) (neg nonsat : Bool) : Nat × Nat :=
  match f with
  | .fp32 | .bf16 | .fp16 => (signed f neg f.infCode, 0)
  | .e5m2 => if nonsat then (signed f neg f.infCode, 0) else (signed f neg f.maxCode, fConvSat)
  | .e4m3 => if nonsat then (f.nanCode, fNanGen) else (signed f neg f.maxCode, fConvSat)
  | .int8 => (if neg then 0x80 else 0x7F, fConvSat)
  | .int32 => (if neg then 0x80000000 else 0x7FFFFFFF, fConvSat)
  | _ => (signed f neg f.maxCode, fConvSat)

/-- An integer destination of `w` bits (R75): the value rounded and saturated. -/
def convInt (w : Nat) (neg : Bool) (m : Nat) (e : Int) (r : Rnd) : Nat × Nat :=
  let n := roundMag m e 0 r
  if neg then (if n > 2 ^ (w - 1) then (2 ^ (w - 1), fConvSat) else ((2 ^ w - n) % 2 ^ w, 0))
  else if n ≥ 2 ^ (w - 1) then (2 ^ (w - 1) - 1, fConvSat) else (n, 0)

/-- A conversion to a format under R74 and R75: the code and the flags R75 names. -/
def encodeVal (f : Fmt) (nonsat : Bool) (r : Rnd) (v : Val) : Nat × Nat :=
  match v with
  | .nan => (f.nanCode, if f.hasNan then 0 else fNanLost)
  | .inf n => convInf f n nonsat
  | .fin n m e =>
    if f.isInt then convInt f.width n m e r
    else if m = 0 then (signed f n 0, 0)
    else
      let q := max (ilog m e) (1 - (f.bias : Int)) - f.mant
      let k := roundMag m e q r
      let code := packMag f k q
      if code > f.maxCode then overflow f n nonsat r else (signed f n code, 0)

/-- The value rounded to a compute format with RNE (R110): the value and the flags. -/
def roundTo (f : Fmt) (v : Val) : Val × Nat :=
  let (c, fl) := encodeVal f false .rne v
  (decodeVal f c, fl)

/-! ### Exact arithmetic -/

/-- The exact integer of a finite value in units of 2^q, q at most its exponent. -/
def Val.scaled (q : Int) : Val → Int
  | .fin n m e => let k := (m <<< (e - q).toNat : Nat); if n then -(k : Int) else k
  | _ => 0

/-- The exact sum; +Inf with −Inf is NaN (R59). -/
def addV (a b : Val) : Val :=
  match a, b with
  | .nan, _ => .nan
  | _, .nan => .nan
  | .inf m, .inf n => if m = n then .inf m else .nan
  | .inf m, _ => .inf m
  | _, .inf n => .inf n
  | .fin m x e, .fin n y f =>
    let q := min e f
    .ofInt (Val.scaled q (.fin m x e) + Val.scaled q (.fin n y f)) q (m && n && x == 0 && y == 0)

/-- The value with its sign changed. -/
def negV : Val → Val
  | .nan => .nan
  | .inf n => .inf !n
  | .fin n m e => .fin (!n) m e

/-- The exact product; 0 × Inf is NaN. -/
def mulV (a b : Val) : Val :=
  match a, b with
  | .nan, _ => .nan
  | _, .nan => .nan
  | .inf m, .inf n => .inf (m != n)
  | .inf m, .fin n y _ => if y = 0 then .nan else .inf (m != n)
  | .fin m x _, .inf n => if x = 0 then .nan else .inf (m != n)
  | .fin m x e, .fin n y f => .fin (m != n) (x * y) (e + f)

/-- A quotient with more than 64 significant bits and a sticky last bit, so that one rounding of it is correct. -/
def divV (a b : Val) : Val :=
  match a, b with
  | .nan, _ => .nan
  | _, .nan => .nan
  | .inf _, .inf _ => .nan
  | .inf m, .fin n _ _ => .inf (m != n)
  | .fin m _ _, .inf n => .fin (m != n) 0 0
  | .fin m x e, .fin n y f =>
    if y = 0 then (if x = 0 then .nan else .inf (m != n))
    else if x = 0 then .fin (m != n) 0 0
    else
      let k := 80 + Nat.log2 y
      let q := (x <<< k) / y
      .fin (m != n) (2 * q + (if (x <<< k) % y = 0 then 0 else 1)) (e - f - k - 1)

/-- The largest r with r² ≤ n, by bits from `b` down. -/
def isqrtGo (n : Nat) : Nat → Nat → Nat
  | 0, r => r
  | b + 1, r => let t := r + 2 ^ b; isqrtGo n b (if t * t ≤ n then t else r)

/-- The integer square root. -/
def isqrt (n : Nat) : Nat := isqrtGo n (Nat.log2 n / 2 + 1) 0

/-- A square root with more than 64 significant bits and a sticky last bit (R112 for the special inputs). -/
def sqrtV (a : Val) : Val :=
  match a with
  | .nan => .nan
  | .inf n => if n then .nan else .inf false
  | .fin n m e =>
    if m = 0 then .fin n 0 0
    else if n then .nan
    else
      let odd := e % 2 = 1
      let x := (if odd then 2 * m else m) <<< 160
      let r := isqrt x
      .fin false (2 * r + (if r * r = x then 0 else 1)) ((if odd then e - 1 else e) / 2 - 81)

/-- The total order that MAX, MIN and the comparisons use: −0 is less than +0 (R111). Both values are not NaN. -/
def ltV (a b : Val) : Bool :=
  match a, b with
  | .inf m, .inf n => m && !n
  | .inf m, _ => m
  | _, .inf n => !n
  | .fin m x e, .fin n y f =>
    if x = 0 && y = 0 then m && !n
    else
      let q := min e f
      decide (Val.scaled q (.fin m x e) < Val.scaled q (.fin n y f))
  | _, _ => false

/-- Equality in that order. -/
def eqV (a b : Val) : Bool := !a.isNan && !b.isNan && !ltV a b && !ltV b a

/-- The larger value, NaN if either is NaN (R111). -/
def maxV (a b : Val) : Val := if a.isNan || b.isNan then .nan else if ltV a b then b else a

/-- The smaller value, NaN if either is NaN (R111). -/
def minV (a b : Val) : Val := if a.isNan || b.isNan then .nan else if ltV b a then b else a

/-- The integer value nearest to a finite value under RNE, or its floor. -/
def integral (floor : Bool) : Val → Val
  | .fin n m e =>
    if 0 ≤ e then .fin n m e
    else
      let k := roundMag m e 0 (if floor then .rtz else .rne)
      .fin n (if floor && n && k <<< (-e).toNat ≠ m then k + 1 else k) 0
  | v => v

/-! ### Stochastic rounding and block scales -/

/-- The first state of generator l after a write of CORE_NUM_SEED (R76). -/
def genInit (seed : BitVec 32) (l : Nat) : BitVec 64 :=
  BitVec.ofNat 64 (seed.toNat <<< 32) ^^^ BitVec.ofNat 64 (l <<< 8) ^^^ 0x9E3779B97F4A7C15

/-- One draw of a generator (R76). -/
def genNext (s : BitVec 64) : BitVec 64 :=
  let a := s ^^^ (s <<< 13)
  let b := a ^^^ (a >>> 7)
  b ^^^ (b <<< 17)

/-- A draw from generator l of a core: the 16-bit fraction and the generators after it (R76). -/
def draw (seed : BitVec 32) (gens : Tab (BitVec 64)) (l : Nat) : Nat × Tab (BitVec 64) :=
  let s := Tab.get 0 gens l
  let t := genNext (if s = 0 then genInit seed l else s)
  (t.toNat >>> 48, Tab.set 0 gens l t)

/-- The rounding that a mode code names, drawing for a stochastic one (R74, R76): code 0 RNE, 1 RTZ, 2 stochastic, 3 as RNE. -/
def pickRnd (mode : Nat) (seed : BitVec 32) (gens : Tab (BitVec 64)) (l : Nat) : Rnd × Tab (BitVec 64) :=
  if mode = 1 then (.rtz, gens)
  else if mode = 2 then let (f, g) := draw seed gens l; (.stoch f, g)
  else (.rne, gens)

/-- A 2-bit rounding field of an instruction, with 0 for the default of CORE_NUM_CTRL (R74). -/
def rndMode (field : Nat) (numCtrl : BitVec 32) : Nat := if field = 0 then fld numCtrl 3 2 else field - 1

/-- The value of an element under its type byte and scale code (R63, R64, R73); an MXINT8 element counts 2^(−6) (R60). -/
def elemVal (t : BitVec 8) (code scale : Nat) : Val :=
  if !typeMx t then decodeVal (typeFmt t) code
  else if typeZs t && scale = 0 then .zero
  else if scale = 255 then .nan
  else
    let v := decodeVal (typeFmt t) code
    match v with
    | .fin n m e => .fin n m (e + ((scale : Int) - 127) - (if typeFmt t = .int8 then 6 else 0))
    | v => v

/-- Whether a scale code marks a zero block under a type byte (R64). -/
def zeroMark (t : BitVec 8) (scale : Nat) : Bool := typeMx t && typeZs t && scale == 0

/-- emax of an MX element type (R62). -/
def Fmt.emax : Fmt → Int
  | .e4m3 => 8
  | .e5m2 => 15
  | .e3m2 => 4
  | .e2m3 => 2
  | .e2m1 => 2
  | _ => 0

/-- The largest finite value of an MX element type, 127/64 for MXINT8 (R65). -/
def Fmt.mxMax (f : Fmt) : Val := if f = .int8 then .fin false 127 (-6) else decodeVal f f.maxCode

/-- The shared exponent of a block whose largest magnitude is `m` (R65 step 3): FIT takes the smallest x with m / 2^x at most
the largest finite value. -/
def sharedExp (f : Fmt) (fit : Bool) (m : Val) : Int :=
  match m with
  | .fin _ k e =>
    let l := ilog k e
    if !fit then l - f.emax
    else
      match f.mxMax with
      | .fin _ k2 e2 =>
        let x := l - ilog k2 e2
        if ltV f.mxMax (.fin false k (e - x)) then x + 1 else x
      | _ => 0
  | _ => 0

/-- The largest magnitude of a list of finite values. -/
def absMax : List Val → Val
  | [] => .zero
  | v :: t => maxV (v.withSign false) (absMax t)

/-- The quantised elements of a block with one rounding each: the codes and the flags (R65 step 5). -/
def quantElems (f : Fmt) (xs : Int) : List (Val × Rnd) → List Nat × Nat
  | [] => ([], 0)
  | (.fin n m e, r) :: t =>
    let adj := e - xs + (if f = .int8 then 6 else 0)
    let (c, fl) :=
      if f = .int8 then
        let k := roundMag m adj 0 r
        if k > 127 then (if n then 0x81 else 0x7F, fConvSat) else (if n then (256 - k) % 256 else k, 0)
      else encodeVal f false r (.fin n m adj)
    let (cs, gl) := quantElems f xs t
    (c :: cs, fl ||| gl)
  | _ :: t => let (cs, gl) := quantElems f xs t; (0 :: cs, gl)

/-- R65: the scale code, the element codes and the flags of a block of FP32 values, each with its rounding. -/
def quantise (f : Fmt) (fit : Bool) (xs : List (Val × Rnd)) : Nat × List Nat × Nat :=
  if xs.any (fun x => x.1.isNan || x.1.isInf) then (255, xs.map (fun _ => 0), 0)
  else if xs.all (fun x => x.1.isZero) then (0, xs.map (fun _ => 0), 0)
  else
    let e := sharedExp f fit (absMax (xs.map Prod.fst))
    let c := max (-127) (min 127 e)
    let (codes, fl) := quantElems f c xs
    ((c + 127).toNat, codes, fl ||| (if c = e then 0 else fClamp))

end Sys2Proof.Machine
end

