-- ==== Sys2Proof/Machine/State.lean ====
section
/-! DEFINITION. The state of the whole panel as plain data, and the panel right after a reset. -/

namespace Sys2Proof.Machine

/-! ## Core: the units' operations in progress -/

/-- One entry of the address-range scoreboard (R132): the operation it belongs to, the range [lo, hi], WRITE or READ, SPEC. -/
structure SbEntry where
  owner : Nat
  lo    : Nat
  hi    : Nat
  write : Bool
  spec  : Bool
  deriving DecidableEq, Repr

/-- A stream word (R183): the operand type byte, PSTRIDE and BASE. -/
structure StreamWord where
  type    : BitVec 8
  pstride : Nat
  base    : Nat
  deriving DecidableEq, Repr

/-- The five operations of the tensor array with their operands (R79). -/
inductive ArrKind where
  | mmaOs (tile steps : Nat) (a b : StreamWord) (sa sb md : Nat) (clear sparse zskip : Bool)
  | mmaWs (tile rows : Nat) (wset : Bool) (a : StreamWord) (sa : Nat) (clear zskip : Bool)
  | wload (wset : Bool) (b : StreamWord) (sb md : Nat) (sparse halfk : Bool)
  | accLoad (tile ntiles src sstride : Nat)
  | drain (tile ntiles dest dstride : Nat) (td : BitVec 8) (rnd : BitVec 2) (accInt rsaEn rsbEn rsAdv clear : Bool)
      (rsa rsb : Nat)
  deriving DecidableEq, Repr

/-- An issued array operation: its id, its operands and CORE_NUM_CTRL as captured at issue (R189). -/
structure ArrOp where
  id      : Nat
  kind    : ArrKind
  numCtrl : BitVec 32
  deriving DecidableEq, Repr

/-- What a weight set records of its WLOAD (R85): TB, SPARSE and HALFK. -/
structure WsetTag where
  tb     : BitVec 8
  sparse : Bool
  halfk  : Bool
  deriving DecidableEq, Repr

/-- A loaded weight set: its tag, and for B parts 0 and 1 the stored bytes, then the metadata and the scales (R85). -/
structure Wset where
  tag    : WsetTag
  part0  : List Byte
  part1  : List Byte
  metaB  : List Byte
  scales : List Byte
  deriving DecidableEq, Repr

/-- An issued vector chain (R121): its id, the 192-byte descriptor read at issue, CORE_NUM_CTRL as captured, whether it has
started, whether all its tiles have entered, and whether its summary has been written. -/
structure Chain where
  id      : Nat
  desc    : List Byte
  numCtrl : BitVec 32
  started : Bool
  sumDone : Bool
  deriving DecidableEq, Repr

/-- A fill or copy operation (R139); `spec` while a run-ahead FILL is held (R137). -/
structure FcOp where
  id      : Nat
  copy    : Bool
  dest    : Nat
  src     : Nat
  len     : Nat
  pattern : BitVec 64
  spec    : Bool
  deriving DecidableEq, Repr

/-- The kinds of transfer that join completion groups (R200), and the speculative HINT, which joins none. -/
inductive XferKind where
  | frd
  | fwr
  | mcw
  | msend
  | tsend
  | cret
  | hint
  deriving DecidableEq, Repr

/-- A packet of a transfer that awaits its answer: destination node, stream and sequence number (R254), and for a read the bytes
still to come. -/
structure Piece where
  node   : BitVec 15
  stream : BitVec 8
  seq    : BitVec 16
  bytes  : Nat
  deriving DecidableEq, Repr

/-- A transfer of the DMA and fabric engine (R197 to R202): packets not yet answered, the status so far, multicast counts, the
TCLK count at issue, and for a speculative read the SPEC bit, the held data and the packets marked for reissue (R137). -/
structure Xfer where
  id        : Nat
  kind      : XferKind
  grp       : BitVec 3
  left      : List Piece
  status    : BitVec 4
  delivered : Nat
  pruned    : Nat
  issued    : Nat
  spec      : Bool
  cancelled : Bool
  held      : List (Nat × List Byte)
  reissue   : List Packet
  packets   : List Packet
  deriving DecidableEq, Repr

/-- A control packet held at its sender: a token until the listed transfers are acknowledged (R161), a credit until the listed
operations have released their READ entries (R162). -/
structure HeldSend where
  packet : Packet
  tid    : Option Nat
  writes : List Nat
  reads  : List Nat
  deriving DecidableEq, Repr

/-- A blocked instruction: its word, the TCLK count and the waited-on count when that count last changed, and the consecutive
firings with the count unchanged (R50, R165). -/
structure Blocked where
  word  : BitVec 64
  since : Nat
  count : Nat
  fires : Nat
  deriving DecidableEq, Repr

/-- An entry of the run-ahead action log (R170): the PC, the word, its operand values, the predicted branches before it and the
issued operation. -/
structure RaEntry where
  pc       : Nat
  word     : BitVec 64
  operands : List (BitVec 64)
  branches : Nat
  opId     : Nat
  deriving DecidableEq, Repr

/-- A step of the path that run-ahead followed (R171): the PC, the PC that followed, whether it is a predicted branch that is
not resolved, and the speculative operation it issued. -/
structure RaStep where
  pc        : Nat
  next      : Nat
  predicted : Bool
  op        : Option Nat
  deriving DecidableEq, Repr

/-- A run-ahead episode that has run (R167 to R172): its action log and the path behind the wait that it followed. -/
structure RunAhead where
  log  : List RaEntry
  path : List RaStep
  deriving DecidableEq, Repr

/-! ## Core: state -/

/-- CORE_SEQ_STATUS.STATE (chapter 07). -/
inductive SeqMode where
  | halted
  | run
  | waitTok
  | waitCrd
  | waitCb
  | waitTime
  | waitOther
  | trapped
  | support
  deriving DecidableEq, Repr

/-- The sequencer of a core: the architectural state of R153 and the CORE_ sequencer registers. -/
structure CoreSeq where
  sregs    : Tab (BitVec 64)
  preds    : BitVec 8
  uregs    : Tab (BitVec 64)
  pc       : BitVec 12
  mode     : SeqMode
  blocked  : Option Blocked
  tok      : Tab (BitVec 64)
  crd      : Tab (BitVec 64)
  wdogCfg  : BitVec 32
  wdogStat : BitVec 32
  raCfg    : BitVec 32
  raStat   : BitVec 64
  ra       : Option RunAhead
  trap     : BitVec 64
  trapMore : Nat
  dbgHalted : Bool
  haltReq  : Bool
  passNum  : BitVec 32
  launchT  : BitVec 64
  armed    : Bool
  doneSent : Bool
  stopping : Bool
  deriving DecidableEq, Repr

/-- The units of a core: scoreboard, tensor array, vector engine, fill and copy unit, DMA and fabric engine. -/
structure CoreUnits where
  nextId    : Nat
  sb        : List SbEntry
  sbStalls  : BitVec 64
  arrQ      : List ArrOp
  arrMode   : Bool
  arrSteps  : BitVec 64
  arrSkips  : BitVec 64
  arrStalls : BitVec 64
  plan0     : Option WsetTag
  plan1     : Option WsetTag
  wset0     : Option Wset
  wset1     : Option Wset
  acc       : Tab (BitVec 32)
  accEcc    : BitVec 32
  accErr    : Tab (BitVec 2)
  vecQ      : List Chain
  vecTiles  : BitVec 64
  vecStalls : BitVec 64
  fcQ       : List FcOp
  grps      : Tab (BitVec 64)
  dmaCfg    : BitVec 32
  xfers     : List Xfer
  held      : List HeldSend
  seqNos    : Tab (BitVec 16)
  deriving DecidableEq, Repr

/-- The scratchpad of a core: bytes, bank ownership and power, windows, circular buffers, ECC, scrub and repair (chapter 06). -/
structure CoreSp where
  mem      : Tab Byte
  slot0    : BitVec 12
  slot1    : BitVec 12
  front    : Bool
  on       : BitVec 12
  ready    : BitVec 12
  zeroBusy : BitVec 12
  cbCfg    : Tab (BitVec 64)
  cbPtr    : Tab (BitVec 32)
  cbOvf    : BitVec 16
  winCfg   : Tab (BitVec 64)
  winFilt  : Tab (BitVec 64)
  winBytes : Tab (BitVec 32)
  winDrops : BitVec 32
  ecc      : BitVec 64
  scrub    : BitVec 32
  scrubPos : Nat
  errs     : Tab (BitVec 2)
  rowErrs  : Tab Nat
  spall    : List Nat
  spares   : Tab Nat
  repaired : List Nat
  retired  : List Nat
  deriving DecidableEq, Repr

/-- The numeric registers of a core and its 128 generators (R76, R77); generator state 0 stands for "not drawn since CORE_NUM_SEED
was written", for a generator's state is never 0 (R76). -/
structure CoreNum where
  ctrl   : BitVec 32
  status : BitVec 32
  seed   : BitVec 32
  gens   : Tab (BitVec 64)
  deriving DecidableEq, Repr

/-- Residency slot states (R236). -/
inductive SlotState where
  | empty
  | claiming
  | loading
  | ready
  | stale
  | failed
  deriving DecidableEq, Repr

/-- A residency slot of a core (R236) with the CORE_STATE payload kept for it (R235). -/
structure ResSlot where
  state  : SlotState
  ctx    : BitVec 10
  handle : BitVec 19
  bytes  : BitVec 22
  image  : List Byte
  deriving DecidableEq, Repr

/-- The mesh tables of a core: slot entries, frames, terminal masks and flows in two banks, and CORE_MESH_STAT (R225). -/
structure CoreMesh where
  slots : Tab (BitVec 32)
  frame : Tab (BitVec 32)
  term  : Tab (BitVec 32)
  flow  : Tab (BitVec 64)
  stat  : BitVec 32
  deriving DecidableEq, Repr

/-- A core: its sequencer, units, scratchpad, numeric registers, residency slots, mesh tables, instruction store (two halves),
two support regions with the one in force (R154, R420), ring arrival counters, and whether it is fenced (R50). -/
structure Core where
  seq      : CoreSeq
  units    : CoreUnits
  sp       : CoreSp
  num      : CoreNum
  res0     : ResSlot
  res1     : ResSlot
  mesh     : CoreMesh
  istore   : Tab Byte
  support  : Tab Byte
  supHalf  : Bool
  ringArr  : Tab (BitVec 64)
  fenced   : Bool
  deriving DecidableEq, Repr

/-! ## Routers and clocks -/

/-- A combine entry of a multicast (R265). -/
structure Combine where
  src       : BitVec 15
  stream    : BitVec 8
  seq       : BitVec 16
  waiting   : Nat
  delivered : Nat
  pruned    : Nat
  status    : BitVec 4
  since     : Nat
  deriving DecidableEq, Repr

/-- A ring router: the RTR_ registers, the route entries of both banks, the combine entries and the consecutive failed replays. -/
structure Router where
  ctrl    : BitVec 32
  fold    : BitVec 64
  err     : BitVec 64
  mc      : BitVec 32
  routes  : Tab (BitVec 32)
  flits   : Tab (BitVec 64)
  pkts    : Tab (BitVec 64)
  queues  : Tab (BitVec 32)
  stalls  : Tab (BitVec 64)
  links   : Tab (BitVec 32)
  fails   : Tab Nat
  combine : List Combine
  deriving DecidableEq, Repr

/-- A clock island: the CLK_ and TIME_ registers (CLK_REF_CFG as its difference from the strap value), the offset of TIME_NOW from the TCLK
count, the beacons missed in a row, the slew or hold in progress with its start (R352), the TCLK counts of the last droop, of the last DROOP
change and of the return from the safe path, whether the drain in progress is applied, and the classes that it holds. -/
structure Island where
  status   : BitVec 32
  aclk     : BitVec 64
  events   : BitVec 32
  refCfg   : BitVec 32
  timeOff  : BitVec 64
  timeStat : BitVec 32
  timePath : BitVec 32
  linkDly  : BitVec 64
  missRun  : Nat
  slew     : Int
  slewAt   : Nat
  droopAt  : Option Nat
  droopStep : Option Nat
  safeAt   : Option Nat
  applied  : Bool
  holds    : BitVec 4
  deriving DecidableEq, Repr

/-! ## Setts, sumps and galleries -/

/-- The firmware receipt of a sett controller (R420, R421): the announced version and chunk total, the good chunks held, and whether
it and its cores are complete. -/
structure FwRecv where
  version : BitVec 64
  total   : Nat
  chunks  : List (Nat × List Byte)
  deriving DecidableEq, Repr

/-- A sett site outside its cores: router, clock island, edge switch, power, sensors, BIST and controller. -/
structure Sett where
  rtr       : Router
  clk       : Island
  meshSlots : Tab (BitVec 32)
  meshFrame : Tab (BitVec 32)
  meshErr   : BitVec 32
  meshUsed  : Tab (BitVec 64)
  meshBp    : Tab (BitVec 64)
  meshFront : Bool
  meshH0    : Option (BitVec 19)
  meshH1    : Option (BitVec 19)
  meshDead  : BitVec 10
  laneFails : Tab Nat
  cap       : BitVec 32
  pwrStat   : BitVec 64
  gate      : BitVec 64
  coreReady : BitVec 64
  temps     : Tab (BitVec 32)
  therm     : BitVec 64
  guardOn   : Bool
  coolAt    : Option Nat
  disagree  : Tab Nat
  bist      : BitVec 32
  missed    : Nat
  fw        : FwRecv
  deriving DecidableEq, Repr

/-- A line of a hint buffer (R279, R280). -/
structure HintLine where
  stripe : Nat
  src    : BitVec 15
  seq    : BitVec 16
  taken  : Bool
  staged : Nat
  used   : Nat
  deriving DecidableEq, Repr

/-- A region entry that a sump zero-fills before it becomes valid (R278). -/
structure RegionFill where
  index : Nat
  entry : BitVec 64
  deriving DecidableEq, Repr

/-- A sump with its stack (chapter 12); `told` once G0 has declared the stack lost. -/
structure Sump where
  rtr      : Router
  clk      : Island
  mem      : Tab Byte
  status   : BitVec 32
  ecc      : BitVec 64
  deny     : BitVec 32
  ref      : BitVec 32
  scrub    : BitVec 32
  hintStat : BitVec 64
  hints    : List HintLine
  lost     : List Nat
  retired  : List Nat
  regions  : Tab (BitVec 64)
  fills    : List RegionFill
  errs     : Tab (BitVec 2)
  rowErrs  : Tab Nat
  spall    : List Nat
  repaired : List Nat
  scrubPos : Nat
  refreshed : Nat
  told     : Bool
  deriving DecidableEq, Repr

/-- A gallery: router, island, port link, management cores, interrupt controller and Penlet engines. -/
structure Gallery where
  rtr     : Router
  clk     : Island
  failed  : Bool
  linkUp  : Bool
  vfsOn   : Bool
  icuCtrl : BitVec 32
  icuSrc  : Tab (BitVec 32)
  claims  : Tab Nat
  levels  : List Nat
  mcStat  : Tab (BitVec 32)
  mcExpAt : Tab Nat
  penLink : Tab (BitVec 64)
  deriving DecidableEq, Repr

/-! ## Panel-wide services -/

/-- What survives every reset (R396, R408, R410, R429, R430, R435): fuses and flash. -/
structure NonVol where
  part       : BitVec 2
  lifecycle  : BitVec 2
  serial     : BitVec 64
  fleetKey   : Tab (BitVec 512)
  fleetUsed  : BitVec 4
  fleetRevoked : BitVec 4
  minSvn     : BitVec 8
  fullCount  : BitVec 32
  identCert  : Bool
  bootCfg    : BitVec 32
  image      : List Byte
  imageOk    : Bool
  mapStored  : Bool
  copiesBad  : Bool
  mapWrites  : BitVec 24
  mapCopy    : Bool
  deadSites  : List Nat
  deadCores  : List Nat
  deadLanes  : List (Nat × Nat)
  deadLinks  : List (Node × Nat)
  spRetired  : List (Nat × Nat)
  hbmRetired : List (Nat × Nat)
  hbmSpall   : List (Nat × Nat)
  lastReady  : Bool
  quickRuns  : Nat
  stdVersion : BitVec 64
  clearLists : Bool
  deriving DecidableEq, Repr

/-- The sideband pins of R468 that carry state. -/
structure Pins where
  panelResetN : Bool
  rimGood     : Bool
  thermtrip   : Bool
  deriving DecidableEq, Repr

/-- A confirmed failure or return that the next map change applies (R20). -/
inductive MapItem where
  | deadSite (s : Nat)
  | deadCore (p : Nat)
  | deadLane (s : Nat) (lane : Nat)
  | deadLink (n : Node) (port : Nat)
  | meadowDark (m : Nat)
  | meadowLit (m : Nat)
  | darkRow (s : Nat) (row : Nat)
  deriving DecidableEq, Repr

/-- The structural map in force: per row the published GAL_ROW_SHAPE image, per core row the unused mask and whether it is dark, the dead
lanes of the mesh, GAL_SHAPE_GEN, and the changes that wait. -/
structure StructMap where
  rowShape  : Tab (BitVec 32)
  coreMask  : Tab (BitVec 9)
  darkRows  : List Nat
  deadLanes : List (Nat × Nat)
  gen       : BitVec 32
  waiting   : List MapItem
  published : Bool
  deriving DecidableEq, Repr

/-- Bring-up (chapter 18): GAL_BOOT_STATUS, GAL_DEFECT_SUM and GAL_MAP_STORE.MAP_LOST, the TCLK count at rim power good, the soak groups done,
whether the panel is under reset or waits in recovery, with the recovery registers of R418, and what the tests of the present bench have found:
map changes, and scratchpad rows as (core, 256 × bank + row). -/
structure Boot where
  status   : BitVec 64
  started  : Nat
  soakDone : Nat
  soaking  : Bool
  running  : Bool
  recovery : Bool
  recAddr  : BitVec 64
  recCtrl  : BitVec 32
  mapLost  : Bool
  resetAt  : Option Nat
  found    : List MapItem
  spFound  : List (Nat × Nat)
  deriving DecidableEq, Repr

/-- The pass state of the ledger. -/
inductive LedgerState where
  | idle
  | launching
  | running
  | quiescing
  | ended
  deriving DecidableEq, Repr

/-- The recorded outcome of a pass (R42). -/
inductive PassOutcome where
  | none
  | completed
  | aborted
  deriving DecidableEq, Repr

/-- A queued pass (R326): its command, what it captured at fetch, and whether it continues a chain. -/
structure QPass where
  cmd    : Cmd
  ctx    : BitVec 10
  handle : BitVec 19
  timed  : Bool
  flip   : Bool
  chain  : Bool
  tAuto  : Bool
  t      : BitVec 64
  params : BitVec 512
  deriving DecidableEq, Repr

/-- The pass ledger of G0 (chapter 02). -/
structure Ledger where
  state     : LedgerState
  passNum   : BitVec 32
  outcome   : PassOutcome
  abortLate : Bool
  lateStart : Bool
  reason    : BitVec 8
  timed     : Bool
  flip      : Bool
  lateCount : BitVec 14
  expect    : BitVec 15
  doneSet   : List Nat
  lost      : List Nat
  firstLost : BitVec 14
  lostList  : List (BitVec 32)
  lateAborts : BitVec 16
  strayDone : BitVec 16
  tLaunch   : BitVec 64
  tOutcome  : BitVec 64
  abortAt   : Nat
  parts     : List Nat
  acked     : List Nat
  pruned    : List Nat
  pass      : Option QPass
  limitMs   : BitVec 16
  pickT     : BitVec 64
  deriving DecidableEq, Repr

/-- A pass that the scheduler has picked and that waits for its load, its cores or a standalone flip (R34, R242, R380). -/
structure Picked where
  pass    : QPass
  pickedT : BitVec 64
  flipT   : Option (BitVec 64)
  flipAt  : Nat
  deriving DecidableEq, Repr

/-- The scheduler of G0 (R46 to R49): the queued passes in order of fetch, the picked pass, the last outcome time, what each submission queue's
chain has come to (true when cancelled), and whether launches are held by a firmware activation or an unlock. -/
structure Sched where
  queue    : List QPass
  picked   : Option Picked
  chosen   : Option (BitVec 19)
  lastOut  : BitVec 64
  chains   : List (Src × Bool)
  launches : Nat
  held     : Bool
  deriving DecidableEq, Repr

/-- An event record that waits for its queue (R314, R335). -/
structure EventRec where
  code   : BitVec 8
  result : BitVec 32
  dataA  : BitVec 64
  lost   : Bool
  deriving DecidableEq, Repr

/-- A region of a context (R275). -/
structure Region where
  base : BitVec 48
  size : Nat
  rd   : Bool
  wr   : Bool
  deriving DecidableEq, Repr

/-- A context (R302 to R306, R324). -/
structure Ctx where
  closing  : Bool
  home     : Nat
  bound    : List Nat
  weight   : BitVec 8
  limitMs  : BitVec 16
  deficit  : Int
  jobId    : BitVec 64
  cookie   : BitVec 64
  evq      : Option Nat
  events   : List EventRec
  reserve  : List EventRec
  regions  : List Region
  hint     : Option (BitVec 19)
  pin      : Option (BitVec 19)
  pinAt    : Nat
  invalid  : Bool
  digest   : BitVec 48
  slots    : BitVec 16
  shadowOn : Bool
  launched : Nat
  rrLast   : Option Nat
  closers  : List Cmd
  handoff  : Bool
  deriving DecidableEq, Repr

/-- A directory entry (R230), with what a load has learnt from the records (R234): the participating cores, the lane pairs of the edge
switches (logical sett, direction) and the on-die joins (logical core, port) that the slot tables use. WHERE is computed from the slots. -/
structure DirEntry where
  valid   : Bool
  invalid : Bool
  pinned  : Bool
  ctx     : BitVec 10
  img     : BitVec 48
  gen     : BitVec 32
  banks   : BitVec 12
  ncores  : BitVec 15
  setts   : BitVec 256
  meshSet : BitVec 256
  param   : BitVec 32
  cores   : List Nat
  pairs   : List (Nat × Nat)
  joins   : List (Nat × Nat)
  deriving DecidableEq, Repr

/-- A load that waits in the fill queue: the entry, whether the source is the host (with its bus address and header address), the commands it
answers, and whether the scheduler asked for it (R239). -/
structure LoadReq where
  handle : BitVec 19
  host   : Option (BitVec 48)
  cmds   : List Cmd
  sched  : Bool
  deriving DecidableEq, Repr

/-- The load in progress (R237): the header as read at its start, the cores (logical, physical) and edge switches (sett, site) of the map
then in force, per segment the offset reached and for a host load the bytes landed, the segments done, the cores, lane pairs and joins
that the records named, the cores each segment reached, the status so far, whether a map change touches it, and the bytes delivered. -/
structure Load where
  req      : LoadReq
  header   : List Byte
  cores    : List (Nat × Nat)
  sites    : List (Nat × Nat)
  offs     : Tab Nat
  landed   : Tab Nat
  done     : List Nat
  named    : List Nat
  pairs    : List (Nat × Nat)
  joins    : List (Nat × Nat)
  reached  : Tab (List Nat)
  status   : BitVec 8
  touched  : Bool
  bytes    : Nat
  deriving DecidableEq, Repr

/-- The fill queue of G0 and the residency counters (R239, GAL_RES_FILL, GAL_RES_COUNTS). -/
structure Fill where
  queue     : List LoadReq
  running   : Option Load
  lastSrc   : Bool
  lastHandle : BitVec 19
  rowsDone  : BitVec 16
  ready     : BitVec 15
  bytes     : BitVec 64
  fills     : BitVec 32
  failed    : BitVec 16
  standalone : BitVec 16
  deriving DecidableEq, Repr

/-- The drain in progress (R260): GAL_DRAIN and GAL_DRAIN_RPT, the TCLK count of the hold, consecutive empty censuses, the step reached, the
commands that wait for it, and the packets that the hold keeps back at their sources. -/
structure Drain where
  reg    : BitVec 64
  rpt    : BitVec 64
  heldAt : Nat
  empty  : Nat
  steps  : Nat
  cmds   : List Cmd
  kept   : List Packet
  deriving DecidableEq, Repr

/-- G0's time service (R349, R355): TIME_CTRL, TIME_STEP_VALUE, and whether the span has requested a step. -/
structure TimeSvc where
  ctrl    : BitVec 64
  stepVal : BitVec 64
  stepping : Bool
  deriving DecidableEq, Repr

/-- A meadow's in-rush request (R376, R378): the meadow and the command that asked, none at bring-up. -/
structure InrushReq where
  meadow   : Nat
  cmd      : Option Cmd
  deferred : Bool
  since    : Nat
  deriving DecidableEq, Repr

/-- A MEADOW_POWER command in progress (R330, R377): the meadows it still works on, those left dark, and whether it is an off request. -/
structure MeadowJob where
  cmd    : Cmd
  on     : Bool
  todo   : List Nat
  dark   : BitVec 8
  deriving DecidableEq, Repr

/-- The power manager (chapter 16): PWR_PANEL, PWR_MEADOW_m and PWR_FEED_n, the in-rush requests in arrival order, the turn-on phases, the
commands in progress, SHORT openings with their times, the connectors' measuring state, the meadows whose tests run after a turn-on with their
step of R399, and whether the drain of a planned power-down has been started. -/
structure Power where
  panel    : BitVec 64
  meadow   : Tab (BitVec 64)
  feed     : Tab (BitVec 64)
  requests : List InrushReq
  phase    : Tab Nat
  turnOff  : List Nat
  jobs     : List MeadowJob
  shortAt  : Tab Nat
  planeMv  : Tab Nat
  feedSum  : Tab (List Nat)
  highAt   : Tab Nat
  lastEst  : Tab Nat
  lastCur  : Tab Nat
  safeCa   : Tab Nat
  tests    : List (Nat × Nat)
  draining : Bool
  deriving DecidableEq, Repr

/-- The thermal manager (chapter 17): GAL_COOLANT, GAL_THERM_CFG and GAL_THERM_STATUS, low reads and failed reads in a row, the outlet
readings of the last 100 ms, and the TCLK counts that time the conditions. -/
structure Thermal where
  coolant  : BitVec 64
  cfg      : BitVec 32
  status   : BitVec 64
  lowRun   : Nat
  badRun   : Nat
  outlets  : List (BitVec 16)
  slowAt   : Option Nat
  goodAt   : Option Nat
  flowEvAt : Option Nat
  lostAt   : Nat
  ratedAt  : Option Nat
  deriving DecidableEq, Repr

/-- Firmware and its update (chapter 19): GAL_FW_STATE, the running image's VERSION, GAL_FW_ACT, the staged image, the command, ACT_TIME, the
flash attempts, T_act, the sites that receive the image, whether repair has ended, and the TCLK count at the start. -/
structure Fw where
  state    : BitVec 64
  version  : BitVec 64
  svn      : BitVec 32
  act      : BitVec 64
  newImage : List Byte
  cmd      : Option Cmd
  actTime  : BitVec 64
  tries    : Nat
  tAct     : Option (BitVec 64)
  running  : List Byte
  restarting : Bool
  sites    : List Nat
  repaired : Bool
  startAt  : Nat
  deriving DecidableEq, Repr

/-- Security (chapter 20): the debug level, FULL_SINCE_RESET, the fleet slots verified at boot, the SEC_AUTH registers with the nonce's age, and
the TAP's current instruction. -/
structure Sec where
  level    : BitVec 2
  fullSince : Bool
  slotsOk  : BitVec 4
  authCtrl : BitVec 32
  nonce    : BitVec 256
  nonceAt  : Nat
  arg      : BitVec 512
  sig      : BitVec 512
  tap      : BitVec 8
  aperture : BitVec 64
  deriving DecidableEq, Repr

/-- A STATE_COPY in progress (R462): its command and parameters, the regions (base and size) that it moves, the bytes sent, the bytes that
have landed and been acknowledged, the frames sent and not acknowledged, the TCLK count of its last progress, and whether the summary is sent. -/
structure CopyJob where
  cmd     : Cmd
  ctx     : BitVec 10
  recv    : Bool
  peer    : Nat
  session : BitVec 64
  paired  : Bool
  regions : List (Nat × Nat)
  off     : Nat
  moved   : Nat
  unacked : List (BitVec 16 × Nat)
  since   : Nat
  sent    : Bool
  deriving DecidableEq, Repr

/-- A handoff entry in progress (R456, R457): its context, the pass number, the 64 bytes of the entry, whether it has been sent, the
acknowledgements still awaited, whether one reported a failure, and the TCLK count of its start. -/
structure HandoffJob where
  id      : Nat
  ctx     : BitVec 10
  pass    : BitVec 32
  entry   : List Byte
  started : Bool
  left    : Nat
  failed  : Bool
  since   : Nat
  deriving DecidableEq, Repr

/-- A frame that leaves on a Penlet engine (R448 to R455). -/
inductive PenFrame where
  | data (f : Prefix) (k : Packet)
  | heartbeat (f : HeartbeatFrame)
  | time (t : BitVec 64) (agePs : Nat)
  | ident (f : IdentFrame)
  | roster (f : RosterFrame)
  deriving DecidableEq, Repr

/-- A request of a peer panel that has entered the ring fabric and awaits its answer (R452): stream, sequence number, and the frame's prefix. -/
structure Inbound where
  stream : BitVec 8
  seq    : BitVec 16
  frame  : Prefix
  deriving DecidableEq, Repr

/-- The job epoch and fence of one JOB_ID (R459). -/
structure JobEpoch where
  epoch  : BitVec 64
  fenced : Bool
  deriving DecidableEq, Repr

/-- The span (chapter 21): the PEN_ registers of G0, the pending span record, the roster, epochs, heartbeats seen, copies, handoffs with
those due after a COMPLETED pass, requests of peers under way, frames sent, per engine and member the hops of its heartbeats, the panels that
have claimed the lead, and whether the first step to span time has been applied since the panel joined. -/
structure Span where
  reg      : BitVec 64
  hbCfg    : BitVec 32
  stat     : BitVec 64
  routes   : Tab (BitVec 32)
  peers    : Tab (BitVec 64)
  record   : SpanRecord
  waiting  : Option SpanRecord
  roster   : List (Nat × BitVec 64)
  rosterJobs : List (BitVec 64 × BitVec 64)
  hbCount  : BitVec 32
  hbSeen   : List (Nat × BitVec 32)
  hbAt     : Tab Nat
  timeAt   : Nat
  jobs     : List (BitVec 64 × JobEpoch)
  panelEpoch : JobEpoch
  copies   : List CopyJob
  handoffs : List HandoffJob
  due      : List (BitVec 10 × BitVec 19 × BitVec 32)
  nextId   : Nat
  inbound  : List Inbound
  out      : List (Nat × PenFrame)
  hops     : Tab Nat
  leads    : List Nat
  joined   : Bool
  deriving DecidableEq, Repr

/-- The PCIe side of one function (R293 to R298), by 64 × port + VF. -/
structure Fn where
  aqCfg   : BitVec 32
  asqBase : BitVec 64
  acqBase : BitVec 64
  err     : BitVec 32
  d3hot   : Bool
  maxCtx  : BitVec 16
  maxQp   : BitVec 16
  mask    : Tab Bool
  pendBit : Tab Bool
  msgAddr : Tab (BitVec 64)
  msgData : Tab (BitVec 32)
  fnMask  : Bool
  events  : List EventRec
  reserve : List EventRec
  deriving DecidableEq, Repr

/-- A completion or event record (R321) before its place in a queue is known. -/
structure Rec where
  tag    : BitVec 32
  status : BitVec 8
  reason : BitVec 8
  flags  : BitVec 8
  opcode : BitVec 8
  result : BitVec 32
  dataA  : BitVec 64
  dataB  : BitVec 64
  deriving DecidableEq, Repr

/-- A queue pair (R307 to R311, R315), by 1,024 × function + index. -/
structure Qp where
  ctx     : BitVec 10
  sqBase  : BitVec 48
  cqBase  : BitVec 48
  sqDepth : Nat
  cqDepth : Nat
  sqHead  : Nat
  sqTail  : Nat
  cqHead  : Nat
  cqTail  : Nat
  phase   : Bool
  vector  : Nat
  ien     : Bool
  thresh  : BitVec 8
  time    : BitVec 8
  unsig   : Nat
  unsigAt : Nat
  error   : Bool
  reserved : Nat
  deleting : Bool
  due     : List Rec
  deleter : List Cmd
  deriving DecidableEq, Repr

/-- A host-memory request whose completion is awaited (R300): the request packet and the port. -/
structure HostReq where
  id     : Nat
  port   : Nat
  packet : Packet
  deriving DecidableEq, Repr

/-- A record that waits until zero-byte reads through the ports that carried its command's writes have completed (R301): the request ids still
awaited, the command and its record. -/
structure Flush where
  ids : List (Nat × Nat)
  cmd : Cmd
  answer : Rec
  deriving DecidableEq, Repr

/-- What leaves the panel towards a host: a posted write of a function, or an MSI-X message. -/
inductive HostOut where
  | write (port : Nat) (vf : Nat) (addr : BitVec 48) (data : List Byte)
  | readReq (port : Nat) (vf : Nat) (addr : BitVec 48) (len : Nat)
  | flush (port : Nat) (vf : Nat)
  | msix (port : Nat) (vf : Nat) (vector : Nat)
  deriving DecidableEq, Repr

/-- An SPDM answer (R443). -/
inductive SpdmAns where
  | version
  | capabilities
  | algorithms
  | digests (d : BitVec 256)
  | certificate (portion : List Byte)
  | challengeAuth (nonce : BitVec 256) (sig : BitVec 512)
  | measurements (blocks : List (Nat × List Byte)) (nonce : BitVec 256) (sig : BitVec 512)
  | busy
  | unsupported
  deriving DecidableEq, Repr

/-- What leaves the MCTP endpoint (R317). -/
inductive MctpOut where
  | control (body : List Byte)
  | spdm (a : SpdmAns)
  | record (r : Rec)
  deriving DecidableEq, Repr

/-- An entry of the recovery log (R336): the pair, the command, and its final record once it exists. -/
structure RecEntry where
  epoch  : BitVec 32
  step   : BitVec 32
  cmd    : Cmd
  final  : Option Rec
  waiters : List Cmd
  deriving DecidableEq, Repr

/-- A mesh message on its way (R219, R222): the source core, its transfer and group, the flow and its destination, the offset, the payload and the pass tag. -/
structure MeshMsg where
  id     : Nat
  src    : Nat
  tid    : Nat
  grp    : Nat
  flow   : Nat
  dest   : BitVec 14
  off    : Nat
  tag    : BitVec 4
  data   : List Byte
  deriving DecidableEq, Repr

/-- What the last access of a register path gave back: the fabric status and the bytes (APERTURE_ACCESS, SEC_ACCESS, TAP, ICU_CLAIM). -/
structure Access where
  status : BitVec 4
  data   : List Byte
  deriving DecidableEq, Repr

/-- An ABORT command that is answered once its target's record has been posted (R329), with its RESULT. -/
structure AbortWait where
  target : Cmd
  cmd    : Cmd
  result : Nat
  deriving DecidableEq, Repr

/-- The hosts' side: functions, queue pairs, commands in progress and those of them not yet carried out, requests, recovery log, everything
sent, copies under way with the bytes copied, records that wait for their flush, ABORT commands
that wait for their target's record, and the next request id. -/
structure HostSide where
  fns     : Tab Fn
  qps     : Tab (Option Qp)
  inProg  : List Cmd
  toDo    : List Cmd
  reqs    : List HostReq
  out     : List HostOut
  mctp    : List MctpOut
  eid     : Option (BitVec 8)
  recLog  : List RecEntry
  recEpoch : BitVec 32
  memCopies : List (Cmd × Nat)
  flushes : List Flush
  aborts  : List AbortWait
  nextReq : Nat
  deriving DecidableEq, Repr

/-! ## Reset values of the parts -/

/-- A residency slot after reset. -/
def ResSlot.reset : ResSlot := { state := .empty, ctx := 0, handle := 0, bytes := 0, image := [] }

/-- A sequencer after reset. -/
def CoreSeq.reset : CoreSeq :=
  { sregs := [], preds := 1, uregs := [], pc := 0, mode := .halted, blocked := none, tok := [], crd := [],
    wdogCfg := 0x80000032, wdogStat := 0, raCfg := 0x80000040, raStat := 0, ra := none, trap := 0, trapMore := 0,
    dbgHalted := false, haltReq := false, passNum := 0, launchT := 0, armed := false, doneSent := false, stopping := false }

/-- The units of a core after reset. -/
def CoreUnits.reset : CoreUnits :=
  { nextId := 0, sb := [], sbStalls := 0, arrQ := [], arrMode := false, arrSteps := 0, arrSkips := 0, arrStalls := 0,
    plan0 := none, plan1 := none, wset0 := none, wset1 := none, acc := [], accEcc := 0, accErr := [], vecQ := [], vecTiles := 0,
    vecStalls := 0, fcQ := [], grps := [], dmaCfg := 0xC8, xfers := [], held := [], seqNos := [] }

/-- A scratchpad after reset. -/
def CoreSp.reset : CoreSp :=
  { mem := [], slot0 := 0, slot1 := 0, front := false, on := 0, ready := 0, zeroBusy := 0, cbCfg := [], cbPtr := [], cbOvf := 0,
    winCfg := [], winFilt := [], winBytes := [], winDrops := 0, ecc := 0, scrub := 0x80010000, scrubPos := 0, errs := [],
    rowErrs := [], spall := [], spares := [], repaired := [], retired := [] }

/-- A core after reset. -/
def Core.reset : Core :=
  { seq := .reset, units := .reset, sp := .reset, num := { ctrl := 0, status := 0, seed := 0, gens := [] }, res0 := .reset,
    res1 := .reset, mesh := { slots := [], frame := [], term := [], flow := [], stat := 0 }, istore := [], support := [],
    supHalf := false, ringArr := [], fenced := false }

/-- A router after reset. -/
def Router.reset : Router :=
  { ctrl := 0x100, fold := 0, err := 0, mc := 0x00960000, routes := [], flits := [], pkts := [], queues := [], stalls := [],
    links := [], fails := [], combine := [] }

/-- A clock island after reset, with its CLK_ACLK image. -/
def Island.reset (aclk : BitVec 64) : Island :=
  { status := 0, aclk := aclk, events := 0, refCfg := 0, timeOff := 0, timeStat := 0, timePath := 0, linkDly := 0, missRun := 0, slew := 0,
    slewAt := 0, droopAt := none, droopStep := none, safeAt := none, applied := false, holds := 0 }

/-- CLK_ACLK after reset for a variant's FUSE_MAX code (R345, CLK_ACLK). -/
def aclkReset (part : BitVec 2) : BitVec 64 :=
  if part = 0 then 0x204020207F080000 else if part = 1 then 0x203820207F080000 else 0x203020207F080000

/-- A sett after reset. -/
def Sett.reset (part : BitVec 2) : Sett :=
  { rtr := .reset, clk := .reset (aclkReset part), meshSlots := [], meshFrame := [], meshErr := 0, meshUsed := [], meshBp := [],
    meshFront := false, meshH0 := none, meshH1 := none, meshDead := 0, laneFails := [], cap := 0x007F044C, pwrStat := 0,
    gate := 0xFFFFFFFFFFFFFFFF, coreReady := 0, temps := [], therm := 0, guardOn := false, coolAt := none, disagree := [], bist := 0, missed := 0,
    fw := { version := 0, total := 0, chunks := [] } }

/-- A sump after reset. -/
def Sump.reset : Sump :=
  { rtr := .reset, clk := .reset 0, mem := [], status := 0, ecc := 0, deny := 0, ref := 0, scrub := 0x800128E0, hintStat := 0,
    hints := [], lost := [], retired := [], regions := [], fills := [], errs := [], rowErrs := [], spall := [], repaired := [],
    scrubPos := 0, refreshed := 0, told := false }

/-- A gallery after reset. -/
def Gallery.reset : Gallery :=
  { rtr := .reset, clk := .reset 0, failed := false, linkUp := false, vfsOn := false, icuCtrl := 0x80000000, icuSrc := [],
    claims := [], levels := [], mcStat := [], mcExpAt := [], penLink := [] }

/-- A function after reset. -/
def Fn.reset : Fn :=
  { aqCfg := 0, asqBase := 0, acqBase := 0, err := 0, d3hot := false, maxCtx := 0, maxQp := 0, mask := [], pendBit := [],
    msgAddr := [], msgData := [], fnMask := false, events := [], reserve := [] }

/-- A ledger after reset: IDLE, no pass yet. -/
def Ledger.reset : Ledger :=
  { state := .idle, passNum := 0, outcome := .none, abortLate := false, lateStart := false, reason := 0, timed := false,
    flip := false, lateCount := 0, expect := 0, doneSet := [], lost := [], firstLost := 0, lostList := [],
    lateAborts := 0, strayDone := 0, tLaunch := 0, tOutcome := 0, abortAt := 0, parts := [], acked := [], pruned := [],
    pass := none, limitMs := 0, pickT := 0 }

/-- PWR_PANEL after reset for a variant (R410). -/
def panelReset0 (part : BitVec 2) : BitVec 64 :=
  if part = 0 then 0x00000A8C00001400 else if part = 1 then 0x0000089800001400 else 0x000006A400001400

/-! ## The panel -/

/-- Raised by no command: every error of this hardware is a status, a trap, an event or an abort that the state records, so the type has no
constructor. -/
inductive Fault where
  deriving DecidableEq, Repr

/-- Why a command has no meaning in the model. -/
inductive Refusal where
  /-- Raised by the dispatch for a command whose meaning is not written yet. Safe: nothing can be proved about it. -/
  | notModelled (mnemonic : String)
  deriving DecidableEq, Repr

/-- The whole panel. `tclk` counts TCLK cycles since reset (R349, R355); `free` numbers the free values drawn so far (the model's own). -/
structure State where
  pending : List Instr
  tclk    : Nat
  free    : Nat
  nv      : NonVol
  pins    : Pins
  map     : StructMap
  boot    : Boot
  cores   : Tab Core
  setts   : Tab Sett
  sumps   : Tab Sump
  gals    : Tab Gallery
  flight  : List Packet
  mesh    : List MeshMsg
  ledger  : Ledger
  sched   : Sched
  ctxs    : Tab (Option Ctx)
  dir     : Tab DirEntry
  fill    : Fill
  drain   : Drain
  timeSvc : TimeSvc
  power   : Power
  thermal : Thermal
  fw      : Fw
  sec     : Sec
  span    : Span
  host    : HostSide
  alert   : BitVec 32
  access  : Access
  deriving DecidableEq, Repr

/-- An unregistered directory entry. -/
def DirEntry.reset : DirEntry :=
  { valid := false, invalid := false, pinned := false, ctx := 0, img := 0, gen := 0, banks := 0, ncores := 0,
    setts := 0, meshSet := 0, param := 0, cores := [], pairs := [], joins := [] }

/-- The non-volatile state of the panel that the model starts from: ordering code FVU-256A-P (R476) before its first start. -/
def NonVol.shipped : NonVol :=
  { part := 0, lifecycle := 1, serial := 0, fleetKey := [], fleetUsed := 0, fleetRevoked := 0, minSvn := 0, fullCount := 0,
    identCert := true, bootCfg := 0x10, image := [], imageOk := true, mapStored := false, copiesBad := false, mapWrites := 0,
    mapCopy := false, deadSites := [], deadCores := [], deadLanes := [], deadLinks := [], spRetired := [], hbmRetired := [], hbmSpall := [],
    lastReady := true, quickRuns := 0, stdVersion := 0, clearLists := false }

/-- The panel right after a reset, for the non-volatile state that the reset keeps (R396). -/
def State.resetWith (nv : NonVol) : State :=
  { pending := [], tclk := 0, free := 0, nv := nv,
    pins := { panelResetN := true, rimGood := true, thermtrip := false },
    map := { rowShape := [], coreMask := [], darkRows := [], deadLanes := nv.deadLanes, gen := 0, waiting := [], published := false },
    boot := { status := 0, started := 0, soakDone := 0, soaking := false, running := true, recovery := false, recAddr := 0,
              recCtrl := 0, mapLost := false, resetAt := none, found := [], spFound := [] },
    cores := [], setts := [], sumps := [], gals := [], flight := [], mesh := [], ledger := .reset,
    sched := { queue := [], picked := none, chosen := none, lastOut := 0, chains := [], launches := 0, held := false },
    ctxs := [], dir := [],
    fill := { queue := [], running := none, lastSrc := false, lastHandle := 0, rowsDone := 0, ready := 0, bytes := 0, fills := 0,
              failed := 0, standalone := 0 },
    drain := { reg := 0x3E8, rpt := 0, heldAt := 0, empty := 0, steps := 0, cmds := [], kept := [] },
    timeSvc := { ctrl := 0, stepVal := 0, stepping := false },
    power := { panel := panelReset0 nv.part, meadow := [], feed := [], requests := [], phase := [], turnOff := [], jobs := [],
               shortAt := [], planeMv := [], feedSum := [], highAt := [], lastEst := [], lastCur := [], safeCa := [],
               tests := [], draining := false },
    thermal := { coolant := 0, cfg := 0x141E0190, status := 0, lowRun := 0, badRun := 0, outlets := [], slowAt := none,
                 goodAt := none, flowEvAt := none, lostAt := 0, ratedAt := none },
    fw := { state := 0, version := 0, svn := 0, act := 0, newImage := [], cmd := none, actTime := 0, tries := 0, tAct := none,
            running := nv.image, restarting := false,
            sites := [], repaired := false, startAt := 0 },
    sec := { level := if nv.lifecycle = 0 then 2 else 0, fullSince := false, slotsOk := nv.fleetUsed &&& ~~~nv.fleetRevoked,
             authCtrl := 0, nonce := 0, nonceAt := 0, arg := 0, sig := 0, tap := 0, aperture := 0 },
    span := { reg := 0, hbCfg := 0x00640003, stat := 0, routes := [], peers := [], record := { spanId := 0, index := 0, lead := false },
              waiting := none, roster := [], rosterJobs := [], hbCount := 0, hbSeen := [], hbAt := [], timeAt := 0, jobs := [],
              panelEpoch := { epoch := 0, fenced := false }, copies := [], handoffs := [], due := [], nextId := 0, inbound := [], out := [], hops := [], leads := [], joined := false },
    host := { fns := [], qps := [], inProg := [], toDo := [], reqs := [], out := [], mctp := [], eid := none, recLog := [], recEpoch := 0,
              memCopies := [], flushes := [], aborts := [], nextReq := 0 },
    alert := 0x01FF0000, access := { status := 0, data := [] } }

/-- The panel right after its first reset. -/
def State.reset : State := State.resetWith NonVol.shipped

end Sys2Proof.Machine
end

