-- ==== Sys2Proof/Machine/Ops.lean ====
section
/-! DEFINITION. The named operations over the state: reading and writing one unit, the structural map, panel time, node ids. -/

namespace Sys2Proof.Machine

/-! ### Units -/

/-- Core number `p` (R25). -/
def State.core (s : State) (p : Nat) : Core := Tab.get Core.reset s.cores p

/-- The state with core `p` replaced. -/
def State.setCore (s : State) (p : Nat) (c : Core) : State := { s with cores := Tab.set Core.reset s.cores p c }

/-- The state with core `p` changed by `f`. -/
def State.modCore (s : State) (p : Nat) (f : Core → Core) : State := s.setCore p (f (s.core p))

/-- What a sett that nothing has changed reads as: the reset image of its variant. -/
def State.settDefault (s : State) : Sett := Sett.reset s.nv.part

/-- Sett site number `i`. -/
def State.sett (s : State) (i : Nat) : Sett := Tab.get s.settDefault s.setts i

/-- The state with a sett replaced. -/
def State.setSett (s : State) (i : Nat) (x : Sett) : State := { s with setts := Tab.set s.settDefault s.setts i x }

/-- The state with a sett changed by `f`. -/
def State.modSett (s : State) (i : Nat) (f : Sett → Sett) : State := s.setSett i (f (s.sett i))

/-- Sump number `i` (R10). -/
def State.sump (s : State) (i : Nat) : Sump := Tab.get Sump.reset s.sumps i

/-- The state with a sump replaced. -/
def State.setSump (s : State) (i : Nat) (x : Sump) : State := { s with sumps := Tab.set Sump.reset s.sumps i x }

/-- The state with a sump changed by `f`. -/
def State.modSump (s : State) (i : Nat) (f : Sump → Sump) : State := s.setSump i (f (s.sump i))

/-- Gallery number `i`. -/
def State.gal (s : State) (i : Nat) : Gallery := Tab.get Gallery.reset s.gals i

/-- The state with a gallery replaced. -/
def State.setGal (s : State) (i : Nat) (x : Gallery) : State := { s with gals := Tab.set Gallery.reset s.gals i x }

/-- The state with a gallery changed by `f`. -/
def State.modGal (s : State) (i : Nat) (f : Gallery → Gallery) : State := s.setGal i (f (s.gal i))

/-- The router of a node. -/
def State.router (s : State) : Node → Router
  | .sett i => (s.sett i.val).rtr
  | .sump i => (s.sump i.val).rtr
  | .gal i => (s.gal i.val).rtr

/-- The state with a node's router changed. -/
def State.modRouter (s : State) (n : Node) (f : Router → Router) : State :=
  match n with
  | .sett i => s.modSett i.val fun x => { x with rtr := f x.rtr }
  | .sump i => s.modSump i.val fun x => { x with rtr := f x.rtr }
  | .gal i => s.modGal i.val fun x => { x with rtr := f x.rtr }

/-- The clock island of a node. -/
def State.island (s : State) : Node → Island
  | .sett i => (s.sett i.val).clk
  | .sump i => (s.sump i.val).clk
  | .gal i => (s.gal i.val).clk

/-- The state with a node's island changed. -/
def State.modIsland (s : State) (n : Node) (f : Island → Island) : State :=
  match n with
  | .sett i => s.modSett i.val fun x => { x with clk := f x.clk }
  | .sump i => s.modSump i.val fun x => { x with clk := f x.clk }
  | .gal i => s.modGal i.val fun x => { x with clk := f x.clk }

/-- `dt` TCLK cycles pass. -/
def State.pass (s : State) (dt : Nat) : State := { s with tclk := s.tclk + dt }

/-- The island of a source node id (R248); a core's site comes from the structural map. -/
def srcNode (site : Nat → Option Nat) (src : BitVec 15) : Node :=
  if src.toNat < 0x4000 then .sett (Fin.ofNat 272 ((site (src.toNat / 64)).getD 0))
  else if src.toNat < 0x5000 then .sump (Fin.ofNat 32 src.toNat)
  else if src.toNat < 0x6000 then .gal (Fin.ofNat 4 src.toNat)
  else if src.toNat < 0x7000 then .sett (Fin.ofNat 272 (src.toNat % 512))
  else .gal (Fin.ofNat 4 src.toNat)

/-- Whether a packet only answers an earlier one: it is never held back at its source (R260). -/
def isReply (k : Packet) : Bool := k.opc = 2 || k.opc = 4

/-- A packet is taken from the fabric as it is delivered. -/
def State.take (s : State) (k : Packet) : State := { s with flight := s.flight.erase k }

/-- The next free value of the device (log entry 13). -/
def State.fresh (s : State) : BitVec 256 × State := (Config.fresh s.free, { s with free := s.free + 1 })

/-! ### Sites, the structural map and addresses of cores -/

/-- The site of a core. -/
def siteOf (p : Nat) : Nat := p / 72

/-- Physical core row of a core in its sett. -/
def rowOf (p : Nat) : Nat := p % 72 / 9

/-- Physical core column of a core in its sett. -/
def colOf (p : Nat) : Nat := p % 9

/-- The site's island. -/
def settNode (i : Nat) : Node := .sett (Fin.ofNat 272 i)

/-- The published shape image of row r (GAL_ROW_SHAPE_r). -/
def State.rowShape (s : State) (r : Nat) : BitVec 32 := Tab.get 0 s.map.rowShape r

/-- Whether row r is present (R16). -/
def State.rowPresent (s : State) (r : Nat) : Bool := bit (s.rowShape r) 31

/-- Logical columns of row r. -/
def State.lcols (s : State) (r : Nat) : Nat := fld (s.rowShape r) 28 24

/-- The physical columns of a row that are not in its unused mask, from west to east (R15). -/
def State.liveCols (s : State) (r : Nat) : List Nat :=
  ((List.range 17).filter fun c => !bit (s.rowShape r) c).take (s.lcols r)

/-- The site of a logical sett id, if it exists in the current shape (R15, R16). -/
def State.siteOfSett (s : State) (sid : Nat) : Option Nat :=
  if s.rowPresent (sid / 16) then (s.liveCols (sid / 16))[sid % 16]?.map fun c => 17 * (sid / 16) + c else none

/-- The logical sett id at a site, if there is one. -/
def State.settAt (s : State) (site : Nat) : Option Nat :=
  if s.rowPresent (site / 17) && (s.liveCols (site / 17)).contains (site % 17) then
    some (16 * (site / 17) + (s.liveCols (site / 17)).idxOf (site % 17))
  else none

/-- The unused mask of core row i of a site (R18); bit 8 alone when no core of the row is dead. -/
def State.coreMask (s : State) (site i : Nat) : BitVec 9 := Tab.get 0x100 s.map.coreMask (8 * site + i)

/-- The physical core columns that hold the logical cores of a core row (R18); none in a dark row (R375). -/
def State.liveCores (s : State) (site i : Nat) : List Nat :=
  if s.map.darkRows.contains (8 * site + i) then []
  else ((List.range 9).filter fun j => !bit (s.coreMask site i) j).take 8

/-- The core of a logical core address, if sett and core exist (R19). -/
def State.coreAt (s : State) (logical : Nat) : Option Nat :=
  match s.siteOfSett (logical / 64) with
  | none => none
  | some site => (s.liveCores site (logical % 64 / 8))[logical % 8]?.map fun j => 72 * site + 9 * (logical % 64 / 8) + j

/-- The logical core address of a core, if it has one. -/
def State.logicalOf (s : State) (p : Nat) : Option Nat :=
  match s.settAt (siteOf p) with
  | none => none
  | some sid =>
    if (s.liveCores (siteOf p) (rowOf p)).contains (colOf p) then
      some (64 * sid + 8 * rowOf p + (s.liveCores (siteOf p) (rowOf p)).idxOf (colOf p))
    else none

/-- All cores that hold a logical core of a site. -/
def State.coresOfSite (s : State) (site : Nat) : List Nat :=
  (List.range 8).flatMap fun i => (s.liveCores site i).map fun j => 72 * site + 9 * i + j

/-- Whether a drain keeps a packet back at its source (R260). -/
def State.holdsBack (s : State) (k : Packet) : Bool :=
  !isReply k && bit (s.island (srcNode s.siteOfSett k.src)).holds k.tc.toNat

/-- Packets enter the ring fabric, or wait at their source while a drain holds their class. -/
def State.send (s : State) (ks : List Packet) : State :=
  { s with flight := s.flight ++ ks.filter (fun k => !s.holdsBack k), drain := { s.drain with kept := s.drain.kept ++ ks.filter s.holdsBack } }

/-! ### Panel time -/

/-- What the slew or hold in progress has added to TIME_NOW by TCLK count `now` (R352): one increment of 2 or of 0 in every 8 ns while the
island slews, an increment of 0 in every ns while it holds. -/
def Island.adj (x : Island) (now : Nat) : Int :=
  let n : Int := ((now - x.slewAt : Nat) : Int)
  if 0 ≤ x.slew then min x.slew (n / 8) else if -64 ≤ x.slew then -(min (-x.slew) (n / 8)) else -(min (-x.slew) n)

/-- TIME_NOW of an island at TCLK count `now`: 0 until its generator has locked (R349). -/
def Island.time (x : Island) (now : Nat) : BitVec 64 :=
  if fld x.status 31 28 < 2 then 0 else BitVec.ofNat 64 now + x.timeOff + BitVec.ofInt 64 (x.adj now)

/-- Panel time of an island, in ns (R349). -/
def State.timeNow (s : State) (n : Node) : BitVec 64 := (s.island n).time s.tclk

/-- Panel time at a core. -/
def State.coreTime (s : State) (p : Nat) : BitVec 64 := s.timeNow (settNode (siteOf p))

/-- Panel time at G0. -/
def State.g0Time (s : State) : BitVec 64 := s.timeNow (.gal 0)

/-! ### Interrupt sources (R424, R425, R427) -/

/-- Whether a source of a gallery's interrupt controller is of kind level. -/
def levelSource (n : Nat) : Bool := n = 258 || (261 ≤ n && n ≤ 265) || n = 595 || n = 597

/-- Whether gallery g has source n. -/
def hasSource (g n : Nat) : Bool :=
  n < 256 && n % 64 ≤ 17 || (256 ≤ n && n ≤ 260) || (262 ≤ n && n ≤ 265) || (288 ≤ n && n ≤ 591) || n = 600
    || (g = 0 && (n = 261 || (592 ≤ n && n ≤ 599)))

/-- ICU_SRC_n after reset: KIND and TARGET at the source's fixed values; the TARGET of a shared source is a DESIGN CHOICE (log entry 17). -/
def icuReset (n : Nat) : BitVec 32 :=
  BitVec.ofNat 32 ((if levelSource n then 2 ^ 26 else 0) + (if n < 256 then n / 64 * 2 ^ 24 else 0))

/-- ICU_SRC_n of a gallery: its table holds the difference from the reset value. -/
def Gallery.icu (x : Gallery) (n : Nat) : BitVec 32 := Tab.get 0 x.icuSrc n ^^^ icuReset n

/-- The gallery with ICU_SRC_n set. -/
def Gallery.setIcu (x : Gallery) (n : Nat) (v : BitVec 32) : Gallery := { x with icuSrc := Tab.set 0 x.icuSrc n (v ^^^ icuReset n) }

/-- The gallery with a core that waits woken by a deliverable source (R427). -/
def Gallery.wakeMc (x : Gallery) (n : Nat) : Gallery :=
  let v := x.icu n
  let b := fld v 25 24
  let st := Tab.get 0 x.mcStat b
  if bit v 31 && !bit x.icuCtrl 31 && fld st 31 28 = 2 then { x with mcStat := Tab.set 0 x.mcStat b (setFld st 31 28 1) } else x

/-- An edge of source n, or the start of a level source's condition, reaches a gallery's controller (R425, R427). -/
def Gallery.edge (x : Gallery) (g n : Nat) : Gallery :=
  if hasSource g n then
    let y := x.setIcu n (setBit (x.icu n) 0 true)
    (if levelSource n then { y with levels := addOnce y.levels n } else y).wakeMc n
  else x

/-- An edge of source n at gallery g. -/
def State.edge (s : State) (g n : Nat) : State := s.modGal g fun x => x.edge g n

/-! ### Node ids and destination indexes -/

/-- Node id of a core in SRC (R248). -/
def srcCore (logical : Nat) : BitVec 15 := BitVec.ofNat 15 logical

/-- Node id of a sump in SRC (R248). -/
def srcSump (i : Nat) : BitVec 15 := BitVec.ofNat 15 (0x4000 + i)

/-- Node id of a gallery's management core in SRC (R248). -/
def srcGal (g mc : Nat) : BitVec 15 := BitVec.ofNat 15 (0x5000 + 4 * mc + g)

/-- Node id of a sett controller in SRC (R248). -/
def srcSett (site : Nat) : BitVec 15 := BitVec.ofNat 15 (0x6000 + site)

/-- Node id of a span peer in SRC (R248). -/
def srcPeer (peer g : Nat) : BitVec 15 := BitVec.ofNat 15 (0x7000 + 8 * peer + g)

/-- DIDX of a reply to a node id (R255). -/
def didxOf (src : BitVec 15) : BitVec 10 :=
  if src.toNat < 0x4000 then BitVec.ofNat 10 (src.toNat / 64)
  else if src.toNat < 0x5000 then BitVec.ofNat 10 (256 + src.toNat % 32)
  else if src.toNat < 0x6000 then BitVec.ofNat 10 (288 + src.toNat % 4)
  else if src.toNat < 0x7000 then BitVec.ofNat 10 (320 + src.toNat % 512)
  else BitVec.ofNat 10 (288 + src.toNat % 4)

/-! ### Fabric addresses -/

/-- What a fabric address decodes to (R24, R25). -/
inductive Target where
  | hbm (stack off : Nat)
  | pad (logical off : Nat)
  | settReg (sid off : Nat)
  | coreReg (logical off : Nat)
  | siteReg (site off : Nat)
  | physReg (p off : Nat)
  | sumpReg (stack off : Nat)
  | galReg (g off : Nat)
  | host (port addr : Nat)
  | unmapped
  deriving DecidableEq, Repr

/-- The interleave hash of R272: the XOR of the 5-bit slices of a group number. -/
def hashGroup (g : Nat) : Nat := (g ^^^ (g >>> 5) ^^^ (g >>> 10) ^^^ (g >>> 15) ^^^ (g >>> 20)) % 32

/-- The stack of an interleaved address (R272). -/
def hbmStack (a : Nat) : Nat := ((a >>> 12) % 32) ^^^ hashGroup (a >>> 17)

/-- The stack offset of an interleaved address (R272). -/
def hbmOff (a : Nat) : Nat := ((a >>> 17) <<< 12) + a % 4096

/-- The interleaved address of a stack offset, the inverse of `hbmStack` and `hbmOff`. -/
def hbmAddr (stack off : Nat) : Nat := (((off >>> 12) * 32 + (stack ^^^ hashGroup (off >>> 12))) <<< 12) + off % 4096

/-- Offsets inside a sett block: sett registers, or a core's registers (R25). -/
def decodeBlock (settR : Nat → Target) (coreR : Nat → Nat → Target) (ncores off : Nat) : Target :=
  if off < 0x100000 then settR off
  else if off < 0x400000 then .unmapped
  else if (off - 0x400000) / 0x10000 < ncores then coreR ((off - 0x400000) / 0x10000) (off % 0x10000)
  else .unmapped

/-- The decode of a 48-bit fabric address (R24, R25). -/
def decodeAddr (a : Nat) : Target :=
  if a < 0x20000000000 then .hbm (hbmStack a) (hbmOff a)
  else if 0x200000000000 ≤ a && a < 0x220000000000 then .hbm (nfld a 40 36) (nfld a 35 0)
  else if 0x400000000000 ≤ a && a < 0x401000000000 then
    (if nfld a 21 0 < 0x300000 then .pad (64 * nfld a 35 28 + nfld a 27 22) (nfld a 21 0) else .unmapped)
  else if 0x600000000000 ≤ a && a < 0x600100000000 then
    decodeBlock (.settReg (nfld a 31 24)) (fun k o => .coreReg (64 * nfld a 31 24 + k) o) 64 (nfld a 23 0)
  else if 0x600100000000 ≤ a && a < 0x600210000000 then
    decodeBlock (.siteReg ((a - 0x600100000000) >>> 24)) (fun k o => .physReg (72 * ((a - 0x600100000000) >>> 24) + k) o) 72
      (nfld a 23 0)
  else if 0x600400000000 ≤ a && a < 0x600402000000 then .sumpReg (nfld a 24 20) (nfld a 19 0)
  else if 0x600500000000 ≤ a && a < 0x600504000000 then .galReg (nfld a 25 24) (nfld a 23 0)
  else if 0x800000000000 ≤ a && a < 0x1000000000000 then .host (nfld a 46 45) (nfld a 44 0)
  else .unmapped

/-- The fabric address of a core's scratchpad. -/
def padAddr (logical off : Nat) : BitVec 48 := BitVec.ofNat 48 (0x400000000000 + logical * 0x400000 + off)

/-! ### Status codes (R202) and source classes -/

/-- OK. -/
def stOk : BitVec 4 := 0
/-- ADDR_UNMAPPED. -/
def stUnmapped : BitVec 4 := 1
/-- DEST_ABSENT. -/
def stAbsent : BitVec 4 := 2
/-- ACCESS_DENIED. -/
def stDenied : BitVec 4 := 3
/-- WINDOW_DENIED. -/
def stWindow : BitVec 4 := 4
/-- DATA_UE. -/
def stUe : BitVec 4 := 5
/-- REGION_DENIED. -/
def stRegion : BitVec 4 := 6
/-- TIMEOUT. -/
def stTimeout : BitVec 4 := 7
/-- RETRACTED. -/
def stRetracted : BitVec 4 := 8

/-- The first status other than OK. -/
def firstBad (a b : BitVec 4) : BitVec 4 := if a = 0 then b else a

/-- Where a node's network interface sends an access (R27, R28, R255): the destination index and node id, or the status that
ends it. `phys` tells whether the source may use the physical sett view (R26). -/
def State.resolve (s : State) (phys : Bool) (a : Nat) : Except (BitVec 4) (BitVec 10 × BitVec 15) :=
  match decodeAddr a with
  | .unmapped => .error stUnmapped
  | .hbm k _ | .sumpReg k _ => .ok (BitVec.ofNat 10 (256 + k), srcSump k)
  | .pad l _ | .coreReg l _ =>
    if (s.coreAt l).isSome then .ok (BitVec.ofNat 10 (l / 64), srcCore l) else .error stAbsent
  | .settReg sid _ =>
    match s.siteOfSett sid with
    | some site => .ok (BitVec.ofNat 10 sid, srcSett site)
    | none => .error stAbsent
  | .siteReg site _ => if phys then .ok (BitVec.ofNat 10 (320 + site), srcSett site) else .error stDenied
  | .physReg p _ => if phys then .ok (BitVec.ofNat 10 (320 + siteOf p), srcSett (siteOf p)) else .error stDenied
  | .galReg g _ => .ok (BitVec.ofNat 10 (288 + g), srcGal g 0)
  | .host port _ => if (s.gal port).linkUp then .ok (BitVec.ofNat 10 (288 + port), srcGal port 0) else .error stAbsent

/-- A packet with every field 0. -/
def Packet.empty : Packet :=
  { opc := 0, tc := 0, vc := false, turned := false, sclass := 0, spec := false, daddr := 0, seq := 0, stream := 0, ctx := 0,
    len := 0, src := 0, status := 0, aux := 0, pass := 0, didx := 0, mcx := none, data := [] }

/-- The traffic class that the opcode table fixes (R249). -/
def opcTc (opc : Nat) : Nat :=
  if opc = 1 || opc = 9 then 1 else if opc = 2 || opc = 3 || opc = 14 then 2 else if opc = 5 || opc = 15 then 3 else 0

/-- The bytes [a, a+n) cut at 4 KiB boundaries, as (offset, length) pairs (R249, R271). -/
def cut4k (a : Nat) : Nat → Nat → List (Nat × Nat)
  | 0, _ => []
  | fuel + 1, n =>
    if n = 0 then []
    else
      let k := min n (4096 - a % 4096)
      (a, k) :: cut4k (a + k) fuel (n - k)

end Sys2Proof.Machine
end

