-- ==== Sys2Proof/Machine/CoreOps.lean ====
section
/-! DEFINITION. The shared operations inside a core: registers, banks, scoreboard, ECC, completion groups, run-ahead
cancellation and traps (chapters 06 to 08). -/

namespace Sys2Proof.Machine

/-! ### Registers -/

/-- Scalar register n; s0 reads 0 (R153). -/
def Core.sreg (c : Core) (n : Nat) : BitVec 64 := if n = 0 then 0 else Tab.get 0 c.seq.sregs n

/-- The core with scalar register n written; a write of s0 is discarded (R153). -/
def Core.setSreg (c : Core) (n : Nat) (v : BitVec 64) : Core :=
  if n = 0 then c else { c with seq := { c.seq with sregs := Tab.set 0 c.seq.sregs n v } }

/-- Predicate n; p0 reads true (R153). -/
def Core.pred (c : Core) (n : Nat) : Bool := n == 0 || bit c.seq.preds n

/-- The core with predicate n written; a write of p0 is discarded (R153). -/
def Core.setPred (c : Core) (n : Nat) (v : Bool) : Core :=
  if n = 0 then c else { c with seq := { c.seq with preds := setBit c.seq.preds n v } }

/-- Summary register n. -/
def Core.ureg (c : Core) (n : Nat) : BitVec 64 := Tab.get 0 c.seq.uregs n

/-- The residency slot that is front (R127). -/
def Core.frontSlot (c : Core) : ResSlot := if c.sp.front then c.res1 else c.res0

/-- The residency slot that is back. -/
def Core.backSlot (c : Core) : ResSlot := if c.sp.front then c.res0 else c.res1

/-- Bank mask of the front slot (R127). -/
def Core.frontBanks (c : Core) : BitVec 12 := if c.sp.front then c.sp.slot1 else c.sp.slot0

/-- The core with flags of CORE_NUM_STATUS set (R77). -/
def Core.raise (c : Core) (fl : Nat) : Core :=
  { c with num := { c.num with status := c.num.status ||| BitVec.ofNat 32 fl } }

/-! ### Banks (R124 to R128) -/

/-- Whether the `n` bytes from offset `a` lie below 3 MiB. -/
def inPad (a n : Nat) : Bool := decide (a + n ≤ 0x300000)

/-- Whether the `n` bytes from offset `a` lie in the front slot's banks and touch no retired row (R128, R152). -/
def Core.ownOk (c : Core) (a n : Nat) : Bool :=
  n == 0 || (inPad a n
    && (List.range ((a + n - 1) / 0x40000 + 1 - a / 0x40000)).all (fun k => bit c.frontBanks (a / 0x40000 + k))
    && c.sp.retired.all (fun r => decide (r < a / 1024) || decide ((a + n - 1) / 1024 < r)))

/-! ### ECC (R149 to R152) -/

/-- Whether reading the ranges (offset, length) checks word `w`: a read checks all words of its 128 B lines (R149). -/
def lineHit (ranges : List (Nat × Nat)) (w : Nat) : Bool :=
  ranges.any fun r => r.2 ≠ 0 && r.1 / 128 ≤ w * 8 / 128 && w * 8 / 128 ≤ (r.1 + r.2 - 1) / 128

/-- Records a corrected single-bit error of word w (R150, R152): counted, written back, and 16 of a row spall the row. -/
def CoreSp.correct (x : CoreSp) (w : Nat) : CoreSp :=
  let n := Tab.get 0 x.rowErrs (w / 128) + 1
  { x with errs := Tab.set 0 x.errs w 0, ecc := setFld (satFld x.ecc 63 48 1) 21 0 (8 * w),
           rowErrs := Tab.set 0 x.rowErrs (w / 128) n, spall := if 16 ≤ n then addOnce x.spall (w / 128) else x.spall }

/-- Records a double-bit error of word w (R150, R152): UE is set and the row spalls. -/
def CoreSp.uncorrected (x : CoreSp) (w : Nat) : CoreSp :=
  { x with ecc := setFld (setBit x.ecc 47 true) 21 0 (8 * w), spall := addOnce x.spall (w / 128) }

/-- One word checked on a read: corrected, or noted as the first double-bit error. -/
def checkWord (acc : CoreSp × Option Nat) (w : Nat) : CoreSp × Option Nat :=
  if Tab.get 0 acc.1.errs w = 1 then (acc.1.correct w, acc.2)
  else if Tab.get 0 acc.1.errs w = 2 then (acc.1.uncorrected w, some (acc.2.getD (8 * w)))
  else acc

/-- Reads the ranges through ECC: the offset of the first word with a double-bit error, if there is one (R150). -/
def CoreSp.check (x : CoreSp) (ranges : List (Nat × Nat)) : CoreSp × Option Nat :=
  ((x.errs.map Prod.fst).filter (lineHit ranges)).foldl checkWord (x, none)

/-- Bytes of a write that lands, with their offsets: a write that covers part of a word with a double-bit error leaves that word
as it is (R150). -/
def CoreSp.landing (x : CoreSp) (a : Nat) (bs : List Byte) : List (Nat × Byte) :=
  (bs.zipIdx a).filterMap fun e =>
    let w := e.2 / 8
    if Tab.get 0 x.errs w = 2 && !(a ≤ 8 * w && 8 * w + 8 ≤ a + bs.length) then none else some (e.2, e.1)

/-- Stores bytes at an offset, through ECC (R126, R150). -/
def CoreSp.store (x : CoreSp) (a : Nat) (bs : List Byte) : CoreSp :=
  if x.errs.isEmpty then { x with mem := Memory.write x.mem a bs }
  else
    let m := (x.landing a bs).foldl (fun m e => Tab.set 0 m e.1 e.2) x.mem
    let y := { x with mem := m }
    ((x.errs.map Prod.fst).filter fun w => decide (8 * w < a + bs.length) && decide (a < 8 * w + 8)).foldl
      (fun z w =>
        if a ≤ 8 * w && 8 * w + 8 ≤ a + bs.length then { z with errs := Tab.set 0 z.errs w 0 }
        else (checkWord (z, none) w).1) y

/-! ### Scoreboard (R132 to R138) -/

/-- Whether a range [lo, hi] conflicts with an entry (R133). -/
def hazard (sb : List SbEntry) (lo hi : Nat) (write : Bool) : Bool :=
  sb.any fun e => decide (e.lo ≤ hi) && decide (lo ≤ e.hi) && (write || e.write)

/-- A range to enter: first byte, last byte, WRITE or READ. -/
abbrev SbRange := Nat × Nat × Bool

/-- Whether an operation with these ranges may issue (R133). -/
def sbReady (sb : List SbEntry) (rs : List SbRange) : Bool :=
  rs.all (fun r => !hazard sb r.1 r.2.1 r.2.2) && decide (sb.length + rs.length ≤ 32)

/-- The scoreboard with an operation's ranges entered. -/
def sbEnter (sb : List SbEntry) (owner : Nat) (spec : Bool) (rs : List SbRange) : List SbEntry :=
  sb ++ rs.map fun r => { owner := owner, lo := r.1, hi := r.2.1, write := r.2.2, spec := spec }

/-- The scoreboard with all entries of an operation released (R134). -/
def sbRelease (sb : List SbEntry) (owner : Nat) : List SbEntry := sb.filter fun e => e.owner ≠ owner

/-- The smallest range over parts (offset, length). -/
def hull (parts : List (Nat × Nat)) (write : Bool) : List SbRange :=
  match parts.filter (fun r => r.2 ≠ 0) with
  | [] => []
  | r :: t =>
    [(t.foldl (fun m x => min m x.1) r.1, t.foldl (fun m x => max m (x.1 + x.2 - 1)) (r.1 + r.2 - 1), write)]

/-! ### Completion groups and transfers (R199 to R203) -/

/-- A transfer joins group g. -/
def CoreUnits.join (u : CoreUnits) (g : Nat) : CoreUnits :=
  { u with grps := Tab.mod 0 u.grps g fun x => satFld x 4 0 1 }

/-- A transfer of group g completes with a status (R202). -/
def CoreUnits.complete (u : CoreUnits) (g : Nat) (st : BitVec 4) (delivered pruned : Nat) : CoreUnits :=
  { u with grps := Tab.mod 0 u.grps g fun x =>
      let y := setFld x 4 0 (fld x 4 0 - 1)
      let z := satFld (satFld y 47 32 delivered) 63 48 pruned
      if st = 0 then z else setFld (satFld z 27 16 1) 31 28 st.toNat }

/-- Whether a held control packet may be sent (R161, R162). -/
def HeldSend.free (h : HeldSend) (u : CoreUnits) : Bool :=
  h.writes.all (fun i => u.xfers.all fun x => x.id ≠ i) && h.reads.all (fun i => u.sb.all fun e => e.owner ≠ i || e.write)

/-- Sends the control packets that no longer wait. -/
def CoreUnits.flush (u : CoreUnits) : CoreUnits × List Packet :=
  ({ u with held := u.held.filter fun h => !h.free u }, (u.held.filter fun h => h.free u).map HeldSend.packet)

/-- The next sequence number towards a node on a stream (R254). -/
def CoreUnits.nextSeq (u : CoreUnits) (node : BitVec 15) (stream : Nat) : BitVec 16 × CoreUnits :=
  let k := node.toNat * 256 + stream
  (Tab.get 0 u.seqNos k, { u with seqNos := Tab.mod 0 u.seqNos k (· + 1) })

/-- A transfer leaves the engine: its scoreboard entries are released, and its group counts it unless it is speculative (R200,
R201). -/
def CoreUnits.finish (u : CoreUnits) (x : Xfer) (st : BitVec 4) : CoreUnits :=
  let v := { u with xfers := u.xfers.filter (fun y => y.id ≠ x.id), sb := sbRelease u.sb x.id }
  if x.spec || x.cancelled || x.kind = .hint then v else v.complete x.grp.toNat st x.delivered x.pruned

/-! ### Cancelling run-ahead (R173) -/

/-- The distinct targets of the packets of a transfer, each with its first packet and their number. -/
def retractTargets : List Packet → List (Packet × Nat)
  | [] => []
  | k :: t =>
    let r := retractTargets t
    if r.any (fun e => e.1.didx = k.didx) then r.map fun e => if e.1.didx = k.didx then (k, e.2 + 1) else e
    else (k, 1) :: r

/-- The retract for a target: it carries the original request's sequence number (R173). -/
def retractOf (e : Packet × Nat) : Packet :=
  { Packet.empty with opc := 8, sclass := e.1.sclass, daddr := e.1.daddr, seq := e.1.seq, stream := e.1.stream, ctx := e.1.ctx,
                      src := e.1.src, aux := BitVec.ofNat 48 e.2, pass := e.1.pass, didx := e.1.didx }

/-- Cancels the speculative operation `id`: a held FILL is dropped, held data is discarded, and a read keeps its entry until its
last response (R137, R173). -/
def CoreUnits.cancel (u : CoreUnits) (id : Nat) : CoreUnits × List Packet :=
  match u.xfers.find? (fun x => x.id = id) with
  | none => ({ u with fcQ := u.fcQ.filter (fun o => o.id ≠ id), sb := sbRelease u.sb id }, [])
  | some x =>
    let ks := (retractTargets x.packets).map retractOf
    if x.left.isEmpty then
      ({ u with xfers := u.xfers.filter (fun y => y.id ≠ id), sb := sbRelease u.sb id }, ks)
    else
      ({ u with xfers := u.xfers.map fun y => if y.id = id then { y with cancelled := true, held := [], reissue := [] } else y }, ks)

/-- Cancels log entries, counting them and the retracts (R173). -/
def Core.cancelEntries (c : Core) (es : List RaEntry) : Core × List Packet :=
  let r := es.foldl (fun (a : CoreUnits × List Packet) e => let (u, ks) := a.1.cancel e.opId; (u, a.2 ++ ks)) (c.units, [])
  ({ c with units := r.1, seq := { c.seq with raStat := satFld (satFld c.seq.raStat 31 16 es.length) 15 0 r.2.length } }, r.2)

/-- Cancels every log entry and ends run-ahead (R174). -/
def Core.cancelAll (c : Core) : Core × List Packet :=
  match c.seq.ra with
  | none => (c, [])
  | some r =>
    let (d, ks) := c.cancelEntries r.log
    ({ d with seq := { d.seq with ra := none } }, ks)

/-! ### Traps (R176, R177) -/

/-- ILLEGAL_INSTR. -/
def trIllegal : Nat := 1
/-- BANK_ACCESS. -/
def trBank : Nat := 2
/-- SP_UE. -/
def trSpUe : Nat := 3
/-- ACC_UE. -/
def trAccUe : Nat := 4
/-- TOK_OVF. -/
def trTokOvf : Nat := 5
/-- CRD_OVF. -/
def trCrdOvf : Nat := 6
/-- CB_OVF. -/
def trCbOvf : Nat := 7
/-- PC_RANGE. -/
def trPcRange : Nat := 8
/-- MISALIGNED. -/
def trMisaligned : Nat := 9
/-- BREAK. -/
def trBreak : Nat := 10

/-- CORE_TRAP's image for a cause and offset at the present PC and half. -/
def Core.trapImage (c : Core) (cause addr : Nat) : BitVec 64 :=
  BitVec.ofNat 64 (2 ^ 63 + cause * 2 ^ 48 + b2n c.sp.front * 2 ^ 44 + c.seq.pc.toNat * 2 ^ 32 + addr % 2 ^ 22)

/-- A fatal trap (R177): issue stops, run-ahead is cancelled, CORE_TRAP records the first trap, and the support code waits for the
stop. A second trap before the stop is counted only. -/
def Core.trap (c : Core) (cause addr : Nat) : Core × List Packet :=
  let (d, ks) := c.cancelAll
  if bit c.seq.trap 63 then ({ d with seq := { d.seq with trapMore := d.seq.trapMore + 1, mode := .trapped, blocked := none } }, ks)
  else ({ d with seq := { d.seq with trap := c.trapImage cause addr, mode := .trapped, blocked := none } }, ks)

/-- A trap of core p as a change of the state: the retracts leave. -/
def State.trapCore (s : State) (p : Nat) (cause addr : Nat) : State :=
  let (c, ks) := (s.core p).trap cause addr
  (s.setCore p c).send ks

end Sys2Proof.Machine
end

