-- ==== Sys2Proof/Machine/HostOps.lean ====
section
/-! DEFINITION. Commands, records, completion queues, events and the recovery log as shared operations (R307 to R321, R334 to R338). -/

namespace Sys2Proof

/-! ### Descriptors and records -/

/-- OPCODE of a command (R318). -/
def Cmd.op (c : Cmd) : Nat := fld c.desc.w0 63 56

/-- CONTEXT of a command. -/
def Cmd.ctx (c : Cmd) : Nat := fld c.desc.w0 47 38

/-- CMD_TAG of a command. -/
def Cmd.tag (c : Cmd) : BitVec 32 := BitVec.ofNat 32 (fld c.desc.w0 31 0)

/-- Recovery epoch of a command. -/
def Cmd.epoch (c : Cmd) : BitVec 32 := BitVec.ofNat 32 (fld c.desc.w1 63 32)

/-- Recovery step of a command. -/
def Cmd.stepId (c : Cmd) : BitVec 32 := BitVec.ofNat 32 (fld c.desc.w1 31 0)

/-- Number of a function: 64 × port + VF. -/
def fnIndex (port : Gal) (vf : Fin 64) : Nat := 64 * port.val + vf.val

/-- Key of a queue pair. -/
def qpKey (f q : Nat) : Nat := 1024 * f + q

/-- Key of the queue pair that carried a command. -/
def Src.key : Src → Option Nat
  | .queue port vf qp => some (qpKey (fnIndex port vf) qp.val)
  | .mctp => none

end Sys2Proof

namespace Sys2Proof.Machine

/-- A record for a command with a status (R321). -/
def cmdAnswer (c : Cmd) (status : Nat) : Rec :=
  { tag := c.tag, status := BitVec.ofNat 8 status, reason := 0, flags := 0, opcode := BitVec.ofNat 8 c.op, result := 0, dataA := 0,
    dataB := 0 }

/-- An event record (R335). -/
def EventRec.toRec (e : EventRec) : Rec :=
  { tag := 0, status := e.code, reason := 0, flags := if e.lost then 12 else 4, opcode := 0, result := e.result, dataA := e.dataA,
    dataB := 0 }

/-- The 32 bytes of a record in a completion queue (R321). -/
def Rec.bytes (r : Rec) (sqHead qp : Nat) (phase : Bool) : List Byte :=
  leBytes 8 (r.tag.toNat * 2 ^ 32 + sqHead % 65536 * 2 ^ 16 + qp * 2 ^ 6 + b2n phase)
    ++ leBytes 8 (r.status.toNat * 2 ^ 56 + r.reason.toNat * 2 ^ 48 + r.flags.toNat * 2 ^ 40 + r.opcode.toNat * 2 ^ 32 + r.result.toNat)
    ++ leBytes 8 r.dataA.toNat ++ leBytes 8 r.dataB.toNat

/-! ### Functions, queue pairs and contexts -/

/-- Function f. -/
def State.fn (s : State) (f : Nat) : Fn := Tab.get Fn.reset s.host.fns f

/-- The state with function f changed. -/
def State.modFn (s : State) (f : Nat) (g : Fn → Fn) : State :=
  { s with host := { s.host with fns := Tab.mod Fn.reset s.host.fns f g } }

/-- The queue pair under a key. -/
def State.qp (s : State) (k : Nat) : Option Qp := Tab.get none s.host.qps k

/-- The state with a queue pair set or removed. -/
def State.setQp (s : State) (k : Nat) (q : Option Qp) : State := { s with host := { s.host with qps := Tab.set none s.host.qps k q } }

/-- The state with an existing queue pair changed. -/
def State.modQp (s : State) (k : Nat) (g : Qp → Qp) : State :=
  match s.qp k with
  | some q => s.setQp k (some (g q))
  | none => s

/-- Context n, while it is open. -/
def State.ctx (s : State) (n : Nat) : Option Ctx := Tab.get none s.ctxs n

/-- The state with a context set or freed. -/
def State.setCtx (s : State) (n : Nat) (c : Option Ctx) : State := { s with ctxs := Tab.set none s.ctxs n c }

/-- The state with an open context changed. -/
def State.modCtx (s : State) (n : Nat) (g : Ctx → Ctx) : State :=
  match s.ctx n with
  | some c => s.setCtx n (some (g c))
  | none => s

/-- The ids of the open contexts. -/
def State.openCtxs (s : State) : List Nat := s.ctxs.map Prod.fst

/-- Entries that a ring of `depth` entries holds between head and tail (R307). -/
def ringUsed (depth head tail : Nat) : Nat := (tail + depth - head) % depth

/-- Completion entries that are neither posted and unfreed nor reserved (R307, R309). -/
def Qp.free (q : Qp) : Nat := q.cqDepth - 1 - ringUsed q.cqDepth q.cqHead q.cqTail - q.reserved

/-! ### Records on their way -/

/-- A record becomes due on the path that carried its command; a deleted queue pair gets none (R322, R324). -/
def State.emit (s : State) (src : Src) (r : Rec) : State :=
  match src.key with
  | some k => s.modQp k fun q => if q.deleting then { q with reserved := q.reserved - 1 } else { q with due := q.due ++ [r] }
  | none => { s with host := { s.host with mctp := s.host.mctp ++ [MctpOut.record r] } }

/-- Whether a command stands under a log entry's pair. -/
def RecEntry.of (e : RecEntry) (c : Cmd) : Bool := e.epoch = c.epoch && e.step = c.stepId

/-- A command is no longer in progress. -/
def State.drop (s : State) (c : Cmd) : State :=
  { s with host := { s.host with inProg := s.host.inProg.erase c, toDo := s.host.toDo.erase c } }

/-- The copy of a record that answers a repeated step (R337). -/
def Rec.replay (r : Rec) (c : Cmd) : Rec := { r with tag := c.tag, flags := r.flags ||| 16 }

/-- The log's entry of a command gets its final record; the repeats that waited for it are answered (R336, R337). -/
def State.logFinal (s : State) (c : Cmd) (r : Rec) : State :=
  match s.host.recLog.find? (fun e => e.of c && e.cmd = c && e.final.isNone) with
  | none => s
  | some e =>
    let log := s.host.recLog.map fun x => if x = e then { x with final := some r, waiters := [] } else x
    let t := { s with host := { s.host with recLog := log } }
    e.waiters.foldl (fun u w => (u.drop w).emit w.src (r.replay w)) t

/-- A command in progress completes with a record: it is logged and becomes due. -/
def State.complete0 (s : State) (c : Cmd) (r : Rec) : State :=
  if s.host.inProg.contains c then ((s.drop c).emit c.src r).logFinal c r else s

/-- A queue pair that is being deleted goes once nothing of it is in progress, and the deletions complete (R324). -/
def State.finishDelete (s : State) (k : Nat) : State :=
  match s.qp k with
  | none => s
  | some q =>
    if q.deleting && (s.host.inProg.all fun c => c.src.key ≠ some k) then
      q.deleter.foldl (fun t c => t.complete0 c (cmdAnswer c 0)) (s.setQp k none)
    else s

/-- A command completes with a record (R309, R321). -/
def State.complete (s : State) (c : Cmd) (r : Rec) : State :=
  let t := s.complete0 c r
  match c.src.key with
  | some k => t.finishDelete k
  | none => t

/-- A command completes with a status alone. -/
def State.completeSt (s : State) (c : Cmd) (status : Nat) : State := s.complete c (cmdAnswer c status)

/-- Completes several commands with one status. -/
def State.completeAll (s : State) (cs : List Cmd) (status : Nat) : State := cs.foldl (fun t c => t.completeSt c status) s

/-! ### Events (R314, R335) -/

/-- An event joins those that wait: up to 16 wait in order; then it merges with one of its kind, or takes the reserve place of its
kind. -/
def evJoin (evs reserve : List EventRec) (e : EventRec) : List EventRec × List EventRec :=
  let mergeFirst := fun (l : List EventRec) =>
    match l.findIdx? (fun x => x.code = e.code) with
    | some i => l.modify i fun x => { x with lost := true }
    | none => l
  if evs.length < 16 then (evs ++ [e], reserve)
  else if evs.any (fun x => x.code = e.code) then (mergeFirst evs, reserve)
  else if reserve.any (fun x => x.code = e.code) then (evs, mergeFirst reserve)
  else (evs, reserve ++ [e])

/-- Events that a queue pair with `n` free entries takes, and those that go on waiting. -/
def evTake (n : Nat) (evs reserve : List EventRec) : List EventRec × List EventRec × List EventRec :=
  let all := evs ++ reserve
  (all.take n, evs.drop n, reserve.drop (n - evs.length))

/-- The events of context n that fit enter its event queue. -/
def State.pumpCtx (s : State) (n : Nat) : State :=
  match s.ctx n with
  | none => s
  | some c =>
    match c.evq with
    | none => s
    | some k =>
      match s.qp k with
      | none => s
      | some q =>
        let (now, evs, res) := evTake q.free c.events c.reserve
        (s.setCtx n (some { c with events := evs, reserve := res })).setQp k
          (some { q with due := q.due ++ now.map EventRec.toRec, reserved := q.reserved + now.length })

/-- The events of function f that fit enter its admin completion queue. -/
def State.pumpFn (s : State) (f : Nat) : State :=
  match s.qp (qpKey f 0) with
  | none => s
  | some q =>
    let x := s.fn f
    let (now, evs, res) := evTake q.free x.events x.reserve
    (s.modFn f fun x => { x with events := evs, reserve := res }).setQp (qpKey f 0)
      (some { q with due := q.due ++ now.map EventRec.toRec, reserved := q.reserved + now.length })

/-- An event record. -/
def event (code result dataA : Nat) : EventRec :=
  { code := BitVec.ofNat 8 code, result := BitVec.ofNat 32 result, dataA := BitVec.ofNat 64 dataA, lost := false }

/-- Posts an event to a context. -/
def State.ctxEvent (s : State) (n : Nat) (e : EventRec) : State :=
  (s.modCtx n fun c => let (a, b) := evJoin c.events c.reserve e; { c with events := a, reserve := b }).pumpCtx n

/-- Posts an event to a function. -/
def State.fnEvent (s : State) (f : Nat) (e : EventRec) : State :=
  (s.modFn f fun x => let (a, b) := evJoin x.events x.reserve e; { x with events := a, reserve := b }).pumpFn f

/-- Posts a panel event: to the admin queue of PF0 of P0, and to the bus owner once the MCTP endpoint has an EID (R335). -/
def State.panelEvent (s : State) (e : EventRec) : State :=
  let t := s.fnEvent 0 e
  if t.host.eid.isSome then { t with host := { t.host with mctp := t.host.mctp ++ [MctpOut.record e.toRec] } } else t

/-- Posts an event to every open context that `p` selects. -/
def State.ctxEvents (s : State) (p : Nat → Bool) (e : EventRec) : State :=
  (s.openCtxs.filter p).foldl (fun t n => t.ctxEvent n e) s

/-! ### Fences (R332, R459) -/

/-- The epoch and fence of a job. -/
def State.jobEpoch (s : State) (job : BitVec 64) : JobEpoch :=
  match s.span.jobs.find? (fun e => e.1 = job) with
  | some e => e.2
  | none => { epoch := 0, fenced := false }

/-- Whether context n is fenced: its job is, or the panel epoch is. -/
def State.ctxFenced (s : State) (n : Nat) : Bool :=
  match s.ctx n with
  | some c => s.span.panelEpoch.fenced || (c.jobId ≠ 0 && (s.jobEpoch c.jobId).fenced)
  | none => false

/-- Whether context n launches nothing for now: a paired STATE_COPY or an unread handoff holds it (R458, R462). -/
def State.ctxHeld (s : State) (n : Nat) : Bool :=
  (s.span.copies.any fun j => j.ctx.toNat = n && j.paired) || (s.ctx n).any Ctx.handoff

end Sys2Proof.Machine
end

