-- ==== Sys2Proof/Machine/SumpOps.lean ====
section
/-! DEFINITION. Operations of a sump and its stack: region check, reads and writes through ECC, hints, lost words and retired rows
(R271 to R288). -/

namespace Sys2Proof.Machine

/-! ### State of a stack -/

/-- STATE of SUMP_STATUS: 0 OFF, 1 TRAINING, 2 READY, 3 FAILED. -/
def Sump.state (x : Sump) : Nat := fld x.status 31 28

/-- Whether the stack serves accesses. -/
def Sump.ready (x : Sump) : Bool := x.state == 2

/-! ### The region table (R275 to R278) -/

/-- A region entry (SUMP_REGION_k). -/
def regionEntry (rd wr loc : Bool) (ctx base last : Nat) : BitVec 64 :=
  BitVec.ofNat 64 (2 ^ 63 + b2n rd * 2 ^ 62 + b2n wr * 2 ^ 61 + b2n loc * 2 ^ 60 + ctx % 1024 * 2 ^ 48 + last % 2 ^ 24 * 2 ^ 24 + base % 2 ^ 24)

/-- Whether an entry admits an access of a context to [off, off + n) (R275). -/
def entryAdmits (e : BitVec 64) (ctx off n : Nat) (write : Bool) : Bool :=
  bit e 63 && (if write then bit e 61 else bit e 62) && fld e 57 48 = ctx && fld e 23 0 * 4096 ≤ off
    && off + n ≤ (fld e 47 24 + 1) * 4096

/-- Whether the region table admits an access (R275). -/
def Sump.admits (x : Sump) (ctx off n : Nat) (write : Bool) : Bool := x.regions.any fun e => entryAdmits e.2 ctx off n write

/-- A refusal is counted (R277). -/
def Sump.refuse (x : Sump) (cls : BitVec 3) (ctx : Nat) : Sump :=
  { x with deny := setFld (setFld (satFld x.deny 31 16 1) 15 13 cls.toNat) 9 0 ctx }

/-! ### Retirement (R284, R286, R287) -/

/-- Whether [off, off + n) touches a retired row. -/
def Sump.retiredAt (x : Sump) (off n : Nat) : Bool :=
  x.retired.any fun u => decide (u * 32768 < off + n) && decide (off < (u + 1) * 32768)

/-- Retires a row; a stack that would need a 257th retirement is FAILED. -/
def Sump.retire (x : Sump) (unit : Nat) : Sump :=
  if x.retired.contains unit then x
  else if x.retired.length ≥ 256 then { x with status := setFld (setFld x.status 31 28 3) 15 8 0 }
  else { x with retired := x.retired ++ [unit], lost := x.lost.filter fun w => w / 4096 ≠ unit }

/-- A double-bit error of word w is recorded in SUMP_LOST; a 65th lost word retires its row (R284). -/
def Sump.lose (x : Sump) (w : Nat) : Sump :=
  if x.lost.contains w then x
  else if x.lost.length ≥ 64 then x.retire (w / 4096)
  else { x with lost := x.lost ++ [w] }

/-- A corrected single-bit error of word w (R283, R286): a row is 128 B of each of 8 stripes, keyed by its unit and pseudo-channel. -/
def Sump.correct (x : Sump) (w : Nat) : Sump :=
  let row := w / 4096 * 32 + w / 16 % 32
  let n := Tab.get 0 x.rowErrs row + 1
  { x with errs := Tab.set 0 x.errs w 0, ecc := setFld (satFld x.ecc 63 48 1) 23 0 (w / 512), rowErrs := Tab.set 0 x.rowErrs row n,
           spall := if 16 ≤ n then addOnce x.spall (w / 4096) else x.spall }

/-- A double-bit error of word w is found (R283, R284, R286). -/
def Sump.uncorrected (x : Sump) (w : Nat) : Sump :=
  let y := { x with ecc := setFld (setBit x.ecc 31 true) 23 0 (w / 512), spall := addOnce x.spall (w / 4096) }
  y.lose w

/-- Checks the words of [off, off + n): the stack after the corrections, and whether a word gave a double-bit error. -/
def Sump.check (x : Sump) (off n : Nat) : Sump × Bool :=
  ((x.errs.map Prod.fst).filter fun w => decide (8 * w < off + n) && decide (off < 8 * w + 8)).foldl
    (fun a w => if Tab.get 0 a.1.errs w = 1 then (a.1.correct w, a.2) else (a.1.uncorrected w, true)) (x, false)

/-- Reads n bytes at a stack offset (R274, R283, R284, R287): the bytes, or DATA_UE. -/
def Sump.readBytes (x : Sump) (off n : Nat) : Sump × Except (BitVec 4) (List Byte) :=
  if x.retiredAt off n then (x, .error stUe)
  else
    let (y, bad) := x.check off n
    if bad || y.lost.any (fun w => decide (8 * w < off + n) && decide (off < 8 * w + 8)) then (y, .error stUe)
    else (y, .ok (Memory.read y.mem off n))

/-- The words that [off, off + n) covers in part. -/
def partWords (off n : Nat) : List Nat :=
  ((if off % 8 = 0 && 8 ≤ n then [] else [off / 8]) ++ (if (off + n) % 8 = 0 then [] else [(off + n) / 8])).dedup

/-- Writes bytes at a stack offset (R274, R284, R287): a partial word with a double-bit error drops the write with DATA_UE, and a word
written whole leaves SUMP_LOST. -/
def Sump.writeBytes (x : Sump) (off : Nat) (bs : List Byte) : Sump × BitVec 4 :=
  if x.retiredAt off bs.length then (x, stUe)
  else
    let parts := partWords off bs.length
    if parts.any (fun w => x.lost.contains w || Tab.get 0 x.errs w = 2) then
      ((parts.filter fun w => Tab.get 0 x.errs w = 2).foldl (fun y w => y.uncorrected w) x, stUe)
    else
      let whole := fun w => decide (off ≤ 8 * w) && decide (8 * w + 8 ≤ off + bs.length)
      let y := (parts.filter fun w => Tab.get 0 x.errs w = 1).foldl (fun y w => y.correct w) x
      ({ y with mem := Memory.write y.mem off bs, lost := y.lost.filter (fun w => !whole w),
                errs := y.errs.filter fun e => !whole e.1 }, stOk)

/-- The loss of a range's errors and lost words when it is zero-filled. -/
def Sump.zeroFill (x : Sump) (off n : Nat) : Sump :=
  { x with mem := Memory.zero x.mem off n, errs := Tab.clear x.errs (off / 8) (n / 8),
           lost := x.lost.filter fun w => decide (8 * w < off) || decide (off + n ≤ 8 * w) }

/-! ### Hints (R279, R280) -/

/-- The hint buffer's lines with the least recently used one evicted. -/
def evictLru (ls : List HintLine) : List HintLine :=
  match ls with
  | [] => []
  | l :: t =>
    let m := t.foldl (fun a x => min a x.used) l.used
    match (l :: t).findIdx? (fun x => x.used = m) with
    | some i => (l :: t).eraseIdx i
    | none => t

/-- Stages a stripe for a hint. -/
def Sump.stage (x : Sump) (now stripe : Nat) (src : BitVec 15) (seq : BitVec 16) : Sump :=
  if x.hints.any (fun l => l.stripe = stripe) then x
  else
    let ls := if x.hints.length ≥ 256 then evictLru x.hints else x.hints
    { x with hints := ls ++ [{ stripe := stripe, src := src, seq := seq, taken := false, staged := now, used := now }] }

/-- A read whose bytes lie in a staged line is served from it and marks it taken. -/
def Sump.useHint (x : Sump) (now off n : Nat) : Sump :=
  if (off + n - 1) / 4096 = off / 4096 && x.hints.any (fun l => l.stripe = off / 4096) then
    let ls := x.hints.map fun l => if l.stripe = off / 4096 then { l with taken := true, used := now } else l
    { x with hints := ls, hintStat := satFld x.hintStat 63 48 1 }
  else x

/-- Whether SEQ `q` is one of `n` numbers from `a` on, modulo 65,536. -/
def seqIn (a : BitVec 16) (n : Nat) (q : BitVec 16) : Bool := (q - a).toNat < n

/-- A retract drops the untaken lines of the hint it names. -/
def Sump.retract (x : Sump) (src : BitVec 15) (seq : BitVec 16) (n : Nat) : Sump :=
  let gone := fun (l : HintLine) => !l.taken && l.src = src && seqIn seq n l.seq
  { x with hints := x.hints.filter (fun l => !gone l), hintStat := satFld x.hintStat 31 16 (x.hints.filter gone).length }

/-! ### Panel-level access to HBM by firmware and loaders -/

/-- One piece of a panel-side read with the rights of a context, or of SYS when there is none. -/
def State.hbmPiece (s : State) (ctx : Option Nat) (a n : Nat) : State × Except (BitVec 4) (List Byte) :=
  match decodeAddr a with
  | .hbm k off =>
    let x := s.sump k
    if !x.ready then (s, .error stAbsent)
    else match ctx with
      | some c =>
        if !x.admits c off n false then (s.setSump k (x.refuse 4 c), .error stRegion)
        else let (y, r) := x.readBytes off n; (s.setSump k y, r)
      | none => let (y, r) := x.readBytes off n; (s.setSump k y, r)
  | _ => (s, .error stUnmapped)

/-- Reads n bytes at an HBM address with the rights of a context (R238, R276), in pieces of 4 KiB (R271): the first failure ends it. -/
def State.hbmRead (s : State) (ctx : Option Nat) (a n : Nat) : State × Except (BitVec 4) (List Byte) :=
  (cut4k a (n / 4096 + 2) n).foldl (fun acc e =>
    match acc.2 with
    | .error st => (acc.1, .error st)
    | .ok bs =>
      match acc.1.hbmPiece ctx e.1 e.2 with
      | (t, .ok more) => (t, .ok (bs ++ more))
      | (t, .error st) => (t, .error st)) (s, .ok [])

/-- Writes bytes at an HBM address with the rights of a context (R238, R276), in pieces of 4 KiB: the first failure ends it. -/
def State.hbmWrite (s : State) (ctx : Option Nat) (a : Nat) (bs : List Byte) : State × BitVec 4 :=
  (cut4k a (bs.length / 4096 + 2) bs.length).foldl (fun acc e =>
    if acc.2 ≠ 0 then acc
    else match decodeAddr e.1 with
      | .hbm k off =>
        let x := acc.1.sump k
        if !x.ready then (acc.1, stAbsent)
        else if (match ctx with | some c => !x.admits c off e.2 true | none => false) then
          (acc.1.setSump k (x.refuse 4 (ctx.getD 0)), stRegion)
        else
          let (y, st) := x.writeBytes off ((bs.drop (e.1 - a)).take e.2)
          (acc.1.setSump k y, st)
      | _ => (acc.1, stUnmapped)) (s, stOk)

/-- Whether the region tables let a context read, or write, every byte of [a, a + n) (R275). -/
def State.hbmCovered (s : State) (ctx : Nat) (write : Bool) (a n : Nat) : Bool :=
  (cut4k a (n / 4096 + 2) n).all fun e =>
    match decodeAddr e.1 with
    | .hbm k off => (s.sump k).admits ctx off e.2 write
    | _ => false

end Sys2Proof.Machine
end

