-- ==== Sys2Proof/Machine/MapOps.lean ====
section
/-! DEFINITION. What follows from the structural map: mesh lanes and joins (R215, R216), the shape registers, validity of placements
(R31), and building a map from its defects (R15, R18). -/

namespace Sys2Proof.Machine

/-! ### Lanes (R216) -/

/-- The lane at the other end of a lane: N with S, E with W, NE with SW, NW with SE, E2 with W2. -/
def laneBack (n : Nat) : Nat :=
  match n with
  | 0 => 2
  | 1 => 3
  | 2 => 0
  | 3 => 1
  | 4 => 7
  | 5 => 6
  | 6 => 5
  | 7 => 4
  | 8 => 9
  | _ => 8

/-- The logical neighbour of a logical sett in direction d (0 north, 1 east, 2 south, 3 west). -/
def State.neighbour (s : State) (sid d : Nat) : Option Nat :=
  let n : Option Nat :=
    match d with
    | 0 => if 16 ≤ sid then some (sid - 16) else none
    | 1 => if sid % 16 < 15 then some (sid + 1) else none
    | 2 => if sid < 240 then some (sid + 16) else none
    | _ => if 0 < sid % 16 then some (sid - 1) else none
  n.filter fun k => (s.siteOfSett k).isSome

/-- The lane code that joins site a to site b in direction d, 15 for none (R216). -/
def laneOf (d a b : Nat) : Nat :=
  let ca := a % 17
  let cb := b % 17
  match d with
  | 1 => if cb = ca + 1 then 1 else if cb = ca + 2 then 8 else 15
  | 3 => if ca = cb + 1 then 3 else if ca = cb + 2 then 9 else 15
  | 2 => if cb = ca then 2 else if cb = ca + 1 then 6 else if ca = cb + 1 then 7 else 15
  | _ => if cb = ca then 0 else if cb = ca + 1 then 4 else if ca = cb + 1 then 5 else 15

/-- Whether a lane of a site is dead at either end (R216). -/
def State.laneDead (s : State) (a b lane : Nat) : Bool :=
  s.map.deadLanes.contains (a, lane) || s.map.deadLanes.contains (b, laneBack lane)

/-- A logical direction of a sett: whether the neighbour exists, whether the mesh reaches it, and the lane code. -/
def State.meshPair (s : State) (sid d : Nat) : Bool × Bool × Nat :=
  match s.siteOfSett sid, s.neighbour sid d with
  | some a, some k =>
    match s.siteOfSett k with
    | some b =>
      let lane := laneOf d a b
      (true, lane ≠ 15 && !s.laneDead a b lane, lane)
    | none => (false, false, 15)
  | _, _ => (false, false, 15)

/-- A byte of SETT_MESH_NBR. -/
def nbrByte (x : Bool × Bool × Nat) : Nat := b2n x.1 * 128 + b2n x.2.1 * 64 + x.2.2

/-- SETT_MESH_NBR of a site; 0 where no logical sett lies. -/
def State.meshNbr (s : State) (site : Nat) : BitVec 32 :=
  match s.settAt site with
  | none => 0
  | some sid =>
    BitVec.ofNat 32 (nbrByte (s.meshPair sid 0) * 2 ^ 24 + nbrByte (s.meshPair sid 1) * 2 ^ 16 + nbrByte (s.meshPair sid 2) * 2 ^ 8
      + nbrByte (s.meshPair sid 3))

/-! ### On-die joins (R215) -/

/-- Whether physical columns a and b differ by at most n. -/
def near (n a b : Nat) : Bool := a ≤ b + n && b ≤ a + n

/-- Whether the port (0 north, 1 east, 2 south, 3 west) of a logical core reaches its on-die neighbour, or its edge switch at an edge. -/
def State.joinOk (s : State) (logical d : Nat) : Bool :=
  let i := logical % 64 / 8
  let j := logical % 8
  if (d = 0 && i = 0) || (d = 1 && j = 7) || (d = 2 && i = 7) || (d = 3 && j = 0) then (s.coreAt logical).isSome
  else
    let other := if d = 0 then logical - 8 else if d = 1 then logical + 1 else if d = 2 then logical + 8 else logical - 1
    match s.coreAt logical, s.coreAt other with
    | some p, some q => near (if d % 2 = 1 then 2 else 1) (colOf p) (colOf q)
    | _, _ => false

/-- SETT_MESH_CGAP_E (d = 1) and SETT_MESH_CGAP_S (d = 2): the cores whose neighbour exists and is unreachable. -/
def State.coreGap (s : State) (site d : Nat) : BitVec 64 :=
  match s.settAt site with
  | none => 0
  | some sid =>
    BitVec.ofNat 64 (maskOf ((List.range 64).filter fun k =>
      let inside := if d = 1 then k % 8 < 7 else k < 56
      inside && (s.coreAt (64 * sid + k)).isSome && (s.coreAt (64 * sid + k + (if d = 1 then 1 else 8))).isSome
        && !s.joinOk (64 * sid + k) d))

/-! ### Building a map (R15, R16, R18) -/

/-- GAL_ROW_SHAPE of a row whose dead sites have the mask `m`: bit 16 alone when there is none; absent when dark or without a live
site. -/
def rowImage (dark : Bool) (m : Nat) : BitVec 32 :=
  let mask := if m % 2 ^ 17 = 0 then 2 ^ 16 else m % 2 ^ 17
  let live := min 16 (17 - popc 17 mask)
  if dark || live = 0 then BitVec.ofNat 32 mask else BitVec.ofNat 32 (2 ^ 31 + live * 2 ^ 24 + mask)

/-- The mask of dead sites of row r in a list of sites. -/
def rowMask (dead : List Nat) (r : Nat) : Nat := maskOf ((List.range 17).filter fun c => dead.contains (17 * r + c))

/-- The unused mask of a core row for the dead cores of a list (R18). -/
def coreRowMask (dead : List Nat) (site i : Nat) : BitVec 9 :=
  let m := maskOf ((List.range 9).filter fun j => dead.contains (72 * site + 9 * i + j))
  if m = 0 then 0x100 else BitVec.ofNat 9 m

/-- The structural map of dead sites, cores and lanes, with the meadows of a mask lit. -/
def StructMap.build (m : StructMap) (deadSites deadCores : List Nat) (deadLanes : List (Nat × Nat)) (lit : Nat) : StructMap :=
  let rows := (List.range 16).map fun r => rowImage (!lit.testBit (r / 2)) (rowMask deadSites r)
  let touched := (deadCores.map fun p => 8 * siteOf p + rowOf p).dedup
  { m with rowShape := Tab.write 0 [] 0 rows, deadLanes := deadLanes,
           coreMask := touched.foldl (fun t k => Tab.set 0x100 t k (coreRowMask deadCores (k / 8) (k % 8))) [] }

/-- The meadows lit in the present shape's rows, as a mask. -/
def State.litMask (s : State) : Nat :=
  maskOf ((List.range 8).filter fun m => s.rowPresent (2 * m) || s.rowPresent (2 * m + 1))

/-! ### Validity (R31, R22, R225) -/

/-- Whether a directory entry's placement is valid in the present shape. -/
def State.entryValid (s : State) (e : DirEntry) : Bool :=
  (if e.cores.isEmpty then (bitsOf 256 e.setts.toNat).all fun k => (s.siteOfSett k).isSome
   else e.cores.all fun k => (s.coreAt k).isSome)
  && (bitsOf 256 e.meshSet.toNat).all (fun k => (s.siteOfSett k).isSome)
  && e.pairs.all (fun q => (s.meshPair q.1 q.2).2.1)
  && e.joins.all (fun q => s.joinOk q.1 q.2)

/-! ### Shape and identity images -/

/-- The meadow of a site. -/
def meadowOf (site : Nat) : Nat := site / 17 / 2

/-- SETT_SITE_ID. -/
def State.siteId (s : State) (site : Nat) : BitVec 32 :=
  let base := meadowOf site * 2 ^ 28 + site / 17 * 2 ^ 24 + site % 17 * 2 ^ 16
  match s.settAt site with
  | some sid => BitVec.ofNat 32 (2 ^ 31 + base + sid)
  | none => BitVec.ofNat 32 base

/-- The IVR tie state of a site's PWR_STAT tells whether core row i is supplied; a dark row is listed in the map (R375). -/
def State.coreRowMap (s : State) (supplied : Bool) (site i : Nat) : BitVec 32 :=
  let n := (s.liveCores site i).length
  BitVec.ofNat 32 (b2n (supplied && 0 < n) * 2 ^ 31 + n * 2 ^ 24 + (s.coreMask site i).toNat)

/-- The number of logical cores of a sett. -/
def State.coresOf (s : State) (sid : Nat) : Nat :=
  match s.siteOfSett sid with
  | some site => (s.coresOfSite site).length
  | none => 0

end Sys2Proof.Machine
end

