-- ==== Sys2Proof/Machine/Residency.lean ====
section
/-! DEFINITION. The model directory, placement images, loads, releases and flips (R228 to R244). -/

namespace Sys2Proof.Machine

/-! ### The directory (R228 to R231) -/

/-- Directory entry h. -/
def State.entry (s : State) (h : Nat) : DirEntry := Tab.get DirEntry.reset s.dir h

/-- The state with directory entry h changed. -/
def State.modEntry (s : State) (h : Nat) (f : DirEntry → DirEntry) : State := { s with dir := Tab.mod DirEntry.reset s.dir h f }

/-- Whether a slot holds placement h. -/
def ResSlot.has (x : ResSlot) (h : Nat) : Bool := x.state ≠ .empty && x.handle.toNat = h

/-- The physical cores of a list of logical cores that exist. -/
def State.physOf (s : State) (ls : List Nat) : List Nat := ls.filterMap s.coreAt

/-- The sites of a mesh set that exist. -/
def State.meshSites (s : State) (e : DirEntry) : List Nat := (bitsOf 256 e.meshSet.toNat).filterMap s.siteOfSett

/-- WHERE of an entry: 1 while it loads, else 3 when a participating core holds it in front, 2 when one holds it in back, else 0. -/
def State.whereOf (s : State) (h : Nat) : Nat :=
  if s.fill.running.any (fun l => l.req.handle.toNat = h) then 1
  else
    let ps := s.physOf (s.entry h).cores
    if ps.any (fun p => (s.core p).frontSlot.has h) then 3
    else if ps.any (fun p => (s.core p).backSlot.has h) then 2
    else 0

/-- Word 0 of a directory entry (R230). -/
def State.dirWord0 (s : State) (h : Nat) : BitVec 64 :=
  let e := s.entry h
  if !e.valid then 0
  else BitVec.ofNat 64 (2 ^ 63 + b2n e.invalid * 2 ^ 62 + b2n e.pinned * 2 ^ 61 + s.whereOf h * 2 ^ 59 + e.ctx.toNat * 2 ^ 49 + e.img.toNat)

/-- Word 1 of a directory entry. -/
def State.dirWord1 (s : State) (h : Nat) : BitVec 64 :=
  let e := s.entry h
  if !e.valid then 0 else BitVec.ofNat 64 (e.gen.toNat * 2 ^ 32 + e.banks.toNat * 2 ^ 20 + e.ncores.toNat)

/-- Whether handle h is a VALID entry of context n (R325). -/
def State.owns (s : State) (n h : Nat) : Bool := (s.entry h).valid && (s.entry h).ctx.toNat = n

/-- The lowest free handle. -/
def freeHandle (t : Tab DirEntry) (fuel : Nat) : Nat → Option Nat
  | i => (List.range' i fuel).find? fun h => !(Tab.get DirEntry.reset t h).valid

/-! ### Images (R232 to R235) -/

/-- The little-endian number of n bytes at an offset of a byte list. -/
def leAt (bs : List Byte) (off n : Nat) : Nat := leNat ((bs.drop off).take n)

/-- The row-record position of segment i: row i / 2, west for even i, east for odd i. -/
def segAddr (hdr : List Byte) (i : Nat) : Nat := leAt hdr (0x60 + 32 * (i / 2) + 8 * (i % 2)) 8

/-- Length of segment i. -/
def segLen (hdr : List Byte) (i : Nat) : Nat := leAt hdr (0x70 + 32 * (i / 2) + 4 * (i % 2)) 4

/-- CRC of segment i. -/
def segCrc (hdr : List Byte) (i : Nat) : Nat := leAt hdr (0x78 + 32 * (i / 2) + 4 * (i % 2)) 4

/-- The home stack of segment i (R233). -/
def segHome (i : Nat) : Nat := i / 2 + 16 * (i % 2)

/-- Whether segment i is empty or keeps the rules of its home (R233). -/
def segHomeOk (hdr : List Byte) (i : Nat) : Bool :=
  segLen hdr i = 0 || (segAddr hdr i % 32 = 0 && segLen hdr i % 32 = 0 && 0x200000000000 ≤ segAddr hdr i
    && segAddr hdr i + segLen hdr i ≤ 0x220000000000 && nfld (segAddr hdr i) 40 36 = segHome i
    && nfld (segAddr hdr i + segLen hdr i - 1) 40 36 = segHome i)

/-- FORMAT, reserved bytes, BANKS and PARAM_OFF of a header (R229, R232). -/
def headerOk (hdr : List Byte) : Bool :=
  let banks := leAt hdr 0x0C 2
  let param := leAt hdr 0x10 4
  leAt hdr 0 4 = 1 && banks ≠ 0 && banks < 4096 && leAt hdr 0x0E 2 = 0 && leAt hdr 0x14 12 = 0
    && ((hdr.drop 0x260).take 416).all (· == 0)
    && (param = 0xFFFFFFFF || (param % 64 = 0 && param + 64 ≤ 0x300000 && banks.testBit (param / 0x40000)))

/-- The directory entry that a header describes. -/
def entryOf (ctx img : Nat) (hdr : List Byte) : DirEntry :=
  { valid := true, invalid := false, pinned := false, ctx := BitVec.ofNat 10 ctx, img := BitVec.ofNat 48 img,
    gen := BitVec.ofNat 32 (leAt hdr 8 4), banks := BitVec.ofNat 12 (leAt hdr 0x0C 2), ncores := BitVec.ofNat 15 (leAt hdr 4 4),
    setts := BitVec.ofNat 256 (leAt hdr 0x20 32), meshSet := BitVec.ofNat 256 (leAt hdr 0x40 32),
    param := BitVec.ofNat 32 (leAt hdr 0x10 4), cores := [], pairs := [], joins := [] }

/-- The record status of a failed fabric access (R334). -/
def fabricSt (st : BitVec 4) : Nat := st.toNat + 0x10

/-- Registers the placement whose header lies at `img` for context n (R229): the handle and the entry, or the status. -/
def State.register (s : State) (n img : Nat) : State × Except Nat Nat :=
  if (s.ctx n).isNone then (s, .error 0x06)
  else if img % 4096 ≠ 0 || !s.hbmCovered n false img 1024 then (s, .error 0x16)
  else match s.hbmRead (some n) img 1024 with
    | (t, .error st) => (t, .error (fabricSt st))
    | (t, .ok hdr) =>
      if !headerOk hdr then (t, .error 0x27)
      else if !(List.range 32).all (segHomeOk hdr) then (t, .error 0x27)
      else if !(List.range 32).all (fun i => segLen hdr i = 0 || t.hbmCovered n false (segAddr hdr i) (segLen hdr i)) then (t, .error 0x16)
      else match freeHandle t.dir 524288 0 with
        | none => (t, .error 0x0B)
        | some h =>
          let e := entryOf n img hdr
          ({ t with dir := Tab.set DirEntry.reset t.dir h { e with invalid := !t.entryValid e } }, .ok h)

/-- One step of the CRC-32 of IEEE 802.3, reflected. -/
def crcBit (c : Nat) : Nat := if c % 2 = 1 then (c / 2) ^^^ 0xEDB88320 else c / 2

/-- The CRC-32 register after a byte. -/
def crcByte (c : Nat) (b : Byte) : Nat := (List.range 8).foldl (fun x _ => crcBit x) (c ^^^ b.toNat)

/-- The CRC-32 of bytes with the IEEE 802.3 polynomial (R232). -/
def crc32 (bs : List Byte) : Nat := (bs.foldl crcByte 0xFFFFFFFF) ^^^ 0xFFFFFFFF

/-- A record of a segment (R234). -/
structure SegRec where
  kind    : Nat
  sett    : Nat
  core    : Nat
  off     : Nat
  len     : Nat
  payload : List Byte
  clean   : Bool

/-- The record that starts `bs`; `clean` when every reserved field of its header and the padding of its payload are 0. -/
def parseRec (bs : List Byte) : SegRec :=
  let w0 := leAt bs 0 8
  let w1 := leAt bs 8 8
  { kind := nfld w0 63 56, sett := nfld w0 55 48, core := nfld w0 47 42, off := nfld w0 21 0, len := nfld w1 31 0,
    payload := (bs.drop 32).take (nfld w1 31 0),
    clean := nfld w0 41 22 = 0 && nfld w1 63 32 = 0 && leAt bs 16 16 = 0
      && ((bs.drop (32 + nfld w1 31 0)).take ((nfld w1 31 0 + 31) / 32 * 32 - nfld w1 31 0)).all (· == 0) }

/-- Bytes that a record takes in its segment. -/
def SegRec.size (r : SegRec) : Nat := 32 + (r.len + 31) / 32 * 32

/-- The records of a segment's bytes, up to its END. -/
def segRecords : Nat → List Byte → List SegRec
  | 0, _ => []
  | fuel + 1, bs =>
    if bs.length < 32 then []
    else
      let r := parseRec bs
      if r.kind = 0 then [r] else r :: segRecords fuel (bs.drop r.size)

/-- The lane directions of an edge switch or port that a table of slot entries uses: some entry is VALID. -/
def anyValid (bs : List Byte) : Bool := (List.range (bs.length / 4)).any fun i => (leAt bs (4 * i) 4).testBit 31

/-- The on-die ports that a CORE_MESH payload uses (R234). -/
def portsUsed (payload : List Byte) : List Nat := (List.range 4).filter fun d => anyValid ((payload.drop (1024 * d)).take 1024)

/-! ### Claims and releases (R129, R237, R244) -/

/-- The core with its slot holding h emptied and its banks freed without clearing, in the slots that `which` selects (true front). -/
def Core.releaseSlots (c : Core) (h : Nat) (which : Bool → Bool) : Core :=
  let f0 := c.res0.has h && which (!c.sp.front)
  let f1 := c.res1.has h && which c.sp.front
  { c with res0 := if f0 then .reset else c.res0, res1 := if f1 then .reset else c.res1,
           sp := { c.sp with slot0 := if f0 then 0 else c.sp.slot0, slot1 := if f1 then 0 else c.sp.slot1 } }

/-- The state with `f` applied to every core that is not as reset. -/
def State.mapCores (s : State) (f : Nat → Core → Core) : State :=
  (s.cores.map Prod.fst).foldl (fun t p => t.modCore p (f p)) s

/-- The state with `f` applied to every sett that is not as reset. -/
def State.mapSetts (s : State) (f : Nat → Sett → Sett) : State := (s.setts.map Prod.fst).foldl (fun t i => t.modSett i (f i)) s

/-- Whether a pass that has not ended, or a launched FLIP pass, needs placement h (R244). -/
def State.needed (s : State) (h : Nat) : Bool :=
  (s.ledger.state = .launching || s.ledger.state = .running || s.ledger.state = .quiescing)
    && s.ledger.pass.any fun q => q.handle.toNat = h

/-- Releases placement h on every core and edge switch that holds it (R226, R244). -/
def State.release (s : State) (h : Nat) : State :=
  let hb := some (BitVec.ofNat 19 h)
  (s.mapCores fun _ c => c.releaseSlots h fun _ => true).mapSetts fun _ x =>
    { x with meshH0 := if x.meshH0 = hb then none else x.meshH0, meshH1 := if x.meshH1 = hb then none else x.meshH1 }

/-- Clears directory entry h after its residencies are released (R231). -/
def State.unregister (s : State) (h : Nat) : State :=
  let t := s.release h
  { t with dir := Tab.set DirEntry.reset t.dir h DirEntry.reset }

/-- Index of the back slot. -/
def Core.backIdx (c : Core) : Nat := if c.sp.front then 0 else 1

/-- Claims the banks of an entry for the back slot; every claimed bank is zero-filled (R129, R130, R237). -/
def Core.claim (c : Core) (ctx : BitVec 10) (h : Nat) (banks : BitVec 12) : Core :=
  let slot : ResSlot := { state := .claiming, ctx := ctx, handle := BitVec.ofNat 19 h, bytes := 0, image := [] }
  let x := { c.sp with on := c.sp.on ||| banks, zeroBusy := c.sp.zeroBusy ||| banks }
  if c.sp.front then { c with res0 := slot, sp := { x with slot0 := banks } } else { c with res1 := slot, sp := { x with slot1 := banks } }

/-- The core with its back slot changed. -/
def Core.modBack (c : Core) (f : ResSlot → ResSlot) : Core :=
  if c.sp.front then { c with res0 := f c.res0 } else { c with res1 := f c.res1 }

/-- The handle of the back bank of an edge switch. -/
def Sett.backHandle (x : Sett) : Option (BitVec 19) := if x.meshFront then x.meshH0 else x.meshH1

/-- The handle of the front bank of an edge switch. -/
def Sett.frontHandle (x : Sett) : Option (BitVec 19) := if x.meshFront then x.meshH1 else x.meshH0

/-- The edge switch with its back bank's handle set. -/
def Sett.setBackHandle (x : Sett) (h : Option (BitVec 19)) : Sett := if x.meshFront then { x with meshH0 := h } else { x with meshH1 := h }

/-! ### Readiness -/

/-- Whether placement h is READY in front or back of every participating core and in a bank of every edge switch of its mesh set (R34,
R225, R241). -/
def State.resident (s : State) (h : Nat) : Bool :=
  let e := s.entry h
  let hb := some (BitVec.ofNat 19 h)
  !e.cores.isEmpty
    && e.cores.all (fun l => match s.coreAt l with
      | some p => (s.core p).res0.has h && (s.core p).res0.state = .ready || (s.core p).res1.has h && (s.core p).res1.state = .ready
      | none => false)
    && (s.meshSites e).all fun i => (s.sett i).meshH0 = hb || (s.sett i).meshH1 = hb

/-- Whether some participating core holds h STALE. -/
def State.isStale (s : State) (h : Nat) : Bool :=
  (s.physOf (s.entry h).cores).any fun p =>
    (s.core p).res0.has h && (s.core p).res0.state = .stale || (s.core p).res1.has h && (s.core p).res1.state = .stale

/-- Whether some participating core, or some edge switch of the mesh set, holds h in back (R242). -/
def State.inBack (s : State) (h : Nat) : Bool :=
  (s.physOf (s.entry h).cores).any (fun p => (s.core p).backSlot.has h)
    || (s.meshSites (s.entry h)).any fun i => (s.sett i).backHandle = some (BitVec.ofNat 19 h)

/-- Whether every participating core holds h in back (R39). -/
def State.allBack (s : State) (h : Nat) : Bool :=
  (s.physOf (s.entry h).cores).all fun p => (s.core p).backSlot.has h

/-! ### Flips (R39, R226, R242) -/

/-- A core flips: the other slot is front, and no mask changes (R127). -/
def Core.flip (c : Core) : Core := { c with sp := { c.sp with front := !c.sp.front } }

/-- The cores and edge switches that hold h in back make it front (R226, R242); a pin of h lapses (R243). -/
def State.flipTo (s : State) (h : Nat) : State :=
  let hb := some (BitVec.ofNat 19 h)
  let t := (s.physOf (s.entry h).cores).foldl
    (fun t p => if (t.core p).backSlot.has h then t.modCore p Core.flip else t) s
  let u := (s.meshSites (s.entry h)).foldl
    (fun t i => if (t.sett i).backHandle = hb then t.modSett i (fun x => { x with meshFront := !x.meshFront }) else t) t
  let v := u.modEntry h fun e => { e with pinned := false }
  v.openCtxs.foldl (fun t n => t.modCtx n fun c => if c.pin = hb then { c with pin := none } else c) v

/-! ### Requests for loads (R239, R241) -/

/-- A load that ends at once or later answers its commands: CORES_READY and the bytes delivered; for a host load DATA_B the handle once
the entry exists (R325). -/
def State.answerLoads (s : State) (cs : List Cmd) (host : Bool) (h status ready bytes : Nat) : State :=
  cs.foldl (fun t c => t.complete c { cmdAnswer c status with result := BitVec.ofNat 32 ready, dataA := BitVec.ofNat 64 bytes,
                                                              dataB := if host then BitVec.ofNat 64 h else 0 }) s

/-- Whether a request joins one for the same entry. -/
def LoadReq.joins (x : LoadReq) (h : Nat) : Bool := x.handle.toNat = h

/-- A command asks for a load of entry h (R239, R241). -/
def State.requestLoad (s : State) (c : Cmd) (h : Nat) (host : Option (BitVec 48)) : State :=
  if host.isNone && s.resident h && !s.isStale h then
    s.answerLoads [c] false h 0 (s.entry h).cores.length 0
  else match s.fill.running with
    | some l =>
      if l.req.joins h then { s with fill := { s.fill with running := some { l with req := { l.req with cmds := l.req.cmds ++ [c] } } } }
      else if s.fill.queue.length ≥ 7 then s.answerLoads [c] host.isSome h 0x29 0 0
      else
        let q := s.fill.queue ++ [{ handle := BitVec.ofNat 19 h, host := host, cmds := [c], sched := false }]
        { s with fill := { s.fill with queue := q } }
    | none =>
      if s.fill.queue.length ≥ 8 then s.answerLoads [c] host.isSome h 0x29 0 0
      else
        let q := s.fill.queue ++ [{ handle := BitVec.ofNat 19 h, host := host, cmds := [c], sched := false }]
        { s with fill := { s.fill with queue := q } }

/-- The scheduler asks for a load of entry h: it joins a running load, or takes the head of the queue (R239). -/
def State.schedLoad (s : State) (h : Nat) : State :=
  match s.fill.running with
  | some l =>
    if l.req.joins h then { s with fill := { s.fill with running := some { l with req := { l.req with sched := true } } } }
    else
      let mine := s.fill.queue.filter fun q => q.joins h
      let rest := s.fill.queue.filter fun q => !q.joins h
      let head : LoadReq := { handle := BitVec.ofNat 19 h, host := (mine.filterMap LoadReq.host).head?, cmds := mine.flatMap LoadReq.cmds, sched := true }
      { s with fill := { s.fill with queue := head :: rest } }
  | none =>
    let mine := s.fill.queue.filter fun q => q.joins h
    let rest := s.fill.queue.filter fun q => !q.joins h
    let head : LoadReq := { handle := BitVec.ofNat 19 h, host := (mine.filterMap LoadReq.host).head?, cmds := mine.flatMap LoadReq.cmds, sched := true }
    { s with fill := { s.fill with queue := head :: rest } }

end Sys2Proof.Machine
end

