-- ==== Sys2Proof/Machine/Digest.lean ====
section
/-! DEFINITION. The digest table of a context (R464, R465). -/

namespace Sys2Proof.Machine

/-- The bytes of the smallest whole number of elements of `w` bits, and how many elements they hold (R61). -/
def packUnit (w : Nat) : Nat × Nat := if w = 6 then (3, 4) else if w = 4 then (1, 2) else (w / 8, 1)

/-- The element codes of `w` bits in a list of bytes, packed under R61, over at most `n` units. -/
def codesOf (w : Nat) : Nat → List Byte → List Nat
  | 0, _ => []
  | n + 1, bs =>
    let v := leNat (bs.take (packUnit w).1)
    (List.range (packUnit w).2).map (fun i => v / 2 ^ (w * i) % 2 ^ w) ++ codesOf w n (bs.drop (packUnit w).1)

/-- Whether a TYPE byte is a legal one for a digest: not an MX type. -/
def digestType (t : BitVec 8) : Bool := typeLegal t && !typeMx t

/-- Offsets 0x10 to 0x3F of a digest slot for the bytes of its tensor, or for a range that breaks the region rules (R465). -/
def digestBody (pass : BitVec 32) (t : BitVec 8) (data : Option (List Byte)) : List Byte :=
  match data with
  | none => leBytes 4 pass.toNat ++ leBytes 4 0xFFFFFFFF ++ List.replicate 40 0
  | some bs =>
    let w := (typeFmt t).width
    let codes := (codesOf w ((bs.length + (packUnit w).1 - 1) / (packUnit w).1) bs).take (8 * bs.length / w)
    let vs := codes.map (decodeVal (typeFmt t))
    let fin := vs.filter fun v => !v.isNan && !v.isInf
    let sum := fun (sq : Bool) => if fin.isEmpty then 0 else (Config.digestSum sq t bs).toNat
    leBytes 4 pass.toNat ++ leBytes 4 (vs.length - fin.length) ++ leBytes 8 fin.length ++ leBytes 8 (sum false) ++ leBytes 8 (sum true)
      ++ leBytes 4 (encodeVal .fp32 false .rne (absMax fin)).1 ++ List.replicate 12 0

/-- One slot of the digest table is filled in. -/
def State.digestSlot (s : State) (n a : Nat) (pass : BitVec 32) : State :=
  match s.hbmRead (some n) a 64 with
  | (t, .error _) => t
  | (t, .ok slot) =>
    let len := leAt slot 8 4
    let ty := BitVec.ofNat 8 (leAt slot 12 1)
    if len = 0 then t
    else
      let (u, r) := if digestType ty then t.hbmRead (some n) (leAt slot 0 8) len else (t, .error stRegion)
      let data := match r with
        | .ok bs => some bs
        | .error _ => none
      (u.hbmWrite (some n) (a + 16) (digestBody pass ty data)).1

/-- The digests of a COMPLETED pass of context n (R465). -/
def State.writeDigests (s : State) (n : Nat) (pass : BitVec 32) : State :=
  match s.ctx n with
  | none => s
  | some c => if c.digest = 0 then s else (List.range c.slots.toNat).foldl (fun t i => t.digestSlot n (c.digest.toNat + 64 * i) pass) s

/-- The handoff of a COMPLETED pass becomes due when its context has a job (R457, R458). -/
def State.handoffDue (s : State) (n : Nat) (h : BitVec 19) (pass : BitVec 32) : State :=
  match s.ctx n with
  | none => s
  | some c =>
    if c.jobId = 0 || s.ctxFenced n then s
    else
      let t := s.setCtx n (some { c with handoff := true })
      { t with span := { t.span with due := t.span.due ++ [(BitVec.ofNat 10 n, h, pass)] } }

end Sys2Proof.Machine
end

