-- ==== Sys2Proof/Machine/Array.lean ====
section
/-! DEFINITION. The tensor array: geometry of its streams, legality, cell steps, weight sets, drain and load (chapter 04). -/

namespace Sys2Proof.Machine

/-! ### Pairing and geometry (R68, R81, R85) -/

/-- The narrow floating-point element formats. -/
def Fmt.small : Fmt → Bool
  | .e4m3 | .e5m2 | .e3m2 | .e2m3 | .e2m1 => true
  | _ => false

/-- The 16-bit formats. -/
def Fmt.half : Fmt → Bool
  | .bf16 | .fp16 => true
  | _ => false

/-- Logical K elements of one cell step for operands of types `ta` and `tb`; none when they do not pair (R68, R81). -/
def pairK (ta tb : BitVec 8) (sparse : Bool) : Option Nat :=
  let fa := typeFmt ta
  let fb := typeFmt tb
  if fa.half && fb.half then (if sparse then none else some 16)
  else if fa = .int8 && fb = .int8 then (if typeMx ta = typeMx tb && !sparse then some 32 else none)
  else if fa.small && fb.small then
    some ((if fa = .e2m1 && fb = .e2m1 then 64 else 32) * (if sparse then 2 else 1))
  else none

/-- Logical K elements of a step of a weight set (R85). -/
def wsetK (t : WsetTag) : Nat :=
  if (typeFmt t.tb).half then 16
  else if typeFmt t.tb = .int8 then 32
  else (if typeFmt t.tb = .e2m1 && !t.halfk then 64 else 32) * (if t.sparse then 2 else 1)

/-- Whether a type byte is an array input that pairs with some operand (R55, R85). -/
def arrayInput (t : BitVec 8) : Bool :=
  typeLegal t && ((typeFmt t).half || (typeFmt t).small || typeFmt t == .int8)

/-- Number of A parts (R81). -/
def partsA (k wA : Nat) : Nat := if k * wA ≤ 256 then 2 else 4

/-- Bytes of one A part per step (R82). -/
def partBytesA (k wA : Nat) : Nat := k * wA / partsA k wA

/-- Stored B elements per column and step. -/
def storedK (k : Nat) (sparse : Bool) : Nat := if sparse then k / 2 else k

/-- Bytes of one B part per step (R81, R82). -/
def partBytesB (k wB : Nat) (sparse : Bool) : Nat := storedK k sparse * wB / 2

/-- The byte ranges of the A stream over `n` steps. -/
def rangesA (a : StreamWord) (k n : Nat) : List (Nat × Nat) :=
  let w := (typeFmt a.type).width
  (List.range (partsA k w)).map fun p => (a.base + p * a.pstride, n * partBytesA k w)

/-- The byte ranges of the B stream over `n` steps. -/
def rangesB (b : StreamWord) (k n : Nat) (sparse : Bool) : List (Nat × Nat) :=
  (List.range 2).map fun p => (b.base + p * b.pstride, n * partBytesB k (typeFmt b.type).width sparse)

/-- The byte range of the scales of an MX operand over `n` steps (R83). -/
def rangesS (t : BitVec 8) (base k n : Nat) : List (Nat × Nat) := if typeMx t then [(base, n * (k / 32) * 8)] else []

/-- The byte range of the metadata of `n` steps (R91). -/
def rangesM (sparse : Bool) (base k n : Nat) : List (Nat × Nat) := if sparse then [(base, n * 8 * (k / 8))] else []

/-- Bits [bit, bit + w) from a byte source, `bit` counted from byte `base` (R61). -/
def elemBits (rd : Nat → Byte) (base bit w : Nat) : Nat :=
  (leNat ((List.range ((bit % 8 + w + 7) / 8)).map fun k => rd (base + bit / 8 + k)) >>> (bit % 8)) % 2 ^ w

/-- An element for a cell step: none when its block is zero-marked (R64, R71). -/
def stepElem (t : BitVec 8) (code scale : Nat) : Option Val := if zeroMark t scale then none else some (elemVal t code scale)

/-- The K elements of row i of A at step index t (R82, R83). -/
def rowA (rd : Nat → Byte) (a : StreamWord) (sa k i t : Nat) : List (Option Val) :=
  let w := (typeFmt a.type).width
  let rows := 8 / partsA k w
  (List.range k).map fun e =>
    stepElem a.type
      (elemBits rd (a.base + i / rows * a.pstride) (t * partBytesA k w * 8 + i % rows * k * w + e * w) w)
      (if typeMx a.type then (rd (sa + (t * (k / 32) + e / 32) * 8 + i)).toNat else 127)

/-- Whether every A block of row i at step index t is zero-marked (R92). -/
def rowAZero (rd : Nat → Byte) (a : StreamWord) (sa k i t : Nat) : Bool :=
  (List.range (k / 32)).all fun b => zeroMark a.type (rd (sa + (t * (k / 32) + b) * 8 + i)).toNat

/-- The stored elements of column j of B at step s, each with its logical position in the step (R82, R83, R90, R91). -/
def colB (rdB rdS rdM : Nat → Byte) (part1 : Nat) (tb : BitVec 8) (k : Nat) (sparse : Bool) (j s : Nat) : List (Nat × Option Val) :=
  let w := (typeFmt tb).width
  let sk := storedK k sparse
  (List.range sk).map fun e =>
    let pos :=
      if sparse then
        let nib := (rdM ((8 * s + j) * (k / 8) + e / 4)).toNat >>> (4 * (e / 2 % 2))
        4 * (e / 2) + (nib >>> (2 * (e % 2))) % 4
      else e
    let blk := if sparse then e / 16 else e / 32
    (pos, stepElem tb (elemBits rdB (if j < 4 then 0 else part1) (s * partBytesB k w sparse * 8 + j % 4 * sk * w + e * w) w)
      (if typeMx tb then (rdS ((s * (k / 32) + blk) * 8 + j)).toNat else 127))

/-- The pairs that a cell step multiplies: zero-marked blocks give none (R71, R90). -/
def stepPairs (a : List (Option Val)) (b : List (Nat × Option Val)) : List (Val × Val) :=
  b.filterMap fun e =>
    match a[e.1]?, e.2 with
    | some (some x), some y => some (x, y)
    | _, _ => none

/-! ### The cell step (R69 to R72) -/

/-- A finite value truncated to a multiple of 2^q, with its sign (R70). -/
def truncTo (q : Int) : Val → Int
  | .fin n m e => let k : Int := roundMag m e q .rtz; if n then -k else k
  | _ => 0

/-- The largest floor(log2) over finite non-zero values. -/
def topExp : List Val → Option Int
  | [] => none
  | .fin _ m e :: t =>
    match topExp t with
    | none => some (ilog m e)
    | some x => some (max x (ilog m e))
  | _ :: t => topExp t

/-- One floating-point cell step: the FP32 code of the result and the flags (R69 to R71). `acc` is none when there is no accumulator
term (R84). -/
def cellStep (acc : Option Nat) (ps : List (Val × Val)) : Nat × Nat :=
  let av := acc.map (decodeVal .fp32)
  let prods := ps.map fun p => mulV p.1 p.2
  let terms := prods ++ av.toList
  let nanIn := ps.any (fun p => p.1.isNan || p.2.isNan) || av.any Val.isNan
  if nanIn then (Fmt.fp32.nanCode, fNanIn)
  else if terms.any Val.isNan || (terms.any (fun t => t = .inf true) && terms.any (fun t => t = .inf false)) then
    (Fmt.fp32.nanCode, fNanGen)
  else if terms.any (fun t => t = .inf false) then (0x7F800000, 0)
  else if terms.any (fun t => t = .inf true) then (0xFF800000, 0)
  else
    match topExp (terms.filter fun t => !t.isZero) with
    | none => (if !terms.isEmpty && terms.all Val.neg then 0x80000000 else 0, 0)
    | some e =>
      let q := e - 40
      encodeVal .fp32 false .rne (.ofInt (((terms.filter fun t => !t.isZero).map (truncTo q)).foldl (· + ·) 0) q false)

/-- The exact integer of a finite integer value. -/
def intOf (v : Val) : Int := truncTo 0 v

/-- One INT8 cell step: the INT32 code of the result and the flags (R72). -/
def cellStepInt (acc : Nat) (ps : List (Val × Val)) : Nat × Nat :=
  let z := sgn 32 acc + (ps.map fun p => intOf p.1 * intOf p.2).foldl (· + ·) 0
  if z > 2147483647 then (0x7FFFFFFF, fIntSat) else if z < -2147483648 then (0x80000000, fIntSat) else (wrapN 32 z, 0)

/-- Whether an operand pair accumulates in INT32 (R68). -/
def intAcc (ta : BitVec 8) : Bool := typeFmt ta == .int8 && !typeMx ta

/-- A running entry and flags through a list of executed steps (R84). -/
def runSteps (int : Bool) (start : Option Nat) : List (List (Val × Val)) → Option Nat × Nat
  | [] => (start, 0)
  | ps :: t =>
    let (r, fl) := if int then cellStepInt (start.getD 0) ps else cellStep start ps
    let (r2, fl2) := runSteps int (some r) t
    (r2, fl ||| fl2)

/-! ### The accumulator store (R93 to R95) -/

/-- An accumulator entry's code. -/
def CoreUnits.accGet (u : CoreUnits) (n : Nat) : Nat := (Tab.get 0 u.acc n).toNat

/-- Writes an accumulator entry. -/
def CoreUnits.accSet (u : CoreUnits) (n v : Nat) : CoreUnits :=
  { u with acc := Tab.set 0 u.acc n (BitVec.ofNat 32 v), accErr := Tab.set 0 u.accErr n 0 }

/-- Reads entries through their ECC (R95): the first entry with a double-bit error, if any. -/
def CoreUnits.accCheck (u : CoreUnits) (lo n : Nat) : CoreUnits × Option Nat :=
  ((u.accErr.map Prod.fst).filter fun i => decide (lo ≤ i) && decide (i < lo + n)).foldl
    (fun (a : CoreUnits × Option Nat) i =>
      if Tab.get 0 a.1.accErr i = 1 then
        ({ a.1 with accErr := Tab.set 0 a.1.accErr i 0, accEcc := setFld (satFld a.1.accEcc 31 16 1) 13 0 i }, a.2)
      else ({ a.1 with accEcc := setFld (setBit a.1.accEcc 15 true) 13 0 i }, some (a.2.getD i))) (u, none)

/-! ### The operations -/

/-- What an operation did to a core, or the trap that stopped it. -/
inductive UnitRes where
  | ok (c : Core)
  | trap (c : Core) (cause addr : Nat)
  deriving DecidableEq, Repr

/-- Reads scratchpad ranges for a unit of the core: a double-bit error traps (R150). -/
def Core.readOr (c : Core) (ranges : List (Nat × Nat)) (k : Core → UnitRes) : UnitRes :=
  let (x, bad) := c.sp.check ranges
  match bad with
  | some a => .trap { c with sp := x } trSpUe a
  | none => k { c with sp := x }

/-- Reads accumulator entries for a unit of the core: a double-bit error traps (R95). -/
def Core.accOr (c : Core) (lo n : Nat) (k : Core → UnitRes) : UnitRes :=
  let (u, bad) := c.units.accCheck lo n
  match bad with
  | some _ => .trap { c with units := u } trAccUe 0
  | none => k { c with units := u }

/-- The scratchpad as a byte source. -/
def Core.rd (c : Core) (base : Nat) : Nat → Byte := fun a => Tab.get 0 c.sp.mem (base + a)

/-- Writes the results of entries: (entry index, start, steps). -/
def Core.runEntries (c : Core) (int : Bool) (es : List (Nat × Option Nat × List (List (Val × Val)))) : Core :=
  es.foldl (fun d e =>
    let (r, fl) := runSteps int e.2.1 e.2.2
    ({ d with units := d.units.accSet e.1 (r.getD 0) }).raise fl) c

/-- The entries (i, j) of a tile. -/
def tileIdx : List (Nat × Nat) := (List.range 64).map fun n => (n / 8, n % 8)

/-- The bytes of part p of A in step t (R82). -/
def stepBytesA (a : StreamWord) (k t p : Nat) : Nat × Nat :=
  let n := partBytesA k (typeFmt a.type).width
  (a.base + p * a.pstride + t * n, n)

/-- The A, B and metadata bytes of the executed steps of an MMA.OS; a skipped step reads none (R92). -/
def osRanges (a b : StreamWord) (md k : Nat) (sparse : Bool) (run : List Nat) : List (Nat × Nat) :=
  let nb := partBytesB k (typeFmt b.type).width sparse
  run.flatMap fun t =>
    ((List.range (partsA k (typeFmt a.type).width)).map (stepBytesA a k t))
      ++ ((List.range 2).map fun p => (b.base + p * b.pstride + t * nb, nb)) ++ (if sparse then [(md + t * k, k)] else [])

/-- MMA.OS (R84, R92). -/
def Core.mmaOs (c : Core) (tile steps : Nat) (a b : StreamWord) (sa sb md : Nat) (clear sparse zskip : Bool) : UnitRes :=
  match pairK a.type b.type sparse with
  | none => .ok c
  | some k =>
    c.readOr (rangesS a.type sa k steps ++ rangesS b.type sb k steps) fun c =>
    let run := (List.range steps).filter fun s => !(zskip && (List.range 8).all fun i => rowAZero (c.rd 0) a sa k i s)
    c.readOr (if zskip then osRanges a b md k sparse run
      else rangesA a k steps ++ rangesB b k steps sparse ++ rangesM sparse md k steps) fun c =>
    (if clear then fun k => k c else c.accOr (64 * tile) 64) fun c =>
    let rd := c.rd 0
    let rows := (List.range 8).map fun i => run.map fun s => rowA rd a sa k i s
    let cols := (List.range 8).map fun j => run.map fun s => colB (c.rd b.base) (c.rd sb) (c.rd md) b.pstride b.type k sparse j s
    let es := tileIdx.map fun ij =>
      (64 * tile + 8 * ij.1 + ij.2, if clear then none else some (c.units.accGet (64 * tile + 8 * ij.1 + ij.2)),
        ((rows[ij.1]?.getD []).zip (cols[ij.2]?.getD [])).map fun p => stepPairs p.1 p.2)
    let d := c.runEntries (intAcc a.type) es
    .ok { d with units := { d.units with arrMode := false, arrSteps := d.units.arrSteps + BitVec.ofNat 64 run.length,
                                         arrSkips := d.units.arrSkips + BitVec.ofNat 64 (steps - run.length) } }

/-- A loaded weight set. -/
def CoreUnits.wset (u : CoreUnits) (w : Bool) : Option Wset := if w then u.wset1 else u.wset0

/-- The A bytes of the executed rows of an MMA.WS, over the 8 steps of each row's group; a skipped row reads none (R92). -/
def wsRanges (a : StreamWord) (k : Nat) (run : List Nat) : List (Nat × Nat) :=
  let w := (typeFmt a.type).width
  let per := 8 / partsA k w
  run.flatMap fun m => (List.range 8).map fun s =>
    ((stepBytesA a k (8 * (m / 8) + s) (m % 8 / per)).1 + m % 8 % per * (k * w / 8), k * w / 8)

/-- MMA.WS (R86, R92): row m runs 8 steps of the weight set. -/
def Core.mmaWs (c : Core) (tile rows : Nat) (w : Bool) (a : StreamWord) (sa : Nat) (clear zskip : Bool) : UnitRes :=
  match c.units.wset w with
  | none => .ok c
  | some ws =>
    let k := wsetK ws.tag
    let n := 8 * ((rows + 7) / 8)
    c.readOr (rangesS a.type sa k n) fun c =>
    let run := (List.range rows).filter fun m =>
      !(zskip && (List.range 8).all fun s => rowAZero (c.rd 0) a sa k (m % 8) (8 * (m / 8) + s))
    c.readOr (if zskip then wsRanges a k run else rangesA a k n) fun c =>
    (if clear then fun k => k c else c.accOr (64 * tile) (8 * rows)) fun c =>
    let rd := c.rd 0
    let p0 := ws.part0.length
    let bytes := ws.part0 ++ ws.part1
    let col := fun j => (List.range 8).map fun s =>
      colB (fun x => bytes.getD x 0) (fun x => ws.scales.getD x 0) (fun x => ws.metaB.getD x 0) p0 ws.tag.tb k ws.tag.sparse j s
    let cols := (List.range 8).map col
    let es := (List.range rows).flatMap fun m => (List.range 8).map fun j =>
      let e := 64 * (tile + m / 8) + 8 * (m % 8) + j
      let steps := if run.contains m then (List.range 8).map fun s => rowA rd a sa k (m % 8) (8 * (m / 8) + s) else []
      (e, if clear then none else some (c.units.accGet e), (steps.zip (cols[j]?.getD [])).map fun p => stepPairs p.1 p.2)
    let d := c.runEntries (intAcc a.type) es
    .ok { d with units := { d.units with arrMode := true, arrSteps := d.units.arrSteps + BitVec.ofNat 64 run.length,
                                         arrSkips := d.units.arrSkips + BitVec.ofNat 64 (rows - run.length) } }

/-- WLOAD (R85). -/
def Core.wload (c : Core) (w : Bool) (b : StreamWord) (sb md : Nat) (sparse halfk : Bool) : UnitRes :=
  let tag : WsetTag := { tb := b.type, sparse := sparse, halfk := halfk }
  let k := wsetK tag
  let rs := rangesB b k 8 sparse ++ rangesS b.type sb k 8 ++ rangesM sparse md k 8
  c.readOr rs fun c =>
    let pb := 8 * partBytesB k (typeFmt b.type).width sparse
    let ws : Wset :=
      { tag := tag, part0 := Memory.read c.sp.mem b.base pb, part1 := Memory.read c.sp.mem (b.base + b.pstride) pb,
        metaB := if sparse then Memory.read c.sp.mem md (64 * (k / 8)) else [],
        scales := if typeMx b.type then Memory.read c.sp.mem sb (64 * (k / 32)) else [] }
    .ok { c with units := if w then { c.units with wset1 := some ws } else { c.units with wset0 := some ws } }

/-- The byte ranges of tiles of `size` bytes. -/
def tileRanges (base stride ntiles size : Nat) : List (Nat × Nat) := (List.range ntiles).map fun k => (base + k * stride, size)

/-- ACC.LOAD (R98). -/
def Core.accLoad (c : Core) (tile ntiles src sstride : Nat) : UnitRes :=
  c.readOr (tileRanges src sstride ntiles 256) fun c =>
    .ok { c with units := (List.range (64 * ntiles)).foldl (fun u n =>
      u.accSet (64 * tile + n) (leNat (Memory.read c.sp.mem (src + n / 64 * sstride + 4 * (n % 64)) 4))) c.units }

/-- Elements of `w` bits packed under R61. -/
def packBits (w : Nat) : List Nat → Nat
  | [] => 0
  | x :: t => x % 2 ^ w + packBits w t * 2 ^ w

/-- The drained code of one entry and its flags, with the row scales of its row and column when they are used (R66, R67, R97). -/
def drainVal (f : Fmt) (accInt : Bool) (rs : Option (Val × Val)) (nonsat : Bool) (r : Rnd) (code : Nat) : Nat × Nat :=
  let v := if accInt then decodeVal .int32 code else decodeVal .fp32 code
  match rs with
  | some (x, y) =>
    let prod := mulV (mulV x y) v
    let (c, fl) := encodeVal f nonsat .rne prod
    (c, fl ||| (if x.isNan || y.isNan || v.isNan then fNanIn else if prod.isNan then fNanGen else 0))
  | none =>
    if (accInt && f = .int32) || (!accInt && f = .fp32) then (code, 0)
    else
      let (c, fl) := encodeVal f nonsat r v
      (c, fl ||| (if v.isNan then fNanIn else 0))

/-- Whether a drain rounds, and so draws when its mode is stochastic (R67, R76, R97). -/
def drainRounds (f : Fmt) (accInt rs : Bool) : Bool :=
  !rs && (if accInt then !f.isInt else f != .fp32)

/-- Drains one tile: its bytes, the flags and the generators (R76, R96). -/
def Core.drainTile (c : Core) (t k : Nat) (f : Fmt) (accInt : Bool) (rsa rsb : Option Nat) (mode : Nat) (nonsat : Bool) :
    List Nat × Nat × Tab (BitVec 64) :=
  (List.range 64).foldl (fun (a : List Nat × Nat × Tab (BitVec 64)) n =>
    let fac := fun (b : Option Nat) (x : Nat) => match b with
      | some base => decodeVal .fp32 (leNat (Memory.read c.sp.mem (base + 4 * x) 4))
      | none => Val.one
    let rs := if rsa.isSome || rsb.isSome then some (fac rsa (n / 8), fac rsb (n % 8)) else none
    let (r, g) := if drainRounds f accInt rs.isSome then pickRnd mode c.num.seed a.2.2 ((64 * k + n) % 128) else (.rne, a.2.2)
    let (code, fl) := drainVal f accInt rs nonsat r (c.units.accGet (64 * t + n))
    (a.1 ++ [code], a.2.1 ||| fl, g)) ([], 0, c.num.gens)

/-- DRAIN (R96, R97): tiles in order, each written after it is read; CLEAR then zeroes it. -/
def Core.drain (c : Core) (numCtrl : BitVec 32) (tile ntiles dest dstride : Nat) (td : BitVec 8) (rnd : BitVec 2)
    (accInt rsaEn rsbEn rsAdv clear : Bool) (rsa rsb : Nat) : UnitRes :=
  let f := typeFmt td
  c.readOr ((if rsaEn then [(rsa, if rsAdv then 32 else 32 * ntiles)] else [])
      ++ (if rsbEn then [(rsb, if rsAdv then 32 * ntiles else 32)] else [])) fun c =>
  c.accOr (64 * tile) (64 * ntiles) fun c =>
    .ok ((List.range ntiles).foldl (fun d k =>
      let (codes, fl, g) := d.drainTile (tile + k) k f accInt
        (if rsaEn then some (rsa + (if rsAdv then 0 else 32 * k)) else none)
        (if rsbEn then some (rsb + (if rsAdv then 32 * k else 0)) else none)
        (rndMode rnd.toNat numCtrl) (bit numCtrl 1)
      let d := { d with sp := d.sp.store (dest + k * dstride) (leBytes (8 * f.width) (packBits f.width codes)),
                        num := { d.num with gens := g } }
      let d := d.raise fl
      if clear then { d with units := (List.range 64).foldl (fun u n => u.accSet (64 * (tile + k) + n) 0) d.units } else d) c)

/-- Runs an issued array operation (R79). -/
def Core.runArr (c : Core) (o : ArrOp) : UnitRes :=
  match o.kind with
  | .mmaOs tile steps a b sa sb md clear sparse zskip => c.mmaOs tile steps a b sa sb md clear sparse zskip
  | .mmaWs tile rows w a sa clear zskip => c.mmaWs tile rows w a sa clear zskip
  | .wload w b sb md sparse halfk => c.wload w b sb md sparse halfk
  | .accLoad tile ntiles src sstride => c.accLoad tile ntiles src sstride
  | .drain tile ntiles dest dstride td rnd accInt rsaEn rsbEn rsAdv clear rsa rsb =>
    c.drain o.numCtrl tile ntiles dest dstride td rnd accInt rsaEn rsbEn rsAdv clear rsa rsb

/-! ### Issue checks (R80 to R83, R96, R98, R132) -/

/-- A legal stream base and stride (R83). -/
def streamAligned (x : StreamWord) : Bool := x.base % 32 == 0 && x.pstride % 32 == 0

/-- The ranges an array operation reads or writes: WRITE for the drain's destination (R132), each as its parts. None when the
operation is illegal (R80). `plan` is what the named weight set will hold in issue order (R85). -/
def arrRanges (plan : Option WsetTag) : ArrKind → Option (List (List (Nat × Nat) × Bool))
  | .mmaOs tile steps a b sa sb md _ sparse zskip =>
    match pairK a.type b.type sparse with
    | none => none
    | some k =>
      if !(arrayInput a.type && arrayInput b.type && streamAligned a && streamAligned b)
        || (zskip && !typeZs a.type) || (typeMx a.type && sa % 8 ≠ 0) || (typeMx b.type && sb % 8 ≠ 0)
        || (sparse && md % 8 ≠ 0) || tile > 255 then none
      else some [(rangesA a k steps, false), (rangesB b k steps sparse, false), (rangesS a.type sa k steps, false),
        (rangesS b.type sb k steps, false), (rangesM sparse md k steps, false)]
  | .mmaWs tile rows _ a sa _ zskip =>
    match plan with
    | none => none
    | some t =>
      let ok := match pairK a.type t.tb t.sparse with
        | none => false
        | some _ => typeFmt t.tb != .e2m1 || (t.halfk != (typeFmt a.type == .e2m1))
      if !ok || !arrayInput a.type || !streamAligned a || (zskip && !typeZs a.type) || (typeMx a.type && sa % 8 ≠ 0)
        || tile + (rows + 7) / 8 > 256 then none
      else some [(rangesA a (wsetK t) (8 * ((rows + 7) / 8)), false), (rangesS a.type sa (wsetK t) (8 * ((rows + 7) / 8)), false)]
  | .wload _ b sb md sparse halfk =>
    let k := wsetK { tb := b.type, sparse := sparse, halfk := halfk }
    if !arrayInput b.type || !streamAligned b || (sparse && !(typeFmt b.type).small) || (halfk && typeFmt b.type ≠ .e2m1)
      || (typeMx b.type && sb % 8 ≠ 0) || (sparse && md % 8 ≠ 0) then none
    else some [(rangesB b k 8 sparse, false), (rangesS b.type sb k 8, false), (rangesM sparse md k 8, false)]
  | .accLoad tile ntiles src sstride =>
    if tile + ntiles > 256 || src % 32 ≠ 0 || sstride % 32 ≠ 0 || sstride < 256 then none
    else some [(tileRanges src sstride ntiles 256, false)]
  | .drain tile ntiles dest dstride td _ _ rsaEn rsbEn rsAdv _ rsa rsb =>
    let size := 8 * (typeFmt td).width
    if !typeLegal td || bit td 7 || bit td 6 || bit td 5 || typeFmt td = .e8m0 || tile + ntiles > 256 || dest % 32 ≠ 0
      || dstride % 32 ≠ 0 || dstride < size || (rsaEn && rsa % 32 ≠ 0) || (rsbEn && rsb % 32 ≠ 0) then none
    else some [(tileRanges dest dstride ntiles size, true),
      (if rsaEn then [(rsa, if rsAdv then 32 else 32 * ntiles)] else [], false),
      (if rsbEn then [(rsb, if rsAdv then 32 * ntiles else 32)] else [], false)]

end Sys2Proof.Machine
end

