-- ==== Sys2Proof/Machine/Vector.lean ====
section
/-! DEFINITION. The vector engine: chain descriptors and their legality, streams, stages, reductions, summaries and output
(chapter 05). -/

namespace Sys2Proof.Machine

/-! ### Descriptors (R102 to R108) -/

/-- A stream descriptor (R104). -/
structure VStream where
  en     : Bool
  type   : BitVec 8
  layout : Nat
  base   : Nat
  stride : Nat
  np     : Nat
  kcode  : Nat
  gsteps : Nat
  pstride : Nat
  sbase  : Nat
  rsvd   : Nat
  deriving DecidableEq, Repr

/-- A vector descriptor (R107). -/
structure VVec where
  en   : Bool
  type : BitVec 8
  post : Nat
  base : Nat
  rsvd : Nat
  deriving DecidableEq, Repr

/-- A stage word (R108). -/
structure VStage where
  op    : Nat
  a     : Nat
  b     : Nat
  c     : Nat
  raxis : Nat
  rscope : Nat
  rop   : Nat
  srnd  : Nat
  stype : BitVec 8
  rsvd  : Nat
  deriving DecidableEq, Repr

/-- A chain descriptor taken apart (R102, R103). -/
structure VDesc where
  trows  : Nat
  tcols  : Nat
  lastr  : Nat
  lastc  : Nat
  sumk   : Nat
  ureg   : Nat
  rnd    : Nat
  mode16 : Bool
  fmt16  : Bool
  rsvd   : Nat
  rowv   : VVec
  colv   : VVec
  red    : VVec
  ins    : List VStream
  out    : VStream
  ks     : List Nat
  stages : List VStage
  deriving DecidableEq, Repr

/-- A stream descriptor from its 128 bits. -/
def vStream (x : Nat) : VStream :=
  { en := x.testBit 0, type := BitVec.ofNat 8 (nfld x 20 13), layout := nfld x 22 21, base := nfld x 44 23, stride := nfld x 66 45,
    np := 2 ^ nfld x 68 67, kcode := nfld x 70 69, gsteps := nfld x 83 71, pstride := nfld x 105 84, sbase := nfld x 127 106,
    rsvd := nfld x 12 1 }

/-- A vector descriptor from its 64 bits; bits [31:1] are reserved (R107). -/
def vVec (x : Nat) : VVec :=
  { en := x.testBit 0, type := BitVec.ofNat 8 (nfld x 39 32), post := nfld x 41 40, base := nfld x 63 42, rsvd := nfld x 31 1 }

/-- A stage word from its 64 bits. -/
def vStage (x : Nat) : VStage :=
  { op := nfld x 63 56, a := nfld x 55 52, b := nfld x 51 48, c := nfld x 47 44, raxis := nfld x 43 42, rscope := nfld x 41 41,
    rop := nfld x 40 39, srnd := nfld x 38 37, stype := BitVec.ofNat 8 (nfld x 36 29), rsvd := nfld x 28 0 }

/-- A chain descriptor from its 192 bytes (R102). -/
def vDesc (bytes : List Byte) : VDesc :=
  let n := leNat bytes
  let w := fun off size => nfld n (8 * off + 8 * size - 1) (8 * off)
  let h := w 0 8
  { trows := nfld h 63 52 + 1, tcols := nfld h 51 40 + 1, lastr := nfld h 39 37 + 1, lastc := nfld h 36 34 + 1,
    sumk := nfld h 30 28, ureg := nfld h 27 25, rnd := nfld h 24 23, mode16 := h.testBit 22, fmt16 := h.testBit 21,
    rsvd := nfld h 20 0 + w 0x70 16,
    rowv := vVec (w 8 8), colv := vVec (w 0x10 8), red := vVec (w 0x18 8),
    ins := [vStream (w 0x20 16), vStream (w 0x30 16), vStream (w 0x40 16)], out := vStream (w 0x50 16),
    ks := (List.range 4).map fun k => w (0x60 + 4 * k) 4,
    stages := (List.range (nfld h 33 31 + 1)).map fun k => vStage (w (0x80 + 8 * k) 8) }

/-- Active rows of the run. -/
def VDesc.rows (d : VDesc) : Nat := 8 * (d.trows - 1) + d.lastr

/-- Active columns of the run. -/
def VDesc.cols (d : VDesc) : Nat := 8 * (d.tcols - 1) + d.lastc

/-- Whether lane (i, j) of tile k is active (R102). -/
def VDesc.active (d : VDesc) (k i j : Nat) : Bool :=
  decide (8 * (k / d.tcols) + i < d.rows) && decide (8 * (k % d.tcols) + j < d.cols)

/-! ### Element positions (R105, R106) -/

/-- Elements per row per step of a STEP stream. -/
def VStream.kstep (x : VStream) : Nat := 16 * 2 ^ x.kcode

/-- Element width of a stream. -/
def VStream.width (x : VStream) : Nat := (typeFmt x.type).width

/-- Bit position of element (r, c) of a stream, in bits from offset 0 (R105). -/
def VStream.pos (x : VStream) (tcols r c : Nat) : Nat :=
  let b := x.width
  let per := 8 / x.np
  let p := r % 8 / per
  let q := r % 8 % per
  8 * (x.base + p * x.pstride) +
    (if x.layout = 0 then 8 * (r / 8 * tcols + c / 8) * x.stride + q * 8 * b + c % 8 * b
     else if x.layout = 1 then 8 * ((r / 8 * per + q) * x.stride) + c * b
     else (r / 8 * x.gsteps + c / x.kstep) * (per * x.kstep * b) + q * x.kstep * b + c % x.kstep * b)

/-- Offset of the scale of row r, column c (R106). -/
def VStream.scalePos (x : VStream) (tcols r c : Nat) : Nat :=
  if x.layout = 2 then x.sbase + (r / 8 * x.gsteps * (x.kstep / 32) + c / 32) * 8 + r % 8
  else x.sbase + r * (tcols / 4) + c / 32

/-- The byte ranges that a stream touches: per tile and active row, its active columns. -/
def VDesc.touches (d : VDesc) (x : VStream) : List (Nat × Nat) :=
  if !x.en then []
  else (List.range (d.trows * d.tcols)).flatMap fun k =>
    ((List.range 8).filter fun i => d.active k i 0).map fun i =>
      let r := 8 * (k / d.tcols) + i
      let c := 8 * (k % d.tcols)
      let n := ((List.range 8).filter fun j => d.active k i j).length
      (x.pos d.tcols r c / 8, (n * x.width + 7) / 8)

/-- The scale bytes that an MX stream touches. -/
def VDesc.scaleTouches (d : VDesc) (x : VStream) : List (Nat × Nat) :=
  if !x.en || !typeMx x.type then []
  else (List.range d.rows).flatMap fun r => (List.range (d.cols / 32)).map fun n => (x.scalePos d.tcols r (32 * n), 1)

/-- The bytes that a broadcast vector of `n` elements touches. -/
def VVec.touches (v : VVec) (n : Nat) : List (Nat × Nat) := if v.en then [(v.base, n * ((typeFmt v.type).width / 8))] else []

/-- The reducing stage, if the chain has one (R109). -/
def VDesc.reducer (d : VDesc) : Option VStage := d.stages.find? fun s => s.raxis ≠ 0

/-- Indexes of the RED elements of one tile that have an active lane (R113). -/
def VDesc.redIdx (d : VDesc) (s : VStage) (k : Nat) : List Nat :=
  let base := if s.rscope = 0 then 8 * k else if s.raxis = 1 then 8 * (k / d.tcols) else 8 * (k % d.tcols)
  ((List.range 8).filter fun x => if s.raxis = 1 then d.active k x 0 else d.active k 0 x).map fun x => base + x

/-- The bytes that RED touches. -/
def VDesc.redTouches (d : VDesc) : List (Nat × Nat) :=
  match d.reducer with
  | none => []
  | some s =>
    let w := (typeFmt d.red.type).width / 8
    (List.range (d.trows * d.tcols)).flatMap fun k => (d.redIdx s k).map fun e => (d.red.base + e * w, w)

/-! ### Legality (R100, R109, R121, R122) -/

/-- Number of operands of a stage operation; none for a reserved code (R111). -/
def opArity (op : Nat) : Option Nat :=
  if op = 4 || op = 9 || op = 10 then some 3
  else if (1 ≤ op && op ≤ 3) || op = 5 || op = 6 || (11 ≤ op && op ≤ 13) || op = 16 then some 2
  else if op = 0 || op = 7 || op = 8 || op = 14 || op = 15 || op = 17 || (0x20 ≤ op && op ≤ 0x27) || op = 0x30 then some 1
  else none

/-- Whether two lists of byte ranges share a byte. -/
def overlaps (xs ys : List (Nat × Nat)) : Bool :=
  match hull xs false, hull ys false with
  | [(a, b, _)], [(c, d, _)] =>
    decide (a ≤ d) && decide (c ≤ b) &&
      xs.any fun x => x.2 ≠ 0 && ys.any fun y => y.2 ≠ 0 && decide (x.1 < y.1 + y.2) && decide (y.1 < x.1 + x.2)
  | _, _ => false

/-- Whether a source code may be used in a stage (R109). -/
def VDesc.srcOk (d : VDesc) (first : Bool) (code : Nat) : Bool :=
  match code with
  | 0 => !first
  | 1 | 2 | 3 => (d.ins.getD (code - 1) d.out).en
  | 4 => d.rowv.en
  | 5 => d.colv.en
  | 6 | 7 | 8 | 9 | 10 => true
  | _ => false

/-- Whether a stage word is legal (R108, R109, R111). -/
def VDesc.stageOk (d : VDesc) (first : Bool) (s : VStage) : Bool :=
  s.rsvd = 0 && s.raxis ≠ 3 && (s.raxis ≠ 0 || (s.rscope = 0 && s.rop = 0)) &&
  match opArity s.op with
  | none => false
  | some n =>
    d.srcOk first s.a && (if 2 ≤ n then d.srcOk first s.b else s.b = 0) && (if n = 3 then d.srcOk first s.c else s.c = 0) &&
    (if s.op = 0x30 then typeLegal s.stype && !bit s.stype 7 && !bit s.stype 6 && !bit s.stype 5 && typeFmt s.stype ≠ .e8m0
     else s.stype = 0 && s.srnd = 0)

/-- Whether a stream is legal (R104 to R106). -/
def VDesc.streamOk (d : VDesc) (isOut : Bool) (x : VStream) : Bool :=
  x.rsvd = 0 && (!x.en ||
    (typeLegal x.type && !typeRs x.type && (!isOut || typeFmt x.type ≠ .e8m0) && x.layout ≠ 3 && x.kcode ≠ 3
      && x.base % 32 = 0 && x.stride % 32 = 0 && x.pstride % 32 = 0
      && (x.layout ≠ 2 || (1 ≤ x.gsteps && x.gsteps ≤ 4096 && 8 * d.tcols ≤ x.gsteps * x.kstep))
      && (!typeMx x.type || (d.tcols % 4 = 0 && d.lastc = 8 && (x.layout ≠ 2 || x.kcode ≠ 0) && x.sbase % 8 = 0))
      && (d.touches x).all (fun r => inPad r.1 r.2) && (d.scaleTouches x).all fun r => inPad r.1 r.2))

/-- Whether a vector descriptor is legal (R107). -/
def VVec.ok (v : VVec) (isRed : Bool) (n : Nat) : Bool :=
  v.rsvd = 0 && (isRed || v.post = 0) &&
    (!v.en || ((v.type = 0 || v.type = 1 || v.type = 2) && v.base % 32 = 0 && (v.touches n).all fun r => inPad r.1 r.2))

/-- Whether OUT coincides exactly with an input stream (R121). -/
def VStream.same (x y : VStream) : Bool :=
  x.base = y.base && x.layout = y.layout && x.stride = y.stride && x.np = y.np && x.pstride = y.pstride && x.gsteps = y.gsteps
    && x.kcode = y.kcode && x.width = y.width

/-- Whether a chain may issue (R122). -/
def VDesc.ok (d : VDesc) : Bool :=
  d.rsvd = 0 && d.trows * d.tcols ≤ 65536 && d.ins.all (d.streamOk false) && d.streamOk true d.out
  && d.rowv.ok false d.rows && d.colv.ok false d.cols && d.red.ok true 0 && d.redTouches.all (fun r => inPad r.1 r.2)
  && ((d.stages.filter fun s => s.raxis ≠ 0).length ≤ 1) && (d.reducer.isNone || d.red.en)
  && d.stages.zipIdx.all (fun e => d.stageOk (e.2 == 0) e.1)
  && d.ins.all (fun x => !x.en || !d.out.en || d.out.same x || !overlaps (d.touches d.out) (d.touches x))
  && [d.rowv.touches d.rows, d.colv.touches d.cols].all (fun v =>
      !overlaps (d.touches d.out) v && !overlaps (d.scaleTouches d.out) v && !overlaps d.redTouches v)
  && (d.out :: d.ins).all fun x => !overlaps d.redTouches (d.touches x) && !overlaps d.redTouches (d.scaleTouches x)

/-- What a chain reads and writes: its parts with WRITE or READ, one scoreboard range each (R132); `off` is the descriptor's
offset. -/
def VDesc.ranges (d : VDesc) (off : Nat) : List (List (Nat × Nat) × Bool) :=
  [([(off, 192)], false)] ++ d.ins.map (fun x => (d.touches x, false)) ++ d.ins.map (fun x => (d.scaleTouches x, false))
    ++ [(d.rowv.touches d.rows, false), (d.colv.touches d.cols, false), (d.touches d.out, true), (d.scaleTouches d.out, true),
      (d.redTouches, true)]

/-! ### Stage operations (R111, R112) -/

/-- A free value with the sign `neg` and a finite magnitude of the compute format (log entry 12). -/
def freeVal (op : Nat) (cf : Fmt) (neg : Bool) (x : Val) : Val :=
  decodeVal cf (signed cf neg (Config.approx op (Fmt.width cf * 32 + cf.mant) (encodeVal cf false .rne x).1 % (cf.maxCode + 1)))

/-- A result within 1 ulp of an exact value, chosen freely (R111, log entry 12): the value and the flags. -/
def withinUlp (op : Nat) (cf : Fmt) (x v : Val) : Val × Nat :=
  match v with
  | .fin n m e =>
    if m = 0 then (v, 0)
    else
      let q := max (ilog m e) (1 - (cf.bias : Int)) - cf.mant
      let k := roundMag m e q .rtz
      let pick := Config.ulpPick op (Fmt.width cf * 32 + cf.mant) (encodeVal cf false .rne x).1
      let exact := decide (m % 2 ^ (q - e).toNat = 0)
      let k := if exact then k + pick % 3 - 1 else k + pick % 2
      let code := packMag cf k q
      if code > cf.maxCode then (.inf n, fOvf) else (decodeVal cf (signed cf n code), 0)
  | v => (v, 0)

/-- RCP and RSQRT (R111, R112). -/
def rcpV (cf : Fmt) (x : Val) : Val × Nat := withinUlp 0x22 cf x (divV .one x)

/-- RSQRT: ±0 gives ±Inf, a negative input NaN (R112). -/
def rsqrtV (cf : Fmt) (x : Val) : Val × Nat :=
  match x with
  | .inf false => (.zero, 0)
  | .fin n m e => if m = 0 then (.inf n, 0) else withinUlp 0x23 cf x (divV .one (sqrtV (.fin n m e)))
  | _ => (.nan, 0)

/-- The functions of the table whose finite results are free within their accuracy (R111, R112). -/
def funcV (op : Nat) (cf : Fmt) (x : Val) : Val × Nat :=
  match op, x with
  | _, .nan => (.nan, 0)
  | 0x20, .inf n => (if n then .zero else .inf false, 0)
  | 0x20, v =>
    if !ltV v (.fin false (if cf = .fp16 then 16 else 128) 0) then (.inf false, fOvf) else (freeVal op cf false v, 0)
  | 0x21, .inf n => (if n then .nan else .inf false, 0)
  | 0x21, v => if v.isZero then (.inf true, 0) else if v.neg then (.nan, 0) else (freeVal op cf (ltV v .one) v, 0)
  | 0x24, .inf n => (.fin n 1 0, 0)
  | 0x25, .inf n => (if n then .zero else .one, 0)
  | 0x25, v => (freeVal op cf false v, 0)
  | 0x26, .inf n | 0x27, .inf n => (if n then .fin true 0 0 else .inf false, 0)
  | _, v => (freeVal op cf v.neg v, 0)

/-- A stage operation on exact operands before the rounding of R110: the value and the flags it raises itself. -/
def opV (op : Nat) (cf : Fmt) (a b c : Val) : Val × Nat :=
  match op with
  | 0x00 => (a, 0)
  | 0x01 => (addV a b, 0)
  | 0x02 => (addV a (negV b), 0)
  | 0x03 => (mulV a b, 0)
  | 0x04 => (addV (mulV a b) c, 0)
  | 0x05 => (maxV a b, 0)
  | 0x06 => (minV a b, 0)
  | 0x07 => (a.withSign false, 0)
  | 0x08 => (negV a, 0)
  | 0x09 => (minV (maxV a b) c, 0)
  | 0x0A => (if c.isZero then b else a, 0)
  | 0x0B => (if !a.isNan && !b.isNan && ltV b a then .one else .zero, 0)
  | 0x0C => (if !a.isNan && !b.isNan && !ltV a b then .one else .zero, 0)
  | 0x0D => (if eqV a b then .one else .zero, 0)
  | 0x0E => (integral false a, 0)
  | 0x0F => (integral true a, 0)
  | 0x10 => (divV a b, 0)
  | 0x11 => (sqrtV a, 0)
  | 0x22 => rcpV cf a
  | 0x23 => rsqrtV cf a
  | op => funcV op cf a

/-! ### Reductions and summaries (R113 to R117) -/

/-- One FP32 addition of a reduction tree; an absent side passes the other through (R114). -/
def redAdd (a b : Option (Val × Nat)) : Option (Val × Nat) :=
  match a, b with
  | none, x => x
  | x, none => x
  | some (x, f), some (y, g) =>
    let z := addV x y
    let (r, h) := roundTo .fp32 z
    some (r, f ||| g ||| h ||| (if z.isNan && !x.isNan && !y.isNan then fNanGen else 0))

/-- The fixed tree of R114 over 8 lanes. -/
def redTree (v : List (Option Val)) : Option (Val × Nat) :=
  let x := fun i => (v.getD i none).map fun y => (y, 0)
  redAdd (redAdd (redAdd (x 0) (x 1)) (redAdd (x 2) (x 3))) (redAdd (redAdd (x 4) (x 5)) (redAdd (x 6) (x 7)))

/-- MAX, MIN or ABSMAX of two values (R114). -/
def redExt (rop : Nat) (a b : Val) : Val :=
  if rop = 2 then minV a b else if rop = 3 then maxV (a.withSign false) (b.withSign false) else maxV a b

/-- The reduction of 8 lanes: none when no lane is active. -/
def redLanes (rop : Nat) (v : List (Option Val)) : Option (Val × Nat) :=
  if rop = 0 then redTree v
  else v.foldl (fun acc x =>
    match acc, x with
    | a, none => a
    | none, some y => some (if rop = 3 then y.withSign false else y, 0)
    | some (a, f), some y => some (redExt rop a y, f)) none

/-- Adds a tile's result to a running one in increasing k (R114). -/
def redJoin (rop : Nat) (a b : Option (Val × Nat)) : Option (Val × Nat) :=
  if rop = 0 then redAdd a b
  else match a, b with
    | none, x => x
    | x, none => x
    | some (x, f), some (y, g) => some (redExt rop x y, f ||| g)

/-- RED.POST in FP32 (R115). -/
def redPost (d : VDesc) (x : Val) : Val × Nat :=
  let k := fun i => decodeVal .fp32 (d.ks.getD i 0)
  let flag := fun (ops : List Val) (r : Val × Nat) =>
    (r.1, r.2 ||| (if ops.any Val.isNan then fNanIn else if r.1.isNan then fNanGen else 0))
  match d.red.post with
  | 1 => flag [x, k 3] (roundTo .fp32 (mulV x (k 3)))
  | 2 => flag [x] (rcpV .fp32 x)
  | 3 =>
    let (y, f) := roundTo .fp32 (addV (mulV (k 3) x) (k 2))
    let (z, g) := rsqrtV .fp32 y
    flag [x, k 2, k 3] (z, f ||| g)
  | _ => (x, 0)

/-- A summary in the making (R116, R117): NaN and Inf seen, a count, the best lane with its index, and the running sum. -/
structure SumAcc where
  nanSeen : Bool
  infSeen : Bool
  count   : Nat
  best    : Option (Val × Nat)
  sum     : Option (Val × Nat)
  deriving DecidableEq, Repr

/-- A summary of no lane. -/
def SumAcc.start : SumAcc := { nanSeen := false, infSeen := false, count := 0, best := none, sum := none }

/-- One lane of a summary. -/
def SumAcc.lane (kind : Nat) (x : Nat) (a : SumAcc) (v : Val) : SumAcc :=
  let hit := if kind = 4 then !v.isZero else if kind = 5 then v.isNan else if kind = 6 then v.isInf else false
  let better := match a.best with
    | none => true
    | some (b, _) => if kind = 2 then ltV v b else ltV b v
  { a with nanSeen := a.nanSeen || v.isNan, infSeen := a.infSeen || v.isInf, count := a.count + b2n hit,
           best := if !v.isNan && better then some (v, x) else a.best }

/-- One tile of a summary: its lanes, and its sum by rows and then over the row sums (R117). -/
def SumAcc.tile (kind k : Nat) (a : SumAcc) (lanes : List (Option Val)) : SumAcc :=
  let b := lanes.zipIdx.foldl (fun a e => match e.1 with
    | none => a
    | some v => a.lane kind (64 * k + e.2) v) a
  if kind = 3 then
    let rows := (List.range 8).map fun i => redTree ((List.range 8).map fun j => lanes.getD (8 * i + j) none)
    let t := redTree (rows.map fun r => r.map Prod.fst)
    let f := rows.foldl (fun f r => match r with | some (_, g) => f ||| g | none => f) 0
    { b with sum := redAdd b.sum (t.map fun r => (r.1, r.2 ||| f)) }
  else b

/-- The 64-bit summary (R116). -/
def SumAcc.value (kind : Nat) (a : SumAcc) : BitVec 64 :=
  let fp := fun (v : Val) => (encodeVal .fp32 false .rne v).1
  let val := if kind = 3 then (match a.sum with | some (v, _) => fp v | none => 0)
    else if kind = 4 || kind = 5 || kind = 6 then a.count
    else match a.best with | some (v, _) => fp v | none => Fmt.fp32.nanCode
  let idx := if kind = 7 then (match a.best with | some (_, x) => x | none => 0) else 0
  BitVec.ofNat 64 (kind * 2 ^ 60 + b2n a.nanSeen * 2 ^ 59 + b2n a.infSeen * 2 ^ 58 + idx * 2 ^ 32 + val)

/-! ### Running a chain -/

/-- A chain in the middle of its run: generators, flags, what it has written, running reductions, the summary, and the tiles of
the MX block that is not yet whole. -/
structure VRun where
  gens : Tab (BitVec 64)
  fl   : Nat
  sp   : CoreSp
  reds : List (Nat × Option (Val × Nat))
  sum  : SumAcc
  blk  : List (List (Option (Val × Rnd)))
  deriving DecidableEq, Repr

/-- The compute format of a chain (R110). -/
def VDesc.cf (d : VDesc) : Fmt := if !d.mode16 then .fp32 else if d.fmt16 then .fp16 else .bf16

/-- An input element widened or converted to the compute format (R106, R110). -/
def inVal (sp : CoreSp) (d : VDesc) (x : VStream) (k n : Nat) : Val × Nat :=
  let r := 8 * (k / d.tcols) + n / 8
  let c := 8 * (k % d.tcols) + n % 8
  let code := elemBits (fun a => Tab.get 0 sp.mem a) 0 (x.pos d.tcols r c) x.width
  let sc := if typeMx x.type then (Tab.get 0 sp.mem (x.scalePos d.tcols r c)).toNat else 127
  roundTo d.cf (elemVal x.type code sc)

/-- Element n of a broadcast vector in the compute format. -/
def vecVal (sp : CoreSp) (d : VDesc) (v : VVec) (n : Nat) : Val × Nat :=
  let w := (typeFmt v.type).width / 8
  roundTo d.cf (decodeVal (typeFmt v.type) (leNat (Memory.read sp.mem (v.base + n * w) w)))

/-- The operand that a source code names, at lane n of tile k (R109); `p` is the previous stage's result. -/
def srcVal (sp : CoreSp) (d : VDesc) (k n code : Nat) (p : Val) : Val × Nat :=
  match code with
  | 0 => (p, 0)
  | 1 | 2 | 3 => inVal sp d (d.ins.getD (code - 1) d.out) k n
  | 4 => vecVal sp d d.rowv (8 * (k / d.tcols) + n / 8)
  | 5 => vecVal sp d d.colv (8 * (k % d.tcols) + n % 8)
  | 6 | 7 | 8 | 9 => roundTo d.cf (decodeVal .fp32 (d.ks.getD (code - 6) 0))
  | _ => (.zero, 0)

/-- One stage on one lane: the result, the flags and the generators (R110, R111, R76). -/
def laneStage (sp : CoreSp) (d : VDesc) (numCtrl seed : BitVec 32) (k n : Nat) (s : VStage) (p : Val) (g : Tab (BitVec 64)) :
    Val × Nat × Tab (BitVec 64) :=
  let ar := (opArity s.op).getD 1
  let (a, fa) := srcVal sp d k n s.a p
  let (b, fb) := if 2 ≤ ar then srcVal sp d k n s.b p else (.zero, 0)
  let (c, fc) := if ar = 3 then srcVal sp d k n s.c p else (.zero, 0)
  let nanIn := a.isNan || b.isNan || c.isNan
  let (x, fx, g) :=
    if s.op = 0x30 then
      let (r, g) := pickRnd (rndMode s.srnd numCtrl) seed g ((64 * k + n) % 128)
      let (code, f) := encodeVal (typeFmt s.stype) (bit numCtrl 1) r a
      (decodeVal (typeFmt s.stype) code, f, g)
    else let (v, f) := opV s.op d.cf a b c; (v, f, g)
  let (y, fy) := roundTo d.cf x
  (y, fa ||| fb ||| fc ||| fx ||| fy ||| (if nanIn then fNanIn else if y.isNan then fNanGen else 0), g)

/-- The 8 lanes of line x along an axis of a tile: row x for axis 1, column x for axis 2. -/
def axisLanes (axis x : Nat) (p : List (Option Val)) : List (Option Val) :=
  (List.range 8).map fun y => p.getD (if axis = 1 then 8 * x + y else 8 * y + x) none

/-- Writes a RED element in RED.TYPE with RNE (R113). -/
def VRun.writeRed (r : VRun) (d : VDesc) (e : Nat) (v : Val) : VRun :=
  let f := typeFmt d.red.type
  let (c, fl) := encodeVal f false .rne v
  { r with sp := r.sp.store (d.red.base + e * (f.width / 8)) (leBytes (f.width / 8) c), fl := r.fl ||| fl }

/-- A reducing stage on a tile (R113, R114): per tile, RED is written and the value broadcast back; over the run, it accumulates. -/
def reduceTile (d : VDesc) (s : VStage) (k : Nat) (p : List (Option Val)) (r : VRun) : List (Option Val) × VRun :=
  let lines := (List.range 8).map fun x => redLanes s.rop (axisLanes s.raxis x p)
  if s.rscope = 0 then
    let post := lines.map fun l => l.map fun v => let (y, f) := redPost d v.1; (y, v.2 ||| f)
    let r := post.zipIdx.foldl (fun r e => match e.1 with
      | none => r
      | some (v, f) => { (r.writeRed d (8 * k + e.2) v) with fl := (r.writeRed d (8 * k + e.2) v).fl ||| f }) r
    let back := post.map fun l => l.map fun v => roundTo d.cf v.1
    let fl := back.foldl (fun f l => match l with | some (_, g) => f ||| g | none => f) 0
    (p.zipIdx.map fun e => match e.1, back.getD (if s.raxis = 1 then e.2 / 8 else e.2 % 8) none with
      | some _, some (v, _) => some v
      | x, _ => x, { r with fl := r.fl ||| fl })
  else
    let base := if s.raxis = 1 then 8 * (k / d.tcols) else 8 * (k % d.tcols)
    (p, { r with reds := (lines.zipIdx).foldl (fun acc e =>
      match acc.find? (fun x => x.1 = base + e.2) with
      | none => acc ++ [(base + e.2, e.1)]
      | some _ => acc.map fun x => if x.1 = base + e.2 then (x.1, redJoin s.rop x.2 e.1) else x) r.reds })

/-- One stage on one tile. -/
def tileStage (sp : CoreSp) (d : VDesc) (numCtrl seed : BitVec 32) (k : Nat) (s : VStage) (p : List (Option Val)) (r : VRun) :
    List (Option Val) × VRun :=
  let (q, r) := p.zipIdx.foldl (fun (a : List (Option Val) × VRun) e =>
    match e.1 with
    | none => (a.1 ++ [none], a.2)
    | some v =>
      let (y, f, g) := laneStage sp d numCtrl seed k e.2 s v a.2.gens
      (a.1 ++ [some y], { a.2 with gens := g, fl := a.2.fl ||| f })) ([], r)
  if s.raxis = 0 then (q, r) else reduceTile d s k q r

/-- Replaces elements of `w` bits in bytes: the codes of the first lanes of a row. -/
def putCodes (w : Nat) (old : List Byte) (codes : List Nat) : List Byte :=
  let keep := leNat old >>> (w * codes.length) <<< (w * codes.length)
  leBytes old.length (keep + packBits w codes)

/-- Writes one row of a tile to OUT (R105, R118). -/
def VRun.writeRow (r : VRun) (d : VDesc) (row col : Nat) (codes : List Nat) : VRun :=
  let w := d.out.width
  let a := d.out.pos d.tcols row col / 8
  { r with sp := r.sp.store a (putCodes w (Memory.read r.sp.mem a ((codes.length * w + 7) / 8)) codes) }

/-- Quantises the four tiles of a block row and writes elements and scales (R65, R118). -/
def VRun.writeBlocks (r : VRun) (d : VDesc) (numCtrl : BitVec 32) (k : Nat) : VRun :=
  let row0 := 8 * (k / d.tcols)
  let col0 := 8 * (k % d.tcols - 3)
  let w := { r with blk := [] }
  ((List.range 8).filter fun i => d.active k i 0).foldl (fun w i =>
    let xs := r.blk.flatMap fun t => (List.range 8).map fun j => (t.getD (8 * i + j) none).getD (.zero, .rne)
    let (sc, codes, fl) := quantise (typeFmt d.out.type) (bit numCtrl 0) xs
    let w := (List.range 4).foldl (fun w t => w.writeRow d (row0 + i) (col0 + 8 * t) ((codes.drop (8 * t)).take 8)) w
    { w with sp := w.sp.store (d.out.scalePos d.tcols (row0 + i) col0) [BitVec.ofNat 8 sc], fl := w.fl ||| fl }) w

/-- The output of a tile (R118): conversion under R74 and R75, or the MX block that its fourth tile completes. -/
def outTile (d : VDesc) (numCtrl seed : BitVec 32) (k : Nat) (p : List (Option Val)) (r : VRun) : VRun :=
  if !d.out.en then r
  else
    let (ps, g) := p.zipIdx.foldl (fun (a : List (Option (Val × Rnd)) × Tab (BitVec 64)) e =>
      match e.1 with
      | none => (a.1 ++ [none], a.2)
      | some v =>
        let (m, g) := pickRnd (rndMode d.rnd numCtrl) seed a.2 ((64 * k + e.2) % 128)
        (a.1 ++ [some (v, m)], g)) ([], r.gens)
    let r := { r with gens := g }
    if typeMx d.out.type then
      let r := { r with blk := r.blk ++ [ps] }
      if k % d.tcols % 4 = 3 then r.writeBlocks d numCtrl k else r
    else
      (List.range 8).foldl (fun r i =>
        let cs := ((List.range 8).filterMap fun j => ps.getD (8 * i + j) none).map fun e =>
          if typeFmt d.out.type = .fp32 then encodeVal .fp32 false .rne e.1
          else encodeVal (typeFmt d.out.type) (bit numCtrl 1) e.2 e.1
        if cs.isEmpty then r
        else { (r.writeRow d (8 * (k / d.tcols) + i) (8 * (k % d.tcols)) (cs.map Prod.fst)) with
                 fl := r.fl ||| cs.foldl (fun f c => f ||| c.2) 0 }) r

/-- One tile through the chain. -/
def VDesc.tile (d : VDesc) (sp : CoreSp) (numCtrl seed : BitVec 32) (k : Nat) (r : VRun) : VRun :=
  let start := (List.range 64).map fun n => if d.active k (n / 8) (n % 8) then some Val.zero else none
  let (p, r) := d.stages.foldl (fun (a : List (Option Val) × VRun) s => tileStage sp d numCtrl seed k s a.1 a.2) (start, r)
  let r := outTile d numCtrl seed k p r
  { r with sum := if d.sumk = 0 then r.sum else r.sum.tile d.sumk k p }

/-- The whole run of a chain on a core's scratchpad and generators; every input is read as it stood before the chain wrote (R121). -/
def VDesc.run (d : VDesc) (sp : CoreSp) (numCtrl seed : BitVec 32) (gens : Tab (BitVec 64)) : VRun :=
  let r := (List.range (d.trows * d.tcols)).foldl (fun r k => d.tile sp numCtrl seed k r)
    { gens := gens, fl := 0, sp := sp, reds := [], sum := .start, blk := [] }
  let r := r.reds.foldl (fun r e => match e.2 with
    | none => r
    | some (v, f) =>
      let (y, g) := redPost d v
      let w := r.writeRed d e.1 y
      { w with fl := w.fl ||| f ||| g }) r
  { r with fl := r.fl ||| (match r.sum.sum with | some (_, f) => f | none => 0) }

/-- The input ranges of a chain, as read through ECC. -/
def VDesc.reads (d : VDesc) : List (Nat × Nat) :=
  d.ins.flatMap d.touches ++ d.ins.flatMap d.scaleTouches ++ d.rowv.touches d.rows ++ d.colv.touches d.cols

end Sys2Proof.Machine
end

