-- ==== Sys2Proof/Machine/CoreRegs.lean ====
section
/-! DEFINITION. The register block of a core: what each offset reads as and what a read clears (R189, chapters 03 to 11). -/

namespace Sys2Proof.Machine

/-- STATE of CORE_SEQ_STATUS. -/
def SeqMode.code : SeqMode → Nat
  | .halted => 0
  | .run => 1
  | .waitTok => 2
  | .waitCrd => 3
  | .waitCb => 4
  | .waitTime => 5
  | .waitOther => 6
  | .trapped => 7
  | .support => 8

/-- STATE of a residency slot (R236). -/
def SlotState.code : SlotState → Nat
  | .empty => 0
  | .claiming => 1
  | .loading => 2
  | .ready => 3
  | .stale => 4
  | .failed => 5

/-- CORE_RES_SLOT_n. -/
def ResSlot.regImage (x : ResSlot) : BitVec 64 :=
  BitVec.ofNat 64 (x.state.code * 2 ^ 61 + x.ctx.toNat * 2 ^ 51 + x.handle.toNat * 2 ^ 32 + x.bytes.toNat)

/-- The summary registers that an issued chain has yet to write (CORE_VEC_STATUS.UPEND). -/
def CoreUnits.upend (u : CoreUnits) : Nat :=
  maskOf ((u.vecQ.filter fun h => !h.sumDone && (vDesc h.desc).sumk ≠ 0).map fun h => (vDesc h.desc).ureg)

/-- CORE_ARR_STATUS: the oldest operation is in progress, the others wait (log entry 15). -/
def CoreUnits.arrStatus (u : CoreUnits) : BitVec 32 :=
  let cell := match u.arrQ with
    | { kind := .mmaOs .., .. } :: _ | { kind := .mmaWs .., .. } :: _ => true
    | _ => false
  let wl := match u.arrQ with
    | { kind := .wload .., .. } :: _ => true
    | _ => false
  let port := !u.arrQ.isEmpty && !cell && !wl
  BitVec.ofNat 32 ((u.arrQ.length - 1) * 256 + b2n u.wset1.isSome * 32 + b2n u.wset0.isSome * 16 + b2n wl * 8 + b2n port * 4
    + b2n u.arrMode * 2 + b2n cell)

/-- CORE_VEC_STATUS. -/
def CoreUnits.vecStatus (u : CoreUnits) : BitVec 32 :=
  BitVec.ofNat 32 ((u.vecQ.filter fun h => !h.started).length * 512 + b2n (u.vecQ.any Chain.started) * 256 + u.upend)

/-- CORE_SP_STATUS. -/
def Core.spStatus (c : Core) : BitVec 32 :=
  BitVec.ofNat 32 ((32 - c.units.sb.length) * 2 ^ 24 + b2n (c.units.sb.any SbEntry.spec) * 2 ^ 23
    + (c.units.fcQ.length - 1) * 2 ^ 16 + b2n (!c.units.fcQ.isEmpty) * 2 ^ 12 + c.sp.zeroBusy.toNat)

/-- CORE_SEQ_STATUS. RA reads 0: an episode runs as a whole at its start (log entry 16). -/
def Core.seqStatus (c : Core) : BitVec 32 :=
  BitVec.ofNat 32 (c.seq.mode.code * 2 ^ 28 + b2n c.sp.front * 2 ^ 26 + c.seq.pc.toNat)

/-- CORE_CB_STAT_n. -/
def CoreSp.cbStat (x : CoreSp) (n : Nat) : BitVec 32 :=
  let p := Tab.get 0 x.cbPtr n
  BitVec.ofNat 32 (b2n (bit x.cbOvf n) * 2 ^ 31 + (65536 + fld p 31 16 - fld p 15 0) % 65536)

/-- CORE_SP_RETIRED_k. -/
def CoreSp.retiredImage (x : CoreSp) (k : Nat) : BitVec 32 :=
  match x.retired[k]? with
  | some r => BitVec.ofNat 32 (2 ^ 31 + r)
  | none => 0

/-- CORE_DBG_CTRL, 0 below debug level FULL (R179). -/
def Core.dbgCtrl (c : Core) (full : Bool) : BitVec 32 :=
  if full then BitVec.ofNat 32 (b2n c.seq.dbgHalted * 2 ^ 28 + c.seq.pc.toNat) else 0

/-- Whether an offset is that of array element `off = base + stride × n` with n below `cnt`; gives n. -/
def arrayIdx (base stride cnt off : Nat) : Option Nat :=
  if base ≤ off && (off - base) % stride = 0 && (off - base) / stride < cnt then some ((off - base) / stride) else none

/-- A 32-bit register value. -/
def r32 (v : BitVec 32) (c : Core) : Option (Nat × BitVec 64 × Core) := some (32, v.setWidth 64, c)

/-- A 64-bit register value. -/
def r64 (v : BitVec 64) (c : Core) : Option (Nat × BitVec 64 × Core) := some (64, v, c)

/-- The single registers of a core block at a base offset: width, value, and the core after the read's clearing. -/
def Core.readOne (c : Core) (full : Bool) (off : Nat) : Option (Nat × BitVec 64 × Core) :=
  if off = 0x0C00 then r32 c.num.ctrl c
  else if off = 0x0C04 then r32 c.num.status c
  else if off = 0x0C08 then r32 c.num.seed c
  else if off = 0x0D00 then r32 c.units.arrStatus c
  else if off = 0x0D08 then r64 c.units.arrSteps c
  else if off = 0x0D10 then r64 c.units.arrSkips c
  else if off = 0x0D18 then r64 c.units.arrStalls c
  else if off = 0x0D20 then r32 c.units.accEcc { c with units := { c.units with accEcc := setFld c.units.accEcc 31 16 0 } }
  else if off = 0x0E00 then r32 c.units.vecStatus c
  else if off = 0x0E08 then r64 c.units.vecTiles c
  else if off = 0x0E10 then r64 c.units.vecStalls c
  else if off = 0x1000 then r32 (BitVec.ofNat 32 (b2n c.sp.front * 2 ^ 31 + c.sp.slot1.toNat * 2 ^ 16 + c.sp.slot0.toNat)) c
  else if off = 0x1004 then r32 (BitVec.ofNat 32 (c.sp.ready.toNat * 2 ^ 16 + c.sp.on.toNat)) c
  else if off = 0x1400 then r32 c.sp.winDrops { c with sp := { c.sp with winDrops := setFld c.sp.winDrops 31 20 0 } }
  else if off = 0x1410 then r64 c.sp.ecc { c with sp := { c.sp with ecc := setFld c.sp.ecc 63 48 0 } }
  else if off = 0x1418 then r32 c.sp.scrub c
  else if off = 0x1480 then r32 c.spStatus c
  else if off = 0x1488 then r64 c.units.sbStalls c
  else if off = 0x2000 then r32 c.seqStatus c
  else if off = 0x2300 then r32 c.seq.wdogCfg c
  else if off = 0x2308 then r32 c.seq.wdogStat { c with seq := { c.seq with wdogStat := setFld c.seq.wdogStat 31 24 0 } }
  else if off = 0x2340 then r32 c.seq.raCfg c
  else if off = 0x2348 then r64 c.seq.raStat { c with seq := { c.seq with raStat := 0 } }
  else if off = 0x2380 then r64 c.seq.trap c
  else if off = 0x2390 then r32 (c.dbgCtrl full) c
  else if off = 0x2440 then r32 c.units.dmaCfg c
  else if off = 0x2900 then r32 (if full then BitVec.ofNat 32 (c.seq.preds.toNat ||| 1) else 0) c
  else if off = 0x3000 then r32 (Tab.get 0 c.mesh.term 0) c
  else if off = 0x3004 then r32 (Tab.get 0 c.mesh.term 1) c
  else if off = 0x3010 then r32 (Tab.get 0 c.mesh.frame 0) c
  else if off = 0x3014 then r32 (Tab.get 0 c.mesh.frame 1) c
  else if off = 0x3020 then r32 c.mesh.stat { c with mesh := { c.mesh with stat := 0 } }
  else if off = 0x6000 then r64 c.res0.regImage c
  else if off = 0x6008 then r64 c.res1.regImage c
  else none

/-- The indexed registers of a core block. -/
def Core.readIdx (c : Core) (full : Bool) (off : Nat) : Option (Nat × BitVec 64 × Core) :=
  match arrayIdx 0x1100 16 16 off with
  | some n => r64 (Tab.get 0 c.sp.cbCfg n) c
  | none => match arrayIdx 0x1108 16 16 off with
  | some n => r32 (Tab.get 0 c.sp.cbPtr n) c
  | none => match arrayIdx 0x110C 16 16 off with
  | some n => r32 (c.sp.cbStat n) c
  | none => match arrayIdx 0x1200 32 16 off with
  | some n => r64 (Tab.get 0 c.sp.winCfg n) c
  | none => match arrayIdx 0x1208 32 16 off with
  | some n => r64 (Tab.get 0 c.sp.winFilt n) c
  | none => match arrayIdx 0x1210 32 16 off with
  | some n => r32 (Tab.get 0 c.sp.winBytes n) c
  | none => match arrayIdx 0x1440 4 8 off with
  | some k => r32 (c.sp.retiredImage k) c
  | none => match arrayIdx 0x2100 8 32 off with
  | some n => r64 (Tab.get 0 c.seq.tok n) c
  | none => match arrayIdx 0x2200 8 32 off with
  | some n => r64 (Tab.get 0 c.seq.crd n) c
  | none => match arrayIdx 0x2400 8 8 off with
  | some n => r64 (Tab.get 0 c.units.grps n) c
  | none => match arrayIdx 0x2808 8 31 off with
  | some n => r64 (if full && c.seq.dbgHalted then c.sreg (n + 1) else 0) c
  | none => match arrayIdx 0x3400 8 128 off with
  | some n => r64 (Tab.get 0 c.mesh.flow n) c
  | none => match arrayIdx 0x4000 4 2048 off with
  | some n => r32 (Tab.get 0 c.mesh.slots n) c
  | none => match arrayIdx 0x7000 8 16 off with
  | some n => r64 (Tab.get 0 c.ringArr n) c
  | none => none

/-- What a read of a core register gives, and the core after it; none where no register starts (R189). -/
def Core.readReg (c : Core) (full : Bool) (off : Nat) : Option (Nat × BitVec 64 × Core) :=
  match c.readOne full off with
  | some r => some r
  | none => c.readIdx full off

end Sys2Proof.Machine
end

