-- ==== Sys2Proof/Machine/Issue.lean ====
section
/-! DEFINITION. What an issued instruction can come to, its guard and its fields (R156, R157, R180 to R182). -/

namespace Sys2Proof.Machine

/-- What the issue of an instruction comes to: it retires and issue goes on at `next`; it retires and the sequencer stays where it is
(PDONE, BREAK); a scoreboard hazard or a full queue stalls it (counted as R133 asks when `sb`); it waits; it traps. -/
inductive Res where
  | done (c : Core) (next : Nat) (out : List Packet) (msgs : List MeshMsg)
  | halt (c : Core) (out : List Packet)
  | stall (sb : Bool)
  | wait (m : SeqMode) (count : Nat)
  | trap (c : Core) (cause addr : Nat)
  deriving DecidableEq, Repr

/-- The meaning of an instruction word for core p, read in the state it issues in. -/
abbrev Body := State → Nat → Nat → Core → Res

/-- An instruction that only changes the core, and retires. -/
def Core.retire (c : Core) : Res := .done c (c.seq.pc.toNat + 1) [] []

/-- An ILLEGAL_INSTR trap (R181). -/
def Core.illegal (c : Core) : Res := .trap c trIllegal 0

/-- The word of a sequencer instruction: OP, guard, and the body below (R180). -/
def seqWord (op : Nat) (g : Guard) (body : Nat) : Nat := op * 2 ^ 58 + b2n g.gn * 2 ^ 57 + g.gp.toNat * 2 ^ 54 + body

/-- Whether the guard of a word reads true: p[GP] XOR GN (R180). -/
def guardTrue (c : Core) (w : Nat) : Bool := c.pred (nfld w 56 54) != w.testBit 57

/-- Whether the word has the unconditional guard. -/
def unguarded (w : Nat) : Bool := nfld w 57 54 = 0

/-- Issues through the scoreboard (R133): none of the ranges may meet a hazard, and entries must be free. -/
def Core.through (c : Core) (rs : List SbRange) (k : Res) : Res := if sbReady c.units.sb rs then k else .stall true

/-- The core with a new operation id and its ranges entered. -/
def Core.enter (c : Core) (spec : Bool) (rs : List SbRange) : Core × Nat :=
  ({ c with units := { c.units with nextId := c.units.nextId + 1, sb := sbEnter c.units.sb c.units.nextId spec rs } }, c.units.nextId)

/-- The second operand of a compare: a scalar register, or an immediate of 20 bits already extended. -/
def Core.operand (c : Core) (immb : Bool) (rb imm : Nat) : Nat := if immb then imm else (c.sreg rb).toNat

/-- The count operand of the counting instructions: K16 or s[rk] (R204). -/
def Core.countK (c : Core) (kr : Bool) (rk k : Nat) : Nat := if kr then (c.sreg rk).toNat else k

/-- A stream word taken apart (R183); none when a reserved bit is set. -/
def streamOf (x : BitVec 64) : Option StreamWord :=
  if fld x 63 52 ≠ 0 then none
  else some { type := BitVec.ofNat 8 (fld x 51 44), pstride := fld x 43 22, base := fld x 21 0 }

/-- A pair word taken apart as (FIRST, SECOND) (R183); none when a reserved bit is set. -/
def pairOf (x : BitVec 64) : Option (Nat × Nat) := if fld x 63 44 ≠ 0 then none else some (fld x 21 0, fld x 43 22)

end Sys2Proof.Machine
end

