-- ==== Sys2Proof/Machine/Scalar.lean ====
section
/-! DEFINITION. Scalar instructions: system, ALU, scalar memory, core state, branches and predicates (R184 to R193, R211, R212). -/

namespace Sys2Proof.Machine

/-! ### Scalar ALU (R185 to R187) -/

/-- The ALU functions of R186; none for an unassigned code. -/
def aluFn (fn : Nat) (a b : BitVec 64) : Option (BitVec 64) :=
  match fn with
  | 0x00 => some (a + b)
  | 0x01 => some (a - b)
  | 0x02 => some (a &&& b)
  | 0x03 => some (a ||| b)
  | 0x04 => some (a ^^^ b)
  | 0x05 => some (a <<< (b.toNat % 64))
  | 0x06 => some (a >>> (b.toNat % 64))
  | 0x07 => some (a.sshiftRight (b.toNat % 64))
  | 0x08 => some (a * b)
  | 0x09 => some (BitVec.ofNat 64 (a.toNat * b.toNat / 2 ^ 64))
  | 0x0A => some (if a.slt b then a else b)
  | 0x0B => some (if a.slt b then b else a)
  | 0x0C => some (if a.ult b then a else b)
  | 0x0D => some (if a.ult b then b else a)
  | 0x0E => some (if a.slt b then 1 else 0)
  | 0x0F => some (if a.ult b then 1 else 0)
  | 0x10 => some (if a = b then 1 else 0)
  | 0x11 => some (a &&& ~~~b)
  | _ => none

/-- Writes an ALU result, or traps on an unassigned function (R181). -/
def Core.aluDone (c : Core) (rd : Nat) (r : Option (BitVec 64)) : Res :=
  match r with
  | some v => (c.setSreg rd v).retire
  | none => c.illegal

/-- ALU.R (R185, R186). -/
def bodyAluR : Body := fun _ _ w c =>
  if nfld w 32 0 ≠ 0 then c.illegal
  else c.aluDone (nfld w 47 43) (aluFn (nfld w 53 48) (c.sreg (nfld w 42 38)) (c.sreg (nfld w 37 33)))

/-- ALU.I: IMM32 is sign-extended (R186). -/
def bodyAluI : Body := fun _ _ w c =>
  if nfld w 37 32 ≠ 0 then c.illegal
  else c.aluDone (nfld w 47 43) (aluFn (nfld w 53 48) (c.sreg (nfld w 42 38)) (BitVec.ofInt 64 (sgn 32 (nfld w 31 0))))

/-- LIL (R187). -/
def bodyLil : Body := fun _ _ w c =>
  if nfld w 42 32 ≠ 0 then c.illegal
  else (c.setSreg (nfld w 47 43) (BitVec.ofInt 64 (sgn 32 (nfld w 31 0)))).retire

/-- LIH (R187). -/
def bodyLih : Body := fun _ _ w c =>
  if nfld w 42 32 ≠ 0 then c.illegal
  else (c.setSreg (nfld w 47 43) (setFld (c.sreg (nfld w 47 43)) 63 32 (nfld w 31 0))).retire

/-- EXT (R187). -/
def bodyExt : Body := fun _ _ w c =>
  let pos := nfld w 37 32
  let wid := nfld w 31 26 + 1
  if nfld w 25 0 ≠ 0 || pos + wid > 64 then c.illegal
  else (c.setSreg (nfld w 47 43) (BitVec.ofNat 64 (fld (c.sreg (nfld w 42 38)) (pos + wid - 1) pos))).retire

/-- DEP (R187). -/
def bodyDep : Body := fun _ _ w c =>
  let pos := nfld w 37 32
  let wid := nfld w 31 26 + 1
  if nfld w 25 0 ≠ 0 || pos + wid > 64 then c.illegal
  else
    (c.setSreg (nfld w 47 43)
      (setFld (c.sreg (nfld w 47 43)) (pos + wid - 1) pos (c.sreg (nfld w 42 38)).toNat)).retire

/-! ### Scalar memory (R135, R158, R188) -/

/-- The checks of R188 on `n` bytes at offset `a`, then the scoreboard check of R135. -/
def Core.scalarAt (c : Core) (a n : Nat) (write : Bool) (k : Core → Res) : Res :=
  if a + n > 0x300000 then c.illegal
  else if !c.ownOk a n then .trap c trBank a
  else if a % n ≠ 0 then .trap c trMisaligned a
  else if hazard c.units.sb a (a + n - 1) write then .stall true
  else k c

/-- The effective offset s[ra] + IMM22 modulo 2^64 (R188). -/
def Core.effective (c : Core) (ra imm : Nat) : Nat := ((c.sreg ra).toNat + imm) % 2 ^ 64

/-- LD (R188). -/
def bodyLd : Body := fun _ _ w c =>
  let n := 2 ^ nfld w 43 42
  let a := c.effective (nfld w 48 44) (nfld w 40 19)
  if nfld w 18 0 ≠ 0 then c.illegal
  else c.scalarAt a n false fun c =>
    let (x, bad) := c.sp.check [(a, n)]
    match bad with
    | some e => .trap { c with sp := x } trSpUe e
    | none =>
      let v := leNat (Memory.read x.mem a n)
      let d := { c with sp := x }
      (d.setSreg (nfld w 53 49) (if w.testBit 41 then BitVec.ofInt 64 (sgn (8 * n) v) else BitVec.ofNat 64 v)).retire

/-- ST (R188). -/
def bodySt : Body := fun _ _ w c =>
  let n := 2 ^ nfld w 43 42
  let a := c.effective (nfld w 48 44) (nfld w 40 19)
  if nfld w 18 0 ≠ 0 || w.testBit 41 then c.illegal
  else c.scalarAt a n true fun c =>
    ({ c with sp := c.sp.store a (leBytes n (c.sreg (nfld w 53 49)).toNat) }).retire

/-! ### Core state (R189) -/

/-- A write of CORE_NUM_SEED: every generator restarts (R76). -/
def Core.seedWrite (c : Core) (v : BitVec 32) : Core := { c with num := { c.num with seed := v, gens := [] } }

/-- RDREG (R189): a read like any other, so RC fields clear. -/
def bodyRdreg : Body := fun s _ w c =>
  if nfld w 25 0 ≠ 0 || nfld w 44 42 ≠ 0 then c.illegal
  else match c.readReg (s.sec.level = 2) (nfld w 41 26) with
    | some (_, v, d) => (d.setSreg (nfld w 49 45) v).retire
    | none => c.illegal

/-- WRREG: it waits for earlier array and vector work, then writes one of three registers (R189). -/
def bodyWrreg : Body := fun _ _ w c =>
  let off := nfld w 41 26
  let v := (c.sreg (nfld w 49 45)).setWidth 32
  if nfld w 25 0 ≠ 0 || nfld w 44 42 ≠ 0 || !(off = 0xC00 || off = 0xC04 || off = 0xC08) then c.illegal
  else if !c.units.arrQ.isEmpty || !c.units.vecQ.isEmpty then .wait .waitOther 0
  else if off = 0xC00 then ({ c with num := { c.num with ctrl := v &&& 0xF } }).retire
  else if off = 0xC04 then ({ c with num := { c.num with status := c.num.status &&& ~~~v } }).retire
  else (c.seedWrite v).retire

/-- RDTIME (R189, R356). -/
def bodyRdtime : Body := fun s p w c =>
  if nfld w 41 0 ≠ 0 || nfld w 44 42 ≠ 0 then c.illegal else (c.setSreg (nfld w 49 45) (s.coreTime p)).retire

/-- RDLAUNCH (R189, R477). -/
def bodyRdlaunch : Body := fun _ _ w c =>
  if nfld w 41 0 ≠ 0 || nfld w 44 42 ≠ 0 then c.illegal else (c.setSreg (nfld w 49 45) c.seq.launchT).retire

/-- Whether an issued chain has yet to write u[n] (R121). -/
def Core.uPending (c : Core) (n : Nat) : Bool := c.units.upend.testBit n

/-- MOVU: it waits under R121 (R189). -/
def bodyMovu : Body := fun _ _ w c =>
  if nfld w 41 0 ≠ 0 then c.illegal
  else if c.uPending (nfld w 44 42) then .wait .waitOther 0
  else (c.setSreg (nfld w 49 45) (c.ureg (nfld w 44 42))).retire

/-- RDID (R189). -/
def bodyRdid : Body := fun s p w c =>
  if nfld w 41 0 ≠ 0 || nfld w 44 42 ≠ 0 then c.illegal
  else (c.setSreg (nfld w 49 45) (BitVec.ofNat 64 (c.seq.passNum.toNat * 2 ^ 32 + (s.logicalOf p).getD 0))).retire

/-! ### Branches (R155, R190 to R192) -/

/-- The target PC + OFF16, signed, counted in instructions; none outside 0 to 4,095 (R155, R190). -/
def relTarget (pc off16 : Nat) : Option Nat :=
  let t : Int := pc + sgn 16 off16
  if 0 ≤ t && t ≤ 4095 then some t.toNat else none

/-- Goes to a branch target, or traps PC_RANGE (R155). -/
def Core.goto (c d : Core) (t : Option Nat) : Res :=
  match t with
  | some n => .done d n [] []
  | none => .trap c trPcRange 0

/-- J (R190). -/
def bodyJ : Body := fun _ _ w c =>
  if nfld w 36 16 ≠ 0 || nfld w 47 38 ≠ 0 then c.illegal else c.goto c (relTarget c.seq.pc.toNat (nfld w 15 0))

/-- JAL (R190). -/
def bodyJal : Body := fun _ _ w c =>
  if nfld w 36 16 ≠ 0 || nfld w 42 38 ≠ 0 then c.illegal
  else c.goto (c.setSreg (nfld w 47 43) (BitVec.ofNat 64 (c.seq.pc.toNat + 1))) (relTarget c.seq.pc.toNat (nfld w 15 0))

/-- JR (R190). -/
def bodyJr : Body := fun _ _ w c =>
  let t := (c.sreg (nfld w 42 38)).toNat
  if nfld w 36 0 ≠ 0 || nfld w 47 43 ≠ 0 then c.illegal else c.goto c (if t ≤ 4095 then some t else none)

/-- The relations of BCMP and PSET (R191); none for an unassigned code. -/
def relScalar (rel : Nat) (a b : BitVec 64) : Option Bool :=
  match rel with
  | 0 => some (a == b)
  | 1 => some (a != b)
  | 2 => some (a.slt b)
  | 3 => some (!a.slt b)
  | 4 => some (a.ult b)
  | 5 => some (!a.ult b)
  | _ => none

/-- The condition of a BCMP or PSET word, whose fields lie alike; none when its encoding is unassigned (R181, R191). -/
def Core.condScalar (c : Core) (w : Nat) : Option Bool :=
  let immb := w.testBit 40
  let imm := BitVec.ofInt 64 (sgn 20 (nfld w 38 19))
  if immb && nfld w 45 41 ≠ 0 then none
  else if !immb && nfld w 38 19 ≠ 0 then none
  else relScalar (nfld w 53 51) (c.sreg (nfld w 50 46)) (if immb then imm else c.sreg (nfld w 45 41))

/-- BCMP (R191). -/
def bodyBcmp : Body := fun _ _ w c =>
  if nfld w 18 16 ≠ 0 then c.illegal
  else match c.condScalar w with
    | none => c.illegal
    | some t => if t then c.goto c (relTarget c.seq.pc.toNat (nfld w 15 0)) else c.retire

/-- The IMM20 of PSET lies one bit higher than BCMP's (R190's table): the word as BCMP would hold its fields. -/
def psetAsBcmp (w : Nat) : Nat := nfld w 53 40 * 2 ^ 40 + nfld w 39 20 * 2 ^ 19

/-- PSET (R191). -/
def bodyPset : Body := fun _ _ w c =>
  let pd := nfld w 19 17
  if nfld w 16 0 ≠ 0 || pd = 0 then c.illegal
  else match c.condScalar (psetAsBcmp w) with
    | none => c.illegal
    | some t => (c.setPred pd t).retire

/-- FP32 comparison codes: +0 equals −0, NaN is unordered (R192). -/
def relFp (rel : Nat) (a b : Val) : Option Bool :=
  let un := a.isNan || b.isNan
  let eq := !un && ((a.isZero && b.isZero) || eqV a b)
  let lt := !un && !(a.isZero && b.isZero) && ltV a b
  match rel with
  | 0 => some eq
  | 1 => some (!un && !eq)
  | 2 => some lt
  | 3 => some (lt || eq)
  | 4 => some (!un && !lt && !eq)
  | 5 => some (!un && !lt)
  | 6 => some un
  | 7 => some (!un)
  | _ => none

/-- Unsigned comparison codes (R192). -/
def relU (rel a b : Nat) : Option Bool :=
  match rel with
  | 0 => some (a == b)
  | 1 => some (a != b)
  | 2 => some (decide (a < b))
  | 3 => some (decide (a ≤ b))
  | 4 => some (decide (b < a))
  | 5 => some (decide (b ≤ a))
  | 6 => some false
  | 7 => some true
  | _ => none

/-- The condition of R192 on a summary register; none for an unassigned encoding. -/
def condSummary (u : BitVec 64) (rel : Nat) (immb : Bool) (rb imm : Nat) (sreg : Nat → BitVec 64) : Option Bool :=
  if immb && rb ≠ 0 then none
  else if !immb && imm ≠ 0 then none
  else if rel = 8 || rel = 9 then
    (if rb ≠ 0 || immb then none else some (bit u (if rel = 8 then 59 else 58)))
  else
    let kind := fld u 63 60
    if kind = 1 || kind = 2 || kind = 3 || kind = 7 then
      relFp rel (decodeVal .fp32 (fld u 31 0)) (decodeVal .fp32 (if immb then imm * 2 ^ 12 else (sreg rb).toNat % 2 ^ 32))
    else relU rel (fld u 31 0) (if immb then imm else (sreg rb).toNat)

/-- BSUM (R192). -/
def bodyBsum : Body := fun _ _ w c =>
  let un := nfld w 53 51
  if nfld w 19 16 ≠ 0 then c.illegal
  else if (condSummary (c.ureg un) (nfld w 50 47) (w.testBit 41) (nfld w 46 42) (nfld w 39 20) c.sreg).isNone then c.illegal
  else if c.uPending un then .wait .waitOther 0
  else match condSummary (c.ureg un) (nfld w 50 47) (w.testBit 41) (nfld w 46 42) (nfld w 39 20) c.sreg with
    | some true => c.goto c (relTarget c.seq.pc.toNat (nfld w 15 0))
    | _ => c.retire

/-- PSUM (R192). -/
def bodyPsum : Body := fun _ _ w c =>
  let un := nfld w 53 51
  let pd := nfld w 19 17
  if nfld w 16 0 ≠ 0 || w.testBit 40 || pd = 0 then c.illegal
  else if (condSummary (c.ureg un) (nfld w 50 47) (w.testBit 41) (nfld w 46 42) (nfld w 39 20) c.sreg).isNone then c.illegal
  else if c.uPending un then .wait .waitOther 0
  else match condSummary (c.ureg un) (nfld w 50 47) (w.testBit 41) (nfld w 46 42) (nfld w 39 20) c.sreg with
    | some t => (c.setPred pd t).retire
    | none => c.illegal

/-- The functions of PLOG (R193). -/
def plogFn (fn : Nat) (a b : Bool) : Option Bool :=
  match fn with
  | 0 => some (a && b)
  | 1 => some (a || b)
  | 2 => some (a != b)
  | 3 => some (a && !b)
  | _ => none

/-- PLOG (R193). -/
def bodyPlog : Body := fun _ _ w c =>
  let pd := nfld w 49 47
  if nfld w 40 0 ≠ 0 || pd = 0 then c.illegal
  else match plogFn (nfld w 53 50) (c.pred (nfld w 46 44)) (c.pred (nfld w 43 41)) with
    | some t => (c.setPred pd t).retire
    | none => c.illegal

/-! ### System (R178, R211, R212) -/

/-- NOP (R181, R211). -/
def bodyNop : Body := fun _ _ w c => if nfld w 47 0 ≠ 0 then c.illegal else c.retire

/-- Transfers that are still under way: every one but the speculative hints, which have no completion (R200). -/
def CoreUnits.busy (u : CoreUnits) : Bool := u.xfers.any fun x => x.kind ≠ .hint

/-- FENCE (R211). -/
def bodyFence : Body := fun _ _ w c =>
  let u := c.units
  if nfld w 39 0 ≠ 0 || nfld w 47 44 ≠ 0 || nfld w 47 40 = 0 then c.illegal
  else if (w.testBit 40 && !u.arrQ.isEmpty) || (w.testBit 41 && !u.vecQ.isEmpty) || (w.testBit 42 && !u.fcQ.isEmpty)
    || (w.testBit 43 && ((List.range 8).any fun g => fld (Tab.get 0 u.grps g) 4 0 ≠ 0)) then .wait .waitOther 0
  else c.retire

/-- The done message of a core (R41, R249). -/
def donePacket (logical : Nat) (pass : BitVec 32) : Packet :=
  { Packet.empty with opc := 0xA, sclass := 1, daddr := 0x600500002000, src := srcCore logical, pass := pass, didx := 288 }

/-- PDONE: it waits for every unit and every acknowledgement, then sends the done message and halts (R41, R212). -/
def bodyPdone : Body := fun s p w c =>
  if nfld w 47 0 ≠ 0 then c.illegal
  else if !c.units.arrQ.isEmpty || !c.units.vecQ.isEmpty || !c.units.fcQ.isEmpty || c.units.busy || !c.units.held.isEmpty then
    .wait .waitOther 0
  else
    .halt { c with seq := { c.seq with mode := .halted, doneSent := true } }
      (if c.seq.doneSent then [] else [donePacket ((s.logicalOf p).getD 0) c.seq.passNum])

/-- BREAK: at debug level FULL it halts in TRAPPED and records itself; otherwise it is an ILLEGAL_INSTR trap (R178, R179, R439). -/
def bodyBreak : Body := fun s _ w c =>
  if nfld w 47 0 ≠ 0 || s.sec.level ≠ 2 then c.illegal
  else
    .halt { c with seq := { c.seq with mode := .trapped, dbgHalted := true, trap := c.trapImage trBreak 0,
                                       pc := c.seq.pc + 1 } } []

end Sys2Proof.Machine
end

