-- ==== Sys2Proof/Machine/Units.lean ====
section
/-! DEFINITION. Issue of array operations, vector chains, fills and copies, and their completion in the units (R79 to R80, R99,
R121, R132 to R140, R194 to R196). -/

namespace Sys2Proof.Machine

/-! ### Array issue -/

/-- What a weight set will hold once the operations issued so far have run (R85). -/
def CoreUnits.plan (u : CoreUnits) (w : Bool) : Option WsetTag := if w then u.plan1 else u.plan0

/-- Issues a legal array operation (R80, R128, R132, R133, R157): the oldest operation is in progress and four may wait behind it. -/
def Core.issueArr (c : Core) (k : ArrKind) : Res :=
  let plan := match k with
    | .mmaWs _ _ w _ _ _ _ => c.units.plan w
    | _ => none
  match arrRanges plan k with
  | none => c.illegal
  | some rs =>
    if !(rs.all fun r => r.1.all fun x => inPad x.1 x.2) then c.illegal
    else match (rs.flatMap Prod.fst).find? (fun x => !c.ownOk x.1 x.2) with
    | some x => .trap c trBank x.1
    | none =>
      let sb := rs.flatMap fun r => hull r.1 r.2
      if c.units.arrQ.length ≥ 5 then .stall false
      else c.through sb <|
        let (d, id) := c.enter false sb
        let u := { d.units with arrQ := d.units.arrQ ++ [{ id := id, kind := k, numCtrl := c.num.ctrl }] }
        let u := match k with
          | .wload w b _ _ sparse halfk =>
            let t : WsetTag := { tb := b.type, sparse := sparse, halfk := halfk }
            if w then { u with plan1 := some t } else { u with plan0 := some t }
          | _ => u
        ({ d with units := u } : Core).retire

/-- A scale or metadata operand: its pair word, or (0, 0) with the register field 0 when it is not used (R181, R194). -/
def Core.pairIf (c : Core) (used : Bool) (r : Nat) : Option (Nat × Nat) :=
  if used then pairOf (c.sreg r) else if r = 0 then some (0, 0) else none

/-- MMA.OS (R194). -/
def bodyMmaOs : Body := fun _ _ w c =>
  let sparse := w.testBit 12
  match streamOf (c.sreg (nfld w 33 29)), streamOf (c.sreg (nfld w 28 24)) with
  | some a, some b =>
    match c.pairIf (typeMx a.type || typeMx b.type) (nfld w 23 19), c.pairIf sparse (nfld w 18 14) with
    | some (sa, sb), some (md, z) =>
      if nfld w 10 0 ≠ 0 || z ≠ 0 then c.illegal
      else c.issueArr (.mmaOs (nfld w 53 46) (nfld w 45 34 + 1) a b sa sb md (w.testBit 13) sparse (w.testBit 11))
    | _, _ => c.illegal
  | _, _ => c.illegal

/-- MMA.WS (R194); its step belongs to the weight set, whose type decides with TA whether an operand is MX. -/
def bodyMmaWs : Body := fun _ _ w c =>
  match streamOf (c.sreg (nfld w 33 29)) with
  | some a =>
    let setMx := match c.units.plan (w.testBit 34) with
      | some t => typeMx t.tb
      | none => false
    match c.pairIf (typeMx a.type || setMx) (nfld w 23 19) with
    | some (sa, _) =>
      if nfld w 10 0 ≠ 0 || w.testBit 12 || nfld w 18 14 ≠ 0 || nfld w 28 24 ≠ 0 then c.illegal
      else c.issueArr (.mmaWs (nfld w 53 46) (nfld w 45 35 + 1) (w.testBit 34) a sa (w.testBit 13) (w.testBit 11))
    | none => c.illegal
  | none => c.illegal

/-- WLOAD (R194). -/
def bodyWload : Body := fun _ _ w c =>
  let sparse := w.testBit 12
  match streamOf (c.sreg (nfld w 28 24)) with
  | some b =>
    match c.pairIf (typeMx b.type) (nfld w 23 19), c.pairIf sparse (nfld w 18 14) with
    | some (_, sb), some (md, z) =>
      if nfld w 10 0 ≠ 0 || w.testBit 13 || nfld w 33 29 ≠ 0 || nfld w 53 35 ≠ 0 || z ≠ 0 then c.illegal
      else c.issueArr (.wload (w.testBit 34) b sb md sparse (w.testBit 11))
    | _, _ => c.illegal
  | none => c.illegal

/-- ACC.LOAD (R98, R194). -/
def bodyAccLoad : Body := fun _ _ w c =>
  let ts := nfld w 32 25
  match pairOf (c.sreg (nfld w 37 33)) with
  | some (src, stride) =>
    if nfld w 24 0 ≠ 0 || !(ts = 0 || ts = 9) then c.illegal
    else c.issueArr (.accLoad (nfld w 53 46) (nfld w 45 38 + 1) src stride)
  | none => c.illegal

/-- DRAIN (R96, R194). -/
def bodyDrain : Body := fun _ _ w c =>
  let ra := w.testBit 16
  let rb := w.testBit 15
  match pairOf (c.sreg (nfld w 37 33)), c.pairIf (ra || rb) (nfld w 24 20) with
  | some (dest, stride), some (rsa, rsb) =>
    if nfld w 12 0 ≠ 0 then c.illegal
    else c.issueArr (.drain (nfld w 53 46) (nfld w 45 38 + 1) dest stride (BitVec.ofNat 8 (nfld w 32 25))
      (BitVec.ofNat 2 (nfld w 19 18)) (w.testBit 17) ra rb (w.testBit 14) (w.testBit 13) rsa rsb)
  | _, _ => c.illegal

/-! ### Vector chains -/

/-- VCHAIN (R100, R121, R122, R195): the descriptor is read once its own range is free of hazards. -/
def bodyVchain : Body := fun _ _ w c =>
  let off := c.effective (nfld w 53 49) (nfld w 48 27)
  if nfld w 26 0 ≠ 0 || off % 64 ≠ 0 || !inPad off 192 then c.illegal
  else if !c.ownOk off 192 then .trap c trBank off
  else if hazard c.units.sb off (off + 191) false then .stall true
  else
    let (x, bad) := c.sp.check [(off, 192)]
    match bad with
    | some e => .trap { c with sp := x } trSpUe e
    | none =>
      let bytes := Memory.read x.mem off 192
      let d := vDesc bytes
      if !d.ok then c.illegal
      else match ((d.ranges off).flatMap Prod.fst).find? (fun r => !c.ownOk r.1 r.2) with
      | some r => .trap c trBank r.1
      | none =>
        let sb := (d.ranges off).flatMap fun r => hull r.1 r.2
        if (c.units.vecQ.filter fun h => !h.started).length ≥ 2 then .stall false
        else c.through sb <|
          let (e, id) := ({ c with sp := x } : Core).enter false sb
          let h : Chain := { id := id, desc := bytes, numCtrl := c.num.ctrl, started := c.units.vecQ.isEmpty, sumDone := false }
          ({ e with units := { e.units with vecQ := e.units.vecQ ++ [h] } } : Core).retire

/-! ### Fill and copy (R139, R196) -/

/-- Whether a range may be filled or copied (R139). -/
def Core.fcOk (c : Core) (a n : Nat) : Bool := a % 32 = 0 && n % 32 = 0 && 32 ≤ n && n ≤ 0x300000 && inPad a n && c.ownOk a n

/-- The scoreboard ranges of a fill or copy (R132). -/
def fcRanges (copy : Bool) (dest src len : Nat) : List SbRange :=
  (if copy then [(src, src + len - 1, false)] else []) ++ [(dest, dest + len - 1, true)]

/-- A fill or copy joins the unit's queue. -/
def Core.enterFc (c : Core) (copy spec : Bool) (dest src len : Nat) (pattern : BitVec 64) : Core × Nat :=
  let (d, id) := c.enter spec (fcRanges copy dest src len)
  ({ d with units := { d.units with fcQ := d.units.fcQ ++
      [{ id := id, copy := copy, dest := dest, src := src, len := len, pattern := pattern, spec := spec }] } }, id)

/-- FILL (R139, R196). -/
def bodyFill : Body := fun _ _ w c =>
  let dest := (c.sreg (nfld w 53 49)).toNat
  let len := (c.sreg (nfld w 48 44)).toNat
  if nfld w 37 0 ≠ 0 || !c.fcOk dest len then c.illegal
  else if c.units.fcQ.length ≥ 5 then .stall false
  else c.through (fcRanges false dest 0 len) (c.enterFc false false dest 0 len (c.sreg (nfld w 43 39))).1.retire

/-- COPY (R139, R196). -/
def bodyCopy : Body := fun _ _ w c =>
  let dest := (c.sreg (nfld w 53 49)).toNat
  let len := (c.sreg (nfld w 48 44)).toNat
  let src := (c.sreg (nfld w 43 39)).toNat
  if nfld w 38 0 ≠ 0 || !c.fcOk dest len || !c.fcOk src len then c.illegal
  else if c.units.fcQ.length ≥ 5 then .stall false
  else c.through (fcRanges true dest src len) (c.enterFc true false dest src len 0).1.retire

/-- The `n` bytes of a repeated 64-bit pattern (R196). -/
def patternBytes (v : BitVec 64) (n : Nat) : List Byte := (List.replicate (n / 8) (leBytes 8 v.toNat)).flatten

/-- Runs a fill or copy: a copy reads its whole source before it writes (R139). -/
def Core.runFc (c : Core) (o : FcOp) : UnitRes :=
  if o.copy then
    c.readOr [(o.src, o.len)] fun c => .ok { c with sp := c.sp.store o.dest (Memory.read c.sp.mem o.src o.len) }
  else .ok { c with sp := c.sp.store o.dest (patternBytes o.pattern o.len) }

/-! ### Completion -/

/-- After an operation has left a unit: its entries are released and the control packets that waited for them leave (R134, R162). -/
def Core.leave (c : Core) (id : Nat) : Core × List Packet :=
  let (u, ks) := ({ c.units with sb := sbRelease c.units.sb id } : CoreUnits).flush
  ({ c with units := u }, ks)

/-- The outcome of a unit's operation: it leaves, or the core traps (R150, R177). -/
def Core.unitDone (r : UnitRes) (id : Nat) : Core × List Packet :=
  match r with
  | .ok d => d.leave id
  | .trap d cause addr =>
    let (e, ks) := d.trap cause addr
    let (f, ks2) := e.leave id
    (f, ks ++ ks2)

/-- The oldest array operation runs and leaves the array (R99). -/
def Core.arrComplete (c : Core) : Core × List Packet :=
  match c.units.arrQ with
  | [] => (c, [])
  | o :: rest => Core.unitDone (({ c with units := { c.units with arrQ := rest } } : Core).runArr o) o.id

/-- The oldest fill or copy that is not held runs and leaves the unit (R137, R139, R140). -/
def Core.fcComplete (c : Core) : Core × List Packet :=
  match c.units.fcQ with
  | [] => (c, [])
  | o :: rest => if o.spec then (c, []) else Core.unitDone (({ c with units := { c.units with fcQ := rest } } : Core).runFc o) o.id

/-- The oldest chain that waits starts to enter its tiles (R121). -/
def startFirst : List Chain → List Chain
  | [] => []
  | h :: t => if h.started then h :: startFirst t else { h with started := true } :: t

/-- The summary of a chain (R116). -/
def Core.chainSummary (c : Core) (h : Chain) : BitVec 64 :=
  let d := vDesc h.desc
  (d.run c.sp h.numCtrl c.num.seed c.num.gens).sum.value d.sumk

/-- The oldest started chain writes its summary register (R116). -/
def Core.summaryWrite (c : Core) : Core :=
  match c.units.vecQ with
  | [] => c
  | h :: rest =>
    let d := vDesc h.desc
    if h.started && !h.sumDone && d.sumk ≠ 0 then
      { c with seq := { c.seq with uregs := Tab.set 0 c.seq.uregs d.ureg (c.chainSummary h) },
               units := { c.units with vecQ := { h with sumDone := true } :: rest } }
    else c

/-- Runs a chain: reads through ECC, then every write of OUT and RED, the flags and the tile count (R100 to R118). -/
def Core.runChain (c : Core) (h : Chain) : UnitRes :=
  let d := vDesc h.desc
  c.readOr d.reads fun c =>
    let r := d.run c.sp h.numCtrl c.num.seed c.num.gens
    .ok (({ c with sp := r.sp, num := { c.num with gens := r.gens },
                   units := { c.units with vecTiles := c.units.vecTiles + BitVec.ofNat 64 (d.trows * d.tcols) } } : Core).raise r.fl)

/-- The oldest started chain makes its last writes and is complete (R119, R121). -/
def Core.chainComplete (c : Core) : Core × List Packet :=
  match c.units.vecQ with
  | [] => (c, [])
  | h :: _ =>
    if h.started then
      let d := c.summaryWrite
      Core.unitDone (({ d with units := { d.units with vecQ := d.units.vecQ.drop 1 } } : Core).runChain h) h.id
    else (c, [])

end Sys2Proof.Machine
end

