-- ==== Sys2Proof/Machine/Fabric.lean ====
section
/-! DEFINITION. Fabric transfers of a core: building their packets, issue, answers, completion and timeout (R197 to R203). -/

namespace Sys2Proof.Machine

/-- A packet of core p with its source, class, context and pass (R248, R276). -/
def corePacket (s : State) (p : Nat) (c : Core) : Packet :=
  { Packet.empty with sclass := 1, ctx := c.frontSlot.ctx, src := srcCore ((s.logicalOf p).getD 0), pass := c.seq.passNum }

/-- A piece of a transfer: fabric address, length and local offset. -/
structure Part where
  addr  : Nat
  len   : Nat
  off   : Nat
  deriving DecidableEq, Repr

/-- The pieces of a transfer of `n` bytes, cut at 4 KiB fabric boundaries (R249, R271). -/
def partsOf (addr off n : Nat) : List Part :=
  (cut4k addr (n / 4096 + 2) n).map fun e => { addr := e.1, len := e.2, off := off + (e.1 - addr) }

/-- What the pieces of a transfer became: packets sent, answers awaited, the status of pieces that cannot be sent, and the local
ranges of those. -/
structure Sent where
  units  : CoreUnits
  out    : List Packet
  left   : List Piece
  status : BitVec 4
  failed : List (Nat × Nat)
  deriving DecidableEq, Repr

/-- Sends one piece: the network interface translates its address now (R27, R28), and it takes the next SEQ (R254). -/
def sendPart (s : State) (k : Packet) (stream : Nat) (mk : Part → Packet → Packet) (a : Sent) (e : Part) : Sent :=
  match s.resolve false e.addr with
  | .error st => { a with status := firstBad a.status st, failed := a.failed ++ [(e.off, e.len)] }
  | .ok (didx, node) =>
    let (seq, u) := a.units.nextSeq node stream
    let q := mk e { k with daddr := BitVec.ofNat 48 e.addr, seq := seq, stream := BitVec.ofNat 8 stream, didx := didx }
    { a with units := u, out := a.out ++ [q],
             left := a.left ++ [{ node := node, stream := BitVec.ofNat 8 stream, seq := seq, bytes := e.len }] }

/-- Sends all pieces. -/
def sendParts (s : State) (u : CoreUnits) (k : Packet) (stream : Nat) (mk : Part → Packet → Packet) (es : List Part) : Sent :=
  es.foldl (sendPart s k stream mk) { units := u, out := [], left := [], status := 0, failed := [] }

/-- An RD_REQ for a piece whose data lands at the core's own offset (R249). -/
def mkRead (spec : Bool) (e : Part) (k : Packet) : Packet :=
  { k with opc := 1, tc := 1, spec := spec, len := BitVec.ofNat 14 e.len, aux := padAddr k.src.toNat e.off }

/-- A WR that carries a piece's bytes. -/
def mkWrite (mem : Tab Byte) (e : Part) (k : Packet) : Packet :=
  { k with opc := 3, tc := 2, len := BitVec.ofNat 14 e.len, data := Memory.read mem e.off e.len }

/-- A HINT for a piece (R249, R271). -/
def mkHint (spec : Bool) (e : Part) (k : Packet) : Packet :=
  { k with opc := 9, tc := 1, spec := spec, aux := BitVec.ofNat 48 e.len }

/-- A transfer with nothing done yet. -/
def Xfer.fresh (id : Nat) (kind : XferKind) (grp : Nat) (now : Nat) : Xfer :=
  { id := id, kind := kind, grp := BitVec.ofNat 3 grp, left := [], status := 0, delivered := 0, pruned := 0, issued := now,
    spec := false, cancelled := false, held := [], reissue := [], packets := [] }

/-- Whether the engine has room for another transfer (R157). -/
def CoreUnits.dmaRoom (u : CoreUnits) : Bool := (u.xfers.filter fun x => x.kind ≠ .hint).length < 16

/-- The engine with a transfer added; a transfer that is not speculative joins its group (R200, R201). -/
def CoreUnits.addXfer (u : CoreUnits) (x : Xfer) : CoreUnits :=
  let v := { u with xfers := u.xfers ++ [x] }
  if x.spec || x.kind = .hint then v else v.join x.grp.toNat

/-- The checks of R197 on a local range and a length with alignment `al`. -/
def Core.localOk (_c : Core) (al off n : Nat) : Bool := off % al = 0 && n % al = 0 && al ≤ n && n ≤ 0x300000 && inPad off n

/-- Issues a read of `n` bytes from a fabric address into a local range (R137, R197, R200). The bytes of pieces that cannot be sent
read as zeros (R27). -/
def Core.issueFrd (s : State) (p : Nat) (c : Core) (spec : Bool) (grp off addr n : Nat) : Core × Nat × List Packet :=
  let (d, id) := c.enter spec [(off, off + n - 1, true)]
  let k := corePacket s p d
  let r := sendParts s d.units k grp (mkRead spec) (partsOf addr off n)
  let zeros := r.failed.map fun e => (e.1, List.replicate e.2 (0 : Byte))
  let x := { Xfer.fresh id .frd grp s.tclk with left := r.left, status := r.status, spec := spec, packets := r.out,
                                                held := if spec then zeros else [] }
  let e := { d with units := r.units.addXfer x }
  (if spec then e else { e with sp := zeros.foldl (fun sp z => sp.store z.1 z.2) e.sp }, id, r.out)

/-- FRD (R197). -/
def bodyFrd : Body := fun s p w c =>
  let off := (c.sreg (nfld w 53 49)).toNat
  let addr := (c.sreg (nfld w 48 44)).toNat
  let n := (c.sreg (nfld w 43 39)).toNat
  if nfld w 34 0 ≠ 0 || addr ≥ 2 ^ 48 || addr % 8 ≠ 0 || !c.localOk 8 off n then c.illegal
  else if !c.ownOk off n then .trap c trBank off
  else if !c.units.dmaRoom then .stall false
  else c.through [(off, off + n - 1, true)] <|
    let (d, _, ks) := Core.issueFrd s p c false (nfld w 38 36) off addr n
    .done d (c.seq.pc.toNat + 1) ks []

/-- Reads a local source through ECC for an outbound transfer (R150). -/
def Core.outbound (c : Core) (off n : Nat) (k : Core → Res) : Res :=
  let (x, bad) := c.sp.check [(off, n)]
  match bad with
  | some e => .trap { c with sp := x } trSpUe e
  | none => k { c with sp := x }

/-- FWR (R197): the source bytes are read as the instruction issues. -/
def bodyFwr : Body := fun s p w c =>
  let off := (c.sreg (nfld w 53 49)).toNat
  let addr := (c.sreg (nfld w 48 44)).toNat
  let n := (c.sreg (nfld w 43 39)).toNat
  if nfld w 35 0 ≠ 0 || addr ≥ 2 ^ 48 || addr % 8 ≠ 0 || !c.localOk 8 off n then c.illegal
  else if !c.ownOk off n then .trap c trBank off
  else if !c.units.dmaRoom then .stall false
  else c.through [(off, off + n - 1, false)] <|
    c.outbound off n fun c =>
      let (d, id) := c.enter false [(off, off + n - 1, false)]
      let r := sendParts s d.units (corePacket s p d) (nfld w 38 36) (mkWrite d.sp.mem) (partsOf addr off n)
      let x := { Xfer.fresh id .fwr (nfld w 38 36) s.tclk with left := r.left, status := r.status, packets := r.out }
      .done { d with units := r.units.addXfer x } (c.seq.pc.toNat + 1) r.out []

/-- The site mask of a logical sett mask, and how many selected setts are absent (R263). -/
def State.siteMask (s : State) (setts : Nat) : Nat × Nat :=
  (bitsOf 256 setts).foldl (fun a sid => match s.siteOfSett sid with
    | some site => (a.1 ||| 2 ^ site, a.2)
    | none => (a.1, a.2 + 1)) (0, 0)

/-- The multicast packets of an MCW: one per 4 KiB of destination offset, rooted at the sender's own site (R249, R263). -/
def mkMcw (mem : Tab Byte) (base : Nat) (site sites cores : Nat) (e : Part) (k : Packet) : Packet :=
  { k with opc := 5, tc := 3, daddr := BitVec.ofNat 48 (0x400000000000 + e.addr), len := BitVec.ofNat 14 e.len,
           didx := BitVec.ofNat 10 (320 + site), data := Memory.read mem (base + e.off) e.len,
           mcx := some { sites := BitVec.ofNat 272 sites, root := BitVec.ofNat 10 (320 + site), sctl := false,
                         cores := BitVec.ofNat 64 cores } }

/-- Sends the packets of a multicast; SEQ counts by the root (R254). -/
def sendMcw (u : CoreUnits) (root : BitVec 15) (stream : Nat) (ks : List Packet) : CoreUnits × List Packet × List Piece :=
  ks.foldl (fun a k =>
    let (seq, v) := a.1.nextSeq root stream
    (v, a.2.1 ++ [{ k with seq := seq, stream := BitVec.ofNat 8 stream }],
      a.2.2 ++ [{ node := root, stream := BitVec.ofNat 8 stream, seq := seq, bytes := 0 }])) (u, [], [])

/-- MCW (R197, R199, R263): the 48-byte mask is read during issue. -/
def bodyMcw : Body := fun s p w c =>
  let off := (c.sreg (nfld w 53 49)).toNat
  let dest := (c.sreg (nfld w 48 44)).toNat
  let n := (c.sreg (nfld w 43 39)).toNat
  let m := (c.sreg (nfld w 34 30)).toNat
  if nfld w 29 0 ≠ 0 || w.testBit 35 || dest ≥ 2 ^ 48 || dest % 32 ≠ 0 || !c.localOk 32 off n || m % 64 ≠ 0 || !inPad m 48 then
    c.illegal
  else if !c.ownOk off n then .trap c trBank off
  else if !c.ownOk m 48 then .trap c trBank m
  else if hazard c.units.sb m (m + 47) false then .stall true
  else if !c.units.dmaRoom then .stall false
  else c.through [(off, off + n - 1, false)] <|
    c.outbound m 48 fun c => c.outbound off n fun c =>
      let mask := leNat (Memory.read c.sp.mem m 48)
      if nfld mask 383 320 ≠ 0 then c.illegal
      else
        let (sites, absent) := s.siteMask (nfld mask 255 0)
        let cores := nfld mask 319 256
        let (d, id) := c.enter false [(off, off + n - 1, false)]
        let ks := if sites = 0 then [] else
          (partsOf dest 0 n).map fun e => mkMcw d.sp.mem off (siteOf p) sites cores e (corePacket s p d)
        let (u, out, left) := sendMcw d.units (srcSett (siteOf p)) (nfld w 38 36) ks
        let x := { Xfer.fresh id .mcw (nfld w 38 36) s.tclk with left := left, packets := out }
        let v := u.addXfer x
        let v := { v with grps := Tab.mod 0 v.grps (nfld w 38 36) fun g => satFld g 63 48 (absent * popc 64 cores) }
        .done { d with units := v } (c.seq.pc.toNat + 1) out []

/-- Whether [addr, addr + n) lies in one of the two HBM ranges (R24, R197). -/
def inHbm (addr n : Nat) : Bool := addr + n ≤ 0x20000000000 || (0x200000000000 ≤ addr && addr + n ≤ 0x220000000000)

/-- The pieces of a hint, one for each 4 KiB stripe (R271, R279). -/
def hintSend (s : State) (p : Nat) (c : Core) (spec : Bool) (addr n : Nat) : Sent :=
  sendParts s c.units (corePacket s p c) 0 (mkHint spec) (partsOf addr 0 n)

/-- HINT (R197): it belongs to no group and has no completion; outside HBM it is a no-op. -/
def bodyHint : Body := fun s p w c =>
  let addr := (c.sreg (nfld w 48 44)).toNat
  let n := (c.sreg (nfld w 43 39)).toNat
  if nfld w 34 0 ≠ 0 || nfld w 38 36 ≠ 0 || nfld w 53 49 ≠ 0 || addr ≥ 2 ^ 48 || n = 0 || n > 0x1000000 then c.illegal
  else if !inHbm addr n then c.retire
  else
    let r := hintSend s p c false addr n
    .done { c with units := r.units } (c.seq.pc.toNat + 1) r.out []

/-- The flow register of the front bank (R225). -/
def Core.flow (c : Core) (f : Nat) : BitVec 64 := Tab.get 0 c.mesh.flow (b2n c.sp.front * 64 + f)

/-- MSEND (R197, R198, R219): the message enters the flow's injection queue. -/
def bodyMsend : Body := fun s p w c =>
  let off := (c.sreg (nfld w 53 49)).toNat
  let dest := (c.sreg (nfld w 48 44)).toNat
  let n := (c.sreg (nfld w 43 39)).toNat
  let fl := c.flow (nfld w 35 30)
  if nfld w 29 0 ≠ 0 || dest % 32 ≠ 0 || !c.localOk 32 off n || !bit fl 63 || fld fl 62 49 = (s.logicalOf p).getD 0 then c.illegal
  else if !c.ownOk off n then .trap c trBank off
  else if !c.units.dmaRoom then .stall false
  else c.through [(off, off + n - 1, false)] <|
    c.outbound off n fun c =>
      let (d, id) := c.enter false [(off, off + n - 1, false)]
      let grp := nfld w 38 36
      let dst := srcCore (fld fl 62 49)
      let e : Piece := { node := dst, stream := BitVec.ofNat 8 (248 + grp), seq := BitVec.ofNat 16 id, bytes := 0 }
      let x := { Xfer.fresh id .msend grp s.tclk with left := [e] }
      .done { d with units := d.units.addXfer x } (c.seq.pc.toNat + 1) []
        [{ id := id * 19584 + p, src := p, tid := id, grp := grp, flow := nfld w 35 30, dest := BitVec.ofNat 14 (fld fl 62 49), off := dest,
           tag := d.seq.passNum.setWidth 4, data := Memory.read d.sp.mem off n }]

/-- The selected groups of DWAIT. -/
def grpsOf (mask : Nat) : List Nat := bitsOf 8 mask

/-- DWAIT (R203). -/
def bodyDwait : Body := fun _ _ w c =>
  let gs := grpsOf (nfld w 53 46)
  let pd := nfld w 44 42
  if nfld w 41 0 ≠ 0 || nfld w 53 46 = 0 then c.illegal
  else if gs.any (fun g => fld (Tab.get 0 c.units.grps g) 4 0 ≠ 0) then .wait .waitOther 0
  else
    let d := c.setPred pd (gs.all fun g => fld (Tab.get 0 c.units.grps g) 27 16 = 0)
    (if w.testBit 45 then
      { d with units := { d.units with grps := gs.foldl (fun t g => Tab.mod 0 t g fun x => setFld x 63 16 0) d.units.grps } }
     else d).retire

/-! ### Answers and completion -/

/-- Whether an answer from node `src` matches a piece (R254). -/
def Piece.hits (e : Piece) (k : Packet) : Bool := e.node = k.src && e.stream = k.stream && e.seq = k.seq

/-- Bytes held for a speculative read (R137). -/
def heldBytes (l : List (Nat × List Byte)) : Nat := sumN (l.map fun e => e.2.length)

/-- A read answer on its transfer: the piece counts down, or ends on a status other than OK. -/
def Xfer.answer (x : Xfer) (k : Packet) : Xfer :=
  { x with status := firstBad x.status k.status,
           left := x.left.filterMap fun e =>
             if e.hits k then (if k.status ≠ 0 || e.bytes ≤ k.data.length then none else some { e with bytes := e.bytes - k.data.length })
             else some e }

/-- Counts a packet that lands payload in CORE_RING_ARR_n (R254). -/
def Core.ringCount (c : Core) (stream : BitVec 8) (n : Nat) : Core :=
  { c with ringArr := Tab.mod 0 c.ringArr (stream.toNat % 16) fun v =>
      setFld (setFld v 31 0 (fld v 31 0 + 1)) 63 32 (fld v 63 32 + n) }

/-- Bytes held for all speculative reads of a core. -/
def CoreUnits.landed (u : CoreUnits) : Nat := sumN (u.xfers.map fun x => heldBytes x.held)

/-- A read response reaches the core that asked (R134, R137, R150, R173): its data lands, is held, or is discarded. -/
def Core.rdRsp (c : Core) (k : Packet) : Core × List Packet :=
  match c.units.xfers.find? (fun x => x.kind = .frd && x.left.any fun e => e.hits k) with
  | none => (c, [])
  | some x =>
    let off := k.daddr.toNat % 0x400000
    let y := x.answer k
    let put := fun (z : Xfer) => c.units.xfers.map fun t => if t.id = x.id then z else t
    if x.cancelled then
      if y.left.isEmpty then
        ({ c with units := { c.units with xfers := c.units.xfers.filter (fun t => t.id ≠ x.id), sb := sbRelease c.units.sb x.id } }, [])
      else ({ c with units := { c.units with xfers := put y } }, [])
    else if x.spec then
      if k.data.isEmpty || c.units.landed + k.data.length ≤ 16384 then
        let z := if k.data.isEmpty then y else { y with held := y.held ++ [(off, k.data)] }
        ({ c with units := { c.units with xfers := put z } }, [])
      else
        let again := x.packets.filter fun q => q.seq = k.seq && q.stream = k.stream && x.left.any fun e => e.hits k
        ({ c with units := { c.units with xfers := put { y with reissue := y.reissue ++ again } } }, [])
    else
      let d := { c with units := { c.units with xfers := put y } }
      let d := if k.data.isEmpty then d else { d.ringCount k.stream k.data.length with sp := d.sp.store off k.data }
      if k.status = stUe && d.seq.mode ≠ .halted then d.trap trSpUe off else (d, [])

/-- Takes `n` acknowledged pieces of a node and stream out of a list: the named one first, then the oldest (R253). -/
def ackPieces (src : BitVec 15) (stream : BitVec 8) : Nat → List Piece → List Piece
  | _, [] => []
  | 0, l => l
  | n + 1, e :: t => if e.node = src && e.stream = stream then ackPieces src stream n t else e :: ackPieces src stream (n + 1) t

/-- An acknowledgement counts on the transfers in issue order; each takes what is left of the count. -/
def ackXfers (k : Packet) : Nat → List Xfer → List Xfer
  | _, [] => []
  | n, x :: t =>
    if x.kind = .frd || x.kind = .hint then x :: ackXfers k n t
    else
      let left := ackPieces k.src k.stream n x.left
      let took := x.left.length - left.length
      if took = 0 then x :: ackXfers k n t
      else
        let y := { x with left := left, status := firstBad x.status k.status,
                          delivered := if x.kind = .mcw then max x.delivered (nfld k.aux.toNat 29 15) else 0,
                          pruned := if x.kind = .mcw then max x.pruned (nfld k.aux.toNat 14 0) else 0 }
        y :: ackXfers k (n - took) t

/-- An acknowledgement reaches the core that sent the packets (R253, R265): the packet it names, then the oldest ones up to its
COUNT. -/
def CoreUnits.ack (u : CoreUnits) (k : Packet) : CoreUnits :=
  let n := nfld k.aux.toNat 47 32
  let named := u.xfers.map fun x =>
    if x.kind ≠ .frd && x.kind ≠ .hint && x.left.any (fun e => e.hits k) then
      { x with left := x.left.filter (fun e => e.hits k) ++ x.left.filter fun e => !e.hits k }
    else x
  let first := named.filter fun x => x.kind ≠ .frd && x.kind ≠ .hint && x.left.any fun e => e.hits k
  let rest := named.filter fun x => !(x.kind ≠ .frd && x.kind ≠ .hint && x.left.any fun e => e.hits k)
  let done := ackXfers k n (first ++ rest)
  { u with xfers := u.xfers.filterMap fun x => done.find? fun y => y.id = x.id }

/-- Transfer `tid` completes when nothing of it is left (R200). -/
def CoreUnits.complete1 (u : CoreUnits) (tid : Nat) : CoreUnits × List Packet :=
  match u.xfers.find? (fun x => x.id = tid) with
  | some x => if x.left.isEmpty && !x.spec then (u.finish x x.status).flush else (u, [])
  | none => (u, [])

/-- TIMEOUT_US of CORE_DMA_CFG in TCLK cycles; 0 acts as 1. -/
def CoreUnits.timeoutNs (u : CoreUnits) : Nat := max 1 (fld u.dmaCfg 15 0) * 1000

/-- Transfer `tid` ends with TIMEOUT once TIMEOUT_US have passed since its issue (R200). -/
def CoreUnits.timeout1 (u : CoreUnits) (now tid : Nat) : CoreUnits × List Packet :=
  match u.xfers.find? (fun x => x.id = tid) with
  | some x =>
    if !x.spec && !x.left.isEmpty && x.issued + u.timeoutNs ≤ now then (u.finish x stTimeout).flush else (u, [])
  | none => (u, [])

end Sys2Proof.Machine
end

