-- ==== Sys2Proof/Machine/Counting.lean ====
section
/-! DEFINITION. Tokens, credits, windows, circular buffers and waits for time (R141 to R148, R159 to R165, R204 to R210). -/

namespace Sys2Proof.Machine

/-! ### Tokens and credits -/

/-- COUNT of TOKn. -/
def Core.tokCount (c : Core) (n : Nat) : Nat := fld (Tab.get 0 c.seq.tok n) 15 0

/-- COUNT of CRDn. -/
def Core.crdCount (c : Core) (n : Nat) : Nat := fld (Tab.get 0 c.seq.crd n) 15 0

/-- TOKn with a new COUNT. -/
def Core.setTok (c : Core) (n v : Nat) : Core := { c with seq := { c.seq with tok := Tab.mod 0 c.seq.tok n fun x => setFld x 15 0 v } }

/-- CRDn with a new COUNT. -/
def Core.setCrd (c : Core) (n v : Nat) : Core := { c with seq := { c.seq with crd := Tab.mod 0 c.seq.crd n fun x => setFld x 15 0 v } }

/-- Whether the count of a TWAIT, CWAIT, TSEND or CRET word is encoded as R181 and R204 ask and lies in 1 to 65,535. -/
def Core.kOk (c : Core) (w : Nat) : Bool :=
  let kr := w.testBit 48
  let k := c.countK kr (nfld w 47 43) (nfld w 42 27)
  (if kr then nfld w 42 27 = 0 else nfld w 47 43 = 0) && 1 ≤ k && k ≤ 65535

/-- The count of such a word. -/
def Core.kOf (c : Core) (w : Nat) : Nat := c.countK (w.testBit 48) (nfld w 47 43) (nfld w 42 27)

/-- TWAIT (R160). -/
def bodyTwait : Body := fun _ _ w c =>
  let n := nfld w 53 49
  if nfld w 26 0 ≠ 0 || !c.kOk w then c.illegal
  else if c.tokCount n < c.kOf w then .wait .waitTok (c.tokCount n)
  else (c.setTok n (c.tokCount n - c.kOf w)).retire

/-- CWAIT (R160). -/
def bodyCwait : Body := fun _ _ w c =>
  let n := nfld w 53 49
  if nfld w 26 0 ≠ 0 || !c.kOk w then c.illegal
  else if c.crdCount n < c.kOf w then .wait .waitCrd (c.crdCount n)
  else (c.setCrd n (c.crdCount n - c.kOf w)).retire

/-- A TOKEN or CREDIT packet of k for counter n of a core (R249). -/
def countPacket (k : Packet) (opc dest n v : Nat) : Packet :=
  { k with opc := BitVec.ofNat 6 opc, daddr := padAddr dest 0, aux := BitVec.ofNat 48 (n * 65536 + v) }

/-- The transfers whose acknowledgement a token waits for: remote, DMA and HBM writes issued before it (R161). -/
def CoreUnits.writesOut (u : CoreUnits) : List Nat :=
  (u.xfers.filter fun x => x.kind = .fwr || x.kind = .mcw || x.kind = .msend).map Xfer.id

/-- The operations whose READ entries a credit return waits for (R162). -/
def CoreUnits.readsOut (u : CoreUnits) : List Nat := (u.sb.filter fun e => !e.write).map SbEntry.owner

/-- Issues a TSEND or CRET (R161, R162, R164, R200, R204): the packet is held until its condition holds. -/
def sendCount (s : State) (p : Nat) (w : Nat) (c : Core) (token : Bool) : Res :=
  let dr := w.testBit 26
  let dest := if dr then fld (c.sreg (nfld w 25 21)) 13 0 else nfld w 20 7
  let grp := nfld w 6 4
  if nfld w 3 0 ≠ 0 || !c.kOk w || (if dr then nfld w 20 7 ≠ 0 else nfld w 25 21 ≠ 0) then c.illegal
  else if !c.units.dmaRoom then .stall false
  else
    let (d, id) := c.enter false []
    let x := Xfer.fresh id (if token then .tsend else .cret) grp s.tclk
    let dead := match s.coreAt dest with
      | some q => (s.core q).fenced
      | none => true
    if dead then
      let e := { d with units := d.units.addXfer { x with status := stAbsent } }
      .done e (c.seq.pc.toNat + 1) [] []
    else
      let (seq, u) := d.units.nextSeq (srcCore dest) grp
      let k := countPacket { corePacket s p d with seq := seq, stream := BitVec.ofNat 8 grp, didx := BitVec.ofNat 10 (dest / 64) }
        (if token then 6 else 7) dest (nfld w 53 49) (c.kOf w)
      let e : Piece := { node := srcCore dest, stream := BitVec.ofNat 8 grp, seq := seq, bytes := 0 }
      let h : HeldSend := { packet := k, tid := some id, writes := if token then c.units.writesOut else [],
                            reads := if token then [] else c.units.readsOut }
      let u := u.addXfer { x with left := [e] }
      let (u, ks) := ({ u with held := u.held ++ [h] } : CoreUnits).flush
      .done { d with units := u } (c.seq.pc.toNat + 1) ks []

/-- TSEND (R160, R161). -/
def bodyTsend : Body := fun s p w c => sendCount s p w c true

/-- CRET (R160, R162). -/
def bodyCret : Body := fun s p w c => sendCount s p w c false

/-! ### Circular buffers (R145 to R148, R207 to R209) -/

/-- Configuration of buffer n. -/
def Core.cb (c : Core) (n : Nat) : BitVec 64 := Tab.get 0 c.sp.cbCfg n

/-- DEPTH of a configuration. -/
def cbDepth (x : BitVec 64) : Nat := 2 ^ fld x 29 26

/-- ENTRY of a configuration, in bytes. -/
def cbEntry (x : BitVec 64) : Nat := (fld x 40 30 + 1) * 32

/-- HEAD of buffer n. -/
def Core.cbHead (c : Core) (n : Nat) : Nat := fld (Tab.get 0 c.sp.cbPtr n) 15 0

/-- TAIL of buffer n. -/
def Core.cbTail (c : Core) (n : Nat) : Nat := fld (Tab.get 0 c.sp.cbPtr n) 31 16

/-- COUNT of buffer n (R145). -/
def Core.cbCount (c : Core) (n : Nat) : Nat := (65536 + c.cbTail n - c.cbHead n) % 65536

/-- Whether a configuration that enables a buffer keeps the rules of R145 and R207 with the counts that buffer n holds. -/
def Core.cbOk (c : Core) (x : BitVec 64) (n : Nat) : Bool :=
  fld x 29 26 ≤ 12 && fld x 62 41 % 32 = 0 && c.ownOk (fld x 62 41) (cbDepth x * cbEntry x) && c.cbCount n ≤ cbDepth x

/-- Buffer n with new HEAD and TAIL. -/
def Core.setCb (c : Core) (n head tail : Nat) : Core :=
  { c with sp := { c.sp with cbPtr := Tab.set 0 c.sp.cbPtr n (BitVec.ofNat 32 (tail % 65536 * 65536 + head % 65536)) } }

/-- CBCFG (R207): the buffer is disabled first, then reset if asked, then configured. -/
def bodyCbcfg : Body := fun _ _ w c =>
  let n := nfld w 53 50
  let x := c.sreg (nfld w 49 45)
  if nfld w 43 0 ≠ 0 then c.illegal
  else
    let d := { c with sp := { c.sp with cbCfg := Tab.mod 0 c.sp.cbCfg n fun y => setBit y 63 false } }
    let d := if w.testBit 44 then d.setCb n 0 0 else d
    if bit x 63 && !d.cbOk x n then .trap d trIllegal 0
    else ({ d with sp := { d.sp with cbCfg := Tab.set 0 d.sp.cbCfg n x } }).retire

/-- CBPUSH (R146, R208). -/
def bodyCbpush : Body := fun _ _ w c =>
  let n := nfld w 53 50
  if nfld w 49 0 ≠ 0 || !bit (c.cb n) 63 then c.illegal
  else if c.cbCount n ≥ cbDepth (c.cb n) then .wait .waitCb (c.cbCount n)
  else (c.setCb n (c.cbHead n) (c.cbTail n + 1)).retire

/-- CBPOP (R147, R162, R208): the credit return leaves once earlier reads are released. -/
def bodyCbpop : Body := fun s p w c =>
  let n := nfld w 53 50
  let kr := w.testBit 49
  let k := c.countK kr (nfld w 48 44) (nfld w 43 31)
  let x := c.cb n
  if nfld w 30 0 ≠ 0 || (if kr then nfld w 43 31 ≠ 0 else nfld w 48 44 ≠ 0) || !bit x 63 || k < 1 || cbDepth x < k then c.illegal
  else if c.cbCount n < k then .wait .waitCb (c.cbCount n)
  else
    let d := c.setCb n (c.cbHead n + k) (c.cbTail n)
    if !bit x 19 then d.retire
    else
      let dest := fld x 13 0
      let (seq, u) := d.units.nextSeq (srcCore dest) 0
      let q := countPacket { corePacket s p d with seq := seq, didx := BitVec.ofNat 10 (dest / 64) } 7 dest (fld x 18 14) k
      let h : HeldSend := { packet := q, tid := none, writes := [], reads := c.units.readsOut }
      if (s.coreAt dest).isNone then d.retire
      else
        let (u, ks) := ({ u with held := u.held ++ [h] } : CoreUnits).flush
        .done { d with units := u } (c.seq.pc.toNat + 1) ks []

/-- CBADDR (R209). -/
def bodyCbaddr : Body := fun _ _ w c =>
  let n := nfld w 53 50
  let x := c.cb n
  let base := if w.testBit 44 then c.cbTail n else c.cbHead n
  if nfld w 31 0 ≠ 0 || !bit x 63 then c.illegal
  else (c.setSreg (nfld w 49 45)
    (BitVec.ofNat 64 (fld x 62 41 + (base + nfld w 43 32) % cbDepth x * cbEntry x))).retire

/-- The circular buffer that consumes tokens for TOKn, if there is one: the lowest (R146). -/
def Core.cbForTok (c : Core) (n : Nat) : Option Nat :=
  (List.range 16).find? fun i => bit (c.cb i) 63 && bit (c.cb i) 25 && fld (c.cb i) 24 20 = n

/-- Tokens reach a core (R146, R163): a linked buffer takes them, else TOKn counts them; an overflow stops at the limit and traps. -/
def Core.tokenIn (c : Core) (n k : Nat) : Core × List Packet :=
  match c.cbForTok n with
  | some i =>
    let depth := cbDepth (c.cb i)
    if c.cbCount i + k ≤ depth then (c.setCb i (c.cbHead i) (c.cbTail i + k), [])
    else
      let d := c.setCb i (c.cbHead i) (c.cbHead i + depth)
      ({ d with sp := { d.sp with cbOvf := setBit d.sp.cbOvf i true } } : Core).trap trCbOvf 0
  | none =>
    if c.tokCount n + k ≤ 65535 then (c.setTok n (c.tokCount n + k), [])
    else
      let d := c.setTok n 65535
      ({ d with seq := { d.seq with tok := Tab.mod 0 d.seq.tok n fun x => setBit x 63 true } } : Core).trap trTokOvf 0

/-- LIMIT of CRDn; 0 acts as 65,535 (R163). -/
def Core.crdLimit (c : Core) (n : Nat) : Nat :=
  let l := fld (Tab.get 0 c.seq.crd n) 31 16
  if l = 0 then 65535 else l

/-- Credits reach a core (R163). -/
def Core.creditIn (c : Core) (n k : Nat) : Core × List Packet :=
  if c.crdCount n + k ≤ c.crdLimit n then (c.setCrd n (c.crdCount n + k), [])
  else
    let d := c.setCrd n (c.crdLimit n)
    ({ d with seq := { d.seq with crd := Tab.mod 0 d.seq.crd n fun x => setBit x 63 true } } : Core).trap trCrdOvf 0

/-! ### Windows (R141 to R144, R205, R206) -/

/-- Whether [base, limit) may be opened as a window (R143). -/
def Core.winOk (c : Core) (base limit : Nat) : Bool :=
  base % 32 = 0 && limit % 32 = 0 && base < limit && limit ≤ 0x300000 && c.ownOk base (limit - base)

/-- Opens window n, which clears its byte count (R143, R205). -/
def Core.openWin (c : Core) (n : Nat) (cfg filt : BitVec 64) : Core :=
  { c with sp := { c.sp with winCfg := Tab.set 0 c.sp.winCfg n cfg, winFilt := Tab.set 0 c.sp.winFilt n filt,
                             winBytes := Tab.set 0 c.sp.winBytes n 0 } }

/-- CORE_WIN_CFG_n of an open window. -/
def winImage (base limit : Nat) : BitVec 64 := BitVec.ofNat 64 (2 ^ 63 + base * 2 ^ 41 + limit * 2 ^ 19)

/-- WOPEN (R143, R205). -/
def bodyWopen : Body := fun _ _ w c =>
  let f := c.sreg (nfld w 44 40)
  match pairOf (c.sreg (nfld w 49 45)) with
  | none => c.illegal
  | some (base, limit) =>
    if nfld w 39 0 ≠ 0 || fld f 63 37 ≠ 0 || fld f 31 28 ≠ 0 || !c.winOk base limit then c.illegal
    else (c.openWin (nfld w 53 50) (winImage base limit) f).retire

/-- Closes the windows of a mask. -/
def Core.closeWins (c : Core) (mask : Nat) : Core :=
  { c with sp := { c.sp with winCfg := (bitsOf 16 mask).foldl (fun t n => Tab.mod 0 t n fun x => setBit x 63 false) c.sp.winCfg } }

/-- WCLOSE (R144, R206). -/
def bodyWclose : Body := fun _ _ w c =>
  if nfld w 37 0 ≠ 0 || nfld w 53 38 = 0 then c.illegal else (c.closeWins (nfld w 53 38)).retire

/-- Whether window n admits a write of class `cls` from logical core `src` at [a, a + n) (R141, R142); a window reaches the front slot's
banks only, also after a flip (R128). -/
def Core.winAdmits (c : Core) (n cls src a len : Nat) : Bool :=
  let x := Tab.get 0 c.sp.winCfg n
  let f := Tab.get 0 c.sp.winFilt n
  bit x 63 && fld x 62 41 ≤ a && a + len ≤ fld x 40 19 && c.ownOk a len && bit f (32 + cls)
    && (cls ≥ 2 || (src ^^^ fld f 27 14) &&& fld f 13 0 = 0)

/-- A remote write meets the window check (R141): it lands through the lowest admitting window, or is dropped and counted. The
status is what its sender hears. `cls` is the class code of CORE_WIN_DROPS. -/
def Core.remoteWrite (c : Core) (cls src a : Nat) (bs : List Byte) : Core × BitVec 4 :=
  if !inPad a bs.length then (c, stUnmapped)
  else match (List.range 16).find? (fun n => c.winAdmits n cls src a bs.length) with
    | some n =>
      let x := c.sp.store a bs
      ({ c with sp := { x with winBytes := Tab.mod 0 x.winBytes n fun v => v + BitVec.ofNat 32 bs.length } }, stOk)
    | none =>
      let v := setFld (satFld c.sp.winDrops 31 20 1) 19 17 cls
      let v := if cls < 2 then setFld v 13 0 src else v
      ({ c with sp := { c.sp with winDrops := v } }, stWindow)

/-! ### Time (R210) -/

/-- The panel time a WAITT waits for: s[ra] + IMM32, plus the launch time when REL (R210). -/
def Core.waitTarget (c : Core) (w : Nat) : BitVec 64 :=
  c.sreg (nfld w 53 49) + BitVec.ofNat 64 (nfld w 47 16) + (if w.testBit 48 then c.seq.launchT else 0)

/-- WAITT (R210). -/
def bodyWaitt : Body := fun s p w c =>
  if nfld w 15 0 ≠ 0 then c.illegal
  else if (s.coreTime p).ult (c.waitTarget w) then .wait .waitTime 0
  else c.retire

end Sys2Proof.Machine
end

