-- ==== Sys2Proof/Machine/Seq.lean ====
section
/-! DEFINITION. Issue of instructions, adoption of run-ahead entries, run-ahead itself, and waking a blocked core (R156, R157, R165
to R174, R179). -/

namespace Sys2Proof.Machine

/-! ### The opcode map (R184) -/

/-- The system instructions by FN (R211). -/
def sysBody (fn : Nat) : Option Body :=
  match fn with
  | 0 => some bodyNop
  | 1 => some bodyPdone
  | 2 => some bodyBreak
  | 3 => some bodyFence
  | _ => none

/-- The core state instructions by FN (R189). -/
def csrBody (fn : Nat) : Option Body :=
  match fn with
  | 0 => some bodyRdreg
  | 1 => some bodyWrreg
  | 2 => some bodyRdtime
  | 3 => some bodyRdlaunch
  | 4 => some bodyMovu
  | 5 => some bodyRdid
  | _ => none

/-- The scalar, system and branch opcodes 0x00 to 0x0D. -/
def bodyLow (w : Nat) : Option Body :=
  let fn := nfld w 53 48
  match nfld w 63 58 with
  | 0x00 => sysBody fn
  | 0x01 => some bodyAluR
  | 0x02 => some bodyAluI
  | 0x03 => if fn = 0 then some bodyLil else if fn = 1 then some bodyLih else none
  | 0x04 => if fn = 0 then some bodyExt else if fn = 1 then some bodyDep else none
  | 0x05 => some bodyLd
  | 0x06 => some bodySt
  | 0x07 => csrBody (nfld w 53 50)
  | 0x08 => if fn = 0 then some bodyJ else if fn = 1 then some bodyJal else if fn = 2 then some bodyJr else none
  | 0x09 => some bodyBcmp
  | 0x0A => some bodyBsum
  | 0x0B => some bodyPset
  | 0x0C => some bodyPsum
  | 0x0D => some bodyPlog
  | _ => none

/-- The unit, fabric, counting and time opcodes 0x10 to 0x38. -/
def bodyHigh (w : Nat) : Option Body :=
  match nfld w 63 58 with
  | 0x10 => some bodyMmaOs
  | 0x11 => some bodyMmaWs
  | 0x12 => some bodyWload
  | 0x13 => some bodyAccLoad
  | 0x14 => some bodyDrain
  | 0x18 => some bodyVchain
  | 0x1C => some bodyFill
  | 0x1D => some bodyCopy
  | 0x20 => some bodyFrd
  | 0x21 => some bodyFwr
  | 0x22 => some bodyMcw
  | 0x23 => some bodyHint
  | 0x24 => some bodyMsend
  | 0x25 => some bodyDwait
  | 0x28 => some bodyTwait
  | 0x29 => some bodyCwait
  | 0x2A => some bodyTsend
  | 0x2B => some bodyCret
  | 0x2C => some bodyWopen
  | 0x2D => some bodyWclose
  | 0x30 => some bodyCbcfg
  | 0x31 => some bodyCbpush
  | 0x32 => some bodyCbpop
  | 0x33 => some bodyCbaddr
  | 0x38 => some bodyWaitt
  | _ => none

/-- An encoding that the chapter leaves unassigned (R181). -/
def bodyUnassigned : Body := fun _ _ _ c => c.illegal

/-- The meaning of a word. -/
def bodyOf (w : Nat) : Body := ((bodyLow w).or (bodyHigh w)).getD bodyUnassigned

/-- The word of the instruction store at a program counter, in the front slot's half (R154, R180). -/
def Core.fetch (c : Core) (pc : Nat) : Nat := leNat (Memory.read c.istore (b2n c.sp.front * 0x8000 + 8 * pc) 8)

/-! ### Adoption (R137, R172) -/

/-- The operand values of a permitted instruction, as its log entry records them (R170). -/
def raOperands (c : Core) (w : Nat) : List (BitVec 64) :=
  match nfld w 63 58 with
  | 0x23 => [c.sreg (nfld w 48 44), c.sreg (nfld w 43 39)]
  | _ => [c.sreg (nfld w 53 49), c.sreg (nfld w 48 44), c.sreg (nfld w 43 39)]

/-- The log entry of the path's next step, when the step is at the present PC and issued an operation. -/
def Core.nextEntry (c : Core) : Option RaEntry :=
  match c.seq.ra with
  | none => none
  | some r =>
    match r.path with
    | [] => none
    | st :: _ => if st.pc = c.seq.pc.toNat then r.log.find? fun e => st.op = some e.opId else none

/-- The core with a log entry gone. -/
def Core.dropEntry (c : Core) (id : Nat) : Core :=
  { c with seq := { c.seq with ra := c.seq.ra.map fun r => { r with log := r.log.filter fun e => e.opId ≠ id } } }

/-- The units once operation `id` is no longer speculative. -/
def CoreUnits.confirm (u : CoreUnits) (id : Nat) : CoreUnits :=
  let v := { u with sb := u.sb.map (fun e => if e.owner = id then { e with spec := false } else e),
                    fcQ := u.fcQ.map fun o => if o.id = id then { o with spec := false } else o }
  match u.xfers.find? (fun x => x.id = id) with
  | none => v
  | some x =>
    if x.kind = .hint then { v with xfers := v.xfers.filter fun y => y.id ≠ id }
    else
      ({ v with xfers := v.xfers.map fun y => if y.id = id then { y with spec := false, held := [], reissue := [] } else y }
        : CoreUnits).join x.grp.toNat

/-- Adopts a log entry: SPEC clears, the held FILL may run, held data is written and reads marked for reissue are sent (R172). -/
def Core.adopt (c : Core) (e : RaEntry) : Res :=
  let held := match c.units.xfers.find? (fun x => x.id = e.opId) with
    | some x => x.held
    | none => []
  let again := match c.units.xfers.find? (fun x => x.id = e.opId) with
    | some x => x.reissue.map fun k => { k with spec := false }
    | none => []
  let d := c.dropEntry e.opId
  let d := { d with units := d.units.confirm e.opId, sp := held.foldl (fun sp z => sp.store z.1 z.2) d.sp,
                    seq := { d.seq with raStat := satFld d.seq.raStat 47 32 1 } }
  .done d (c.seq.pc.toNat + 1) again []

/-- The effect of an instruction whose guard reads true: it adopts the log entry of its place on the logged path when word and operands
agree, and issues otherwise; an entry that does not agree is cancelled (R172). -/
def State.effect (s : State) (p w : Nat) (body : Body) (c : Core) : Res × List Packet :=
  match c.nextEntry with
  | none => (body s p w c, [])
  | some e =>
    if e.word.toNat = w ∧ e.operands = raOperands c w then (c.adopt e, [])
    else
      let (d, ks) := c.cancelEntries [e]
      (body s p w (d.dropEntry e.opId), ks)

/-! ### Following the logged path after the wait (R172) -/

/-- After an instruction at `pc` went on at `next`: the path is followed, or left, in which case every entry is cancelled; the log ends
with its last recorded instruction. -/
def Core.follow (c : Core) (pc next : Nat) : Core × List Packet :=
  match c.seq.ra with
  | none => (c, [])
  | some r =>
    match r.path with
    | [] => c.cancelAll
    | st :: rest =>
      if st.pc ≠ pc then (if st.pc = next then (c, []) else c.cancelAll)
      else if st.next ≠ next || rest.all (fun t => t.op.isNone) then c.cancelAll
      else ({ c with seq := { c.seq with ra := some { r with path := rest } } }, [])

/-! ### What issue comes to -/

/-- A sequencer that retires an instruction goes on, or halts when debug has asked for it (R179). -/
def CoreSeq.goOn (q : CoreSeq) (next : Nat) : CoreSeq :=
  if q.haltReq then
    { q with pc := BitVec.ofNat 12 next, mode := .trapped, dbgHalted := true, haltReq := false, blocked := none }
  else { q with pc := BitVec.ofNat 12 next, mode := .run, blocked := none }

/-- Retires an instruction at the core's PC and goes on at `next`; an advance past 4,095 traps (R155). -/
def Core.advance (c : Core) (next : Nat) : Core × List Packet :=
  if next ≤ 4095 then
    let (d, ks) := c.follow c.seq.pc.toNat next
    ({ d with seq := d.seq.goOn next }, ks)
  else c.trap trPcRange 0

/-- Blocks on a wait; the time and the firings are kept while the waited-on count is the same (R165). -/
def Core.block (c : Core) (now w : Nat) (m : SeqMode) (count : Nat) : Core :=
  let b : Blocked := match c.seq.blocked with
    | some b => if b.count = count then b else { b with count := count, since := now, fires := 0 }
    | none => { word := BitVec.ofNat 64 w, since := now, count := count, fires := 0 }
  { c with seq := { c.seq with mode := m, blocked := some b } }

/-- A stall: counted in CORE_SB_STALLS when the scoreboard causes it (R133). -/
def Core.stalled (c : Core) (sb : Bool) : Core :=
  if sb then { c with units := { c.units with sbStalls := c.units.sbStalls + 1 } } else c

/-- The state after an instruction of core p came to `r`. -/
def State.finishIssue (s : State) (p w : Nat) (c : Core) (r : Res) (ks : List Packet) : State :=
  match r with
  | .done d next out msgs =>
    let (e, more) := d.advance next
    { (s.setCore p e).send (ks ++ out ++ more) with mesh := s.mesh ++ msgs }
  | .halt d out =>
    let (e, more) := d.cancelAll
    (s.setCore p { e with seq := { e.seq with blocked := none, haltReq := false } }).send (ks ++ out ++ more)
  | .stall sb => s.setCore p (c.stalled sb)
  | .wait m count => s.setCore p (c.block s.tclk w m count)
  | .trap d cause addr =>
    let (e, more) := d.trap cause addr
    (s.setCore p e).send (ks ++ more)

/-- The instruction word `w` with meaning `body` at the PC of core p: a false guard makes it a no-op (R156, R181). -/
def State.issueWord (s : State) (p w : Nat) (body : Body) : State :=
  let c := s.core p
  if guardTrue c w then
    let (r, ks) := s.effect p w body c
    s.finishIssue p w c r ks
  else s.finishIssue p w c c.retire []

/-- A sequencer row of core p: it issues only while the sequencer runs. -/
def State.issue (s : State) (p op : Nat) (g : Guard) (b : Nat) (body : Body) : State :=
  if (s.core p).seq.mode = .run then s.issueWord p (seqWord op g b) body else s

/-- Whether a sequencer is blocked on a wait. -/
def SeqMode.waits : SeqMode → Bool
  | .waitTok | .waitCrd | .waitCb | .waitTime | .waitOther => true
  | _ => false

/-- A blocked instruction of core p is tried again after an event that may complete its wait. -/
def State.wake (s : State) (p : Nat) : State :=
  match (s.core p).seq.blocked with
  | none => s
  | some b => if (s.core p).seq.mode.waits then s.issueWord p b.word.toNat (bodyOf b.word.toNat) else s

/-- Core p becomes `r.1`, the packets of `r.2` leave, and a wait of the core may complete. -/
def State.settle (s : State) (p : Nat) (r : Core × List Packet) : State := ((s.setCore p r.1).send r.2).wake p

/-! ### Run-ahead (R167 to R171) -/

/-- The shadow of run-ahead: a core whose scalar registers, predicates and PC are the shadow's, and the registers that are not KNOWN (sn
as n, pn as 32 + n). -/
structure Shadow where
  core : Core
  unk  : List Nat

/-- What an instruction comes to in run-ahead. -/
inductive RaOut where
  | on (x : Shadow) (next : Nat)
  | predict (x : Shadow) (taken : Option Nat) (hint : Bool)
  | spec
  | stop

/-- The shadow with a register's KNOWN bit set or cleared; s0 and p0 are always KNOWN. -/
def Shadow.mark (x : Shadow) (r : Nat) (known : Bool) : Shadow :=
  if r = 0 || r = 32 then x
  else if known then { x with unk := x.unk.filter (· ≠ r) } else { x with unk := addOnce x.unk r }

/-- Whether all registers of a list are KNOWN. -/
def Shadow.known (x : Shadow) (rs : List Nat) : Bool := rs.all fun r => !x.unk.contains r

/-- The registers that an instruction of the scalar ALU, summary or branch classes reads. -/
def raInputs (w : Nat) : List Nat :=
  match nfld w 63 58 with
  | 0x01 => [nfld w 42 38, nfld w 37 33]
  | 0x02 => [nfld w 42 38]
  | 0x03 => if nfld w 53 48 = 1 then [nfld w 47 43] else []
  | 0x04 => if nfld w 53 48 = 1 then [nfld w 42 38, nfld w 47 43] else [nfld w 42 38]
  | 0x08 => if nfld w 53 48 = 2 then [nfld w 42 38] else []
  | 0x09 => [nfld w 50 46, nfld w 45 41]
  | 0x0A => [nfld w 46 42]
  | 0x0B => [nfld w 50 46, nfld w 45 41]
  | 0x0C => [nfld w 46 42]
  | 0x0D => [32 + nfld w 46 44, 32 + nfld w 43 41]
  | 0x1C => [nfld w 53 49, nfld w 48 44, nfld w 43 39]
  | 0x20 => [nfld w 53 49, nfld w 48 44, nfld w 43 39]
  | 0x23 => [nfld w 48 44, nfld w 43 39]
  | _ => []

/-- The register that such an instruction writes, 0 for none. -/
def raDest (w : Nat) : Nat :=
  match nfld w 63 58 with
  | 0x01 | 0x02 | 0x03 | 0x04 => nfld w 47 43
  | 0x07 => nfld w 49 45
  | 0x08 => if nfld w 53 48 = 1 then nfld w 47 43 else 0
  | 0x0B | 0x0C => 32 + nfld w 19 17
  | 0x0D => 32 + nfld w 49 47
  | _ => 0

/-- Whether a word is of a class that run-ahead executes on the shadow: scalar ALU, NOP, or a summary read (R168, R184). -/
def raScalar (w : Nat) : Bool :=
  match nfld w 63 58 with
  | 0x00 => nfld w 53 48 = 0
  | 0x01 | 0x02 | 0x03 | 0x04 | 0x0B | 0x0C | 0x0D => true
  | 0x07 => nfld w 53 50 = 4
  | _ => false

/-- A scalar instruction in run-ahead; `known` says whether its guard and inputs are KNOWN. -/
def Shadow.scalar (x : Shadow) (s : State) (p w : Nat) (known : Bool) : RaOut :=
  match bodyOf w s p w x.core with
  | .done d next _ _ => .on ({ x with core := d } |>.mark (raDest w) known) next
  | .wait _ _ => .on (x.mark (raDest w) false) (x.core.seq.pc.toNat + 1)
  | _ => .stop

/-- The place of a branch's HINT bit. -/
def raHintBit (w : Nat) : Nat := if nfld w 63 58 = 8 then 37 else if nfld w 63 58 = 9 then 39 else 40

/-- A branch in run-ahead (R166, R168, R190). -/
def Shadow.branch (x : Shadow) (s : State) (p w : Nat) (known : Bool) : RaOut :=
  let jr := nfld w 63 58 = 8 && nfld w 53 48 = 2
  if nfld w 63 58 = 8 && nfld w 53 48 > 2 then .stop
  else if jr && !known then .stop
  else match bodyOf w s p w x.core, known with
    | .done d next _ _, true => .on ({ x with core := d } |>.mark (raDest w) true) next
    | .trap .., true => .stop
    | .trap _ cause _, false => if cause = trIllegal then .stop
      else .predict (x.mark (raDest w) false) (relTarget x.core.seq.pc.toNat (nfld w 15 0)) (w.testBit (raHintBit w))
    | _, _ => .predict (x.mark (raDest w) false) (relTarget x.core.seq.pc.toNat (nfld w 15 0)) (w.testBit (raHintBit w))

/-- The instruction `w` at the shadow's PC in run-ahead (R168). -/
def Shadow.eval (x : Shadow) (s : State) (p w : Nat) : RaOut :=
  let gk := x.known [32 + nfld w 56 54]
  let op := nfld w 63 58
  if gk && !guardTrue x.core w then .on x (x.core.seq.pc.toNat + 1)
  else if raScalar w then x.scalar s p w (gk && x.known (raInputs w))
  else if op = 8 || op = 9 || op = 10 then x.branch s p w (gk && x.known (raInputs w))
  else if ((op = 0x20 || op = 0x23) && w.testBit 35 || op = 0x1C && w.testBit 38) && gk && x.known (raInputs w) then .spec
  else .stop

/-- Issues a permitted FRD, HINT or FILL speculatively: the core with the operation, its id and its packets; none where the issue would
trap or finds no room, which ends run-ahead (R137, R168). A HINT that is a no-op issues nothing. -/
def Core.speculate (s : State) (p w : Nat) (c : Core) : Option (Core × Option Nat × List Packet) :=
  let a := (c.sreg (nfld w 53 49)).toNat
  let b := (c.sreg (nfld w 48 44)).toNat
  let n := (c.sreg (nfld w 43 39)).toNat
  if nfld w 63 58 = 0x20 then
    if nfld w 34 0 ≠ 0 || b ≥ 2 ^ 48 || b % 8 ≠ 0 || !c.localOk 8 a n || !c.ownOk a n || !c.units.dmaRoom
      || !sbReady c.units.sb [(a, a + n - 1, true)] then none
    else
      let (d, id, ks) := Core.issueFrd s p c true (nfld w 38 36) a b n
      some (d, some id, ks)
  else if nfld w 63 58 = 0x23 then
    if nfld w 34 0 ≠ 0 || nfld w 38 36 ≠ 0 || nfld w 53 49 ≠ 0 || b ≥ 2 ^ 48 || n = 0 || n > 0x1000000 then none
    else if !inHbm b n then some (c, none, [])
    else
      let (d, id) := c.enter true []
      let r := hintSend s p d true b n
      let x := { Xfer.fresh id .hint 0 s.tclk with spec := true, packets := r.out }
      some ({ d with units := r.units.addXfer x }, some id, r.out)
  else
    if nfld w 37 0 ≠ 0 || !c.fcOk a b || c.units.fcQ.length ≥ 5 || !sbReady c.units.sb (fcRanges false a 0 b) then none
    else
      let (d, id) := c.enterFc false true a 0 b (c.sreg (nfld w 43 39))
      some (d, some id, [])

/-- A run-ahead episode under way: its shadow, the predicted branches so far, the log, the path and the packets sent. -/
structure Episode where
  x        : Shadow
  branches : Nat
  log      : List RaEntry
  path     : List RaStep
  out      : List Packet

/-- The episode at a new PC, with a step added to its path. -/
def Episode.goto (e : Episode) (x : Shadow) (next : Nat) (predicted : Bool) (op : Option Nat) : Episode :=
  { e with x := { x with core := { x.core with seq := { x.core.seq with pc := BitVec.ofNat 12 next } } },
           branches := e.branches + b2n predicted,
           path := e.path ++ [{ pc := e.x.core.seq.pc.toNat, next := next, predicted := predicted, op := op }] }

/-- The episode after at most `fuel` instructions. -/
def Episode.run (s : State) (p : Nat) : Nat → Episode → Episode
  | 0, e => e
  | fuel + 1, e =>
    let w := e.x.core.fetch e.x.core.seq.pc.toNat
    match e.x.eval s p w with
    | .stop => e
    | .on x next => if next ≤ 4095 then Episode.run s p fuel (e.goto x next false none) else e
    | .predict x taken hint =>
      match (if hint then taken else some (e.x.core.seq.pc.toNat + 1)) with
      | none => e
      | some next => if e.branches < 4 && next ≤ 4095 then Episode.run s p fuel (e.goto x next true none) else e
    | .spec =>
      match Core.speculate s p w e.x.core with
      | none => e
      | some (d, op, ks) =>
        let pc := e.x.core.seq.pc.toNat
        let log := match op with
          | some id => e.log ++ [{ pc := pc, word := BitVec.ofNat 64 w, operands := raOperands e.x.core w, branches := e.branches,
                                   opId := id }]
          | none => e.log
        let f := { e.goto { e.x with core := d } (pc + 1) false op with log := log, out := e.out ++ ks }
        if log.length < 8 && pc + 1 ≤ 4095 then Episode.run s p fuel f else f

/-- BUDGET of CORE_RA_CFG: 0 acts as 1, values above 64 as 64. -/
def CoreSeq.budget (q : CoreSeq) : Nat := max 1 (min 64 (fld q.raCfg 6 0))

/-- Run-ahead of core p, behind a token, credit or buffer wait (R167). -/
def State.runAhead (s : State) (p : Nat) : State :=
  let c := s.core p
  let m := c.seq.mode
  if (m = .waitTok || m = .waitCrd || m = .waitCb) && c.seq.ra.isNone && bit c.seq.raCfg 31 && c.seq.pc.toNat < 4095 then
    let shadow := { c with seq := { c.seq with pc := c.seq.pc + 1 } }
    let e := Episode.run s p c.seq.budget { x := { core := shadow, unk := [] }, branches := 0, log := [], path := [], out := [] }
    let stat := satFld c.seq.raStat 63 48 1
    (s.setCore p { c with units := e.x.core.units, seq := { c.seq with raStat := stat, ra := some { log := e.log, path := e.path } } }).send
      e.out
  else s

/-- A replay of the logged path up to its first predicted branch whose condition is now KNOWN and differs: the path up to there and the
predicted branches before it, or none when no prediction has failed (R171). -/
def replay (s : State) (p : Nat) : Shadow → Nat → List RaStep → Option (List RaStep × Nat)
  | _, _, [] => none
  | x, k, st :: rest =>
    match x.eval s p (x.core.fetch st.pc) with
    | .on y next =>
      if st.predicted && next ≠ st.next then some ([{ st with next := next, predicted := false }], k)
      else
        let z := { y with core := { y.core with seq := { y.core.seq with pc := BitVec.ofNat 12 st.next } } }
        (replay s p z (k + b2n st.predicted) rest).map fun r => (st :: r.1, r.2)
    | .predict y _ _ =>
      let z := { y with core := { y.core with seq := { y.core.seq with pc := BitVec.ofNat 12 st.next } } }
      (replay s p z (k + b2n st.predicted) rest).map fun r => (st :: r.1, r.2)
    | _ =>
      let z := { x with core := { x.core with seq := { x.core.seq with pc := BitVec.ofNat 12 st.next } } }
      (replay s p z k rest).map fun r => (st :: r.1, r.2)

/-- After a summary write: a failed prediction cancels every log entry recorded after its branch (R171). -/
def State.checkPredictions (s : State) (p : Nat) : State :=
  let c := s.core p
  match c.seq.ra with
  | none => s
  | some r =>
    if r.path.all (fun st => !st.predicted) || !c.seq.mode.waits then s
    else
      let shadow := { c with seq := { c.seq with pc := c.seq.pc + 1 } }
      match replay s p { core := shadow, unk := [] } 0 r.path with
      | none => s
      | some (path, k) =>
        let (d, ks) := c.cancelEntries (r.log.filter fun e => decide (k < e.branches))
        let ra := some { log := r.log.filter (fun e => decide (e.branches ≤ k)), path := path }
        (s.setCore p { d with seq := { d.seq with ra := ra } }).send ks

end Sys2Proof.Machine
end

