-- ==== Sys2Proof/Machine/UnitRows.lean ====
section
/-! DEFINITION. Events of a core's own units: completions, run-ahead, watchdog, debug control, window and bank registers, scrub. -/

namespace Sys2Proof.Machine

/-! ### Completions -/

/-- The ACLK cycles that the array has lost since its last completion: a free value, for the model has no ACLK (log entry 38). -/
def State.arrLost (s : State) (p : Nat) : State :=
  if (s.core p).units.arrQ.isEmpty then s
  else s.fresh.2.modCore p fun c => { c with units := { c.units with arrStalls := c.units.arrStalls + s.fresh.1.setWidth 64 } }

/-- The ACLK cycles that the chain in progress has lost: a free value (log entry 38). -/
def State.vecLost (s : State) (p : Nat) : State :=
  if (s.core p).units.vecQ.any Chain.started then
    s.fresh.2.modCore p fun c => { c with units := { c.units with vecStalls := c.units.vecStalls + s.fresh.1.setWidth 64 } }
  else s

/-- ARRAY_OP_COMPLETE (R99, R134). -/
def execArrayOpComplete (p : PCore) (s : State) : Host.Outcome State Fault Refusal :=
  let t := s.arrLost p.val
  .next (t.settle p.val (t.core p.val).arrComplete)

/-- The core with its oldest waiting chain started (R121). -/
def Core.startChain (c : Core) : Core := { c with units := { c.units with vecQ := startFirst c.units.vecQ } }

/-- CHAIN_START (R121). -/
def execChainStart (p : PCore) (s : State) : Host.Outcome State Fault Refusal := .next (s.modCore p.val Core.startChain)

/-- CHAIN_COMPLETE (R119, R121); a summary that it writes may resolve predictions (R171). -/
def execChainComplete (p : PCore) (s : State) : Host.Outcome State Fault Refusal :=
  let t := s.vecLost p.val
  .next ((t.settle p.val (t.core p.val).chainComplete).checkPredictions p.val)

/-- SUMMARY_WRITE (R116, R171). -/
def execSummaryWrite (p : PCore) (s : State) : Host.Outcome State Fault Refusal :=
  .next ((s.settle p.val ((s.core p.val).summaryWrite, [])).checkPredictions p.val)

/-- FILL_COPY_COMPLETE (R139, R140). -/
def execFillCopyComplete (p : PCore) (s : State) : Host.Outcome State Fault Refusal :=
  .next (s.settle p.val (s.core p.val).fcComplete)

/-- A change of the units with packets that leave, as a change of the core. -/
def Core.withUnits (c : Core) (r : CoreUnits × List Packet) : Core × List Packet := ({ c with units := r.1 }, r.2)

/-- TRANSFER_COMPLETE (R200, R202). -/
def execTransferComplete (p : PCore) (tid : Nat) (s : State) : Host.Outcome State Fault Refusal :=
  let c := s.core p.val
  .next (s.settle p.val (c.withUnits (c.units.complete1 tid)))

/-- TRANSFER_TIMEOUT (R200). -/
def execTransferTimeout (p : PCore) (tid : Nat) (dt : Nat) (s : State) : Host.Outcome State Fault Refusal :=
  let c := s.core p.val
  .next ((s.pass dt).settle p.val (c.withUnits (c.units.timeout1 (s.tclk + dt) tid)))

/-- RUN_AHEAD_START (R167). -/
def execRunAheadStart (p : PCore) (s : State) : Host.Outcome State Fault Refusal := .next (s.runAhead p.val)

/-! ### The credit watchdog (R165) -/

/-- LIMIT_US of CORE_WDOG_CFG in TCLK cycles; 0 acts as 1. -/
def CoreSeq.wdogNs (q : CoreSeq) : Nat := max 1 (fld q.wdogCfg 15 0) * 1000

/-- KIND, INDEX and PEER of a blocked word (R165). -/
def Core.wdogReport (c : Core) (w : Nat) : Nat × Nat × Nat :=
  match nfld w 63 58 with
  | 0x28 => (0, nfld w 53 49, fld (Tab.get 0 c.seq.tok (nfld w 53 49)) 55 42)
  | 0x29 => (1, nfld w 53 49, fld (Tab.get 0 c.seq.crd (nfld w 53 49)) 55 42)
  | 0x32 => (2, nfld w 53 50, fld (c.cb (nfld w 53 50)) 13 0)
  | _ => (3, nfld w 53 50, fld (Tab.get 0 c.seq.tok (fld (c.cb (nfld w 53 50)) 24 20)) 55 42)

/-- The watchdog of a core at TCLK count `now`: it fires once LIMIT_US have passed without a change of the waited-on count, and rearms. -/
def Core.wdogFire (c : Core) (now : Nat) : Core :=
  match c.seq.blocked with
  | none => c
  | some b =>
    let m := c.seq.mode
    if (m = .waitTok || m = .waitCrd || m = .waitCb) && bit c.seq.wdogCfg 31 && b.since + c.seq.wdogNs ≤ now then
      let (kind, index, peer) := c.wdogReport b.word.toNat
      let st := setFld (setFld (setFld (satFld c.seq.wdogStat 31 24 1) 23 22 kind) 21 17 index) 13 0 peer
      { c with seq := { c.seq with wdogStat := st, blocked := some { b with since := now, fires := b.fires + 1 } } }
    else c

/-- WATCHDOG_FIRE (R165). -/
def execWatchdogFire (p : PCore) (dt : Nat) (s : State) : Host.Outcome State Fault Refusal :=
  .next ((s.pass dt).modCore p.val fun c => c.wdogFire (s.tclk + dt))

/-! ### Debug control (R178, R179) -/

/-- RESUME: a halted sequencer runs again at its PC. -/
def Core.resume (c : Core) : Core :=
  if c.seq.dbgHalted then { c with seq := { c.seq with dbgHalted := false, mode := .run } } else c

/-- HALT: a running sequencer halts at once, one that waits halts when its instruction retires. -/
def Core.halt (c : Core) : Core :=
  if c.seq.mode = .run then { c with seq := { c.seq with mode := .trapped, dbgHalted := true } }
  else if c.seq.mode.waits then { c with seq := { c.seq with haltReq := true } }
  else c

/-- STEP: the one instruction at PC issues, and the sequencer halts when it retires. -/
def State.stepCore (s : State) (p : Nat) : State :=
  let c := s.core p
  if c.seq.dbgHalted then
    let d := { c with seq := { c.seq with dbgHalted := false, haltReq := true, mode := .run } }
    let w := d.fetch d.seq.pc.toNat
    (s.setCore p d).issueWord p w (bodyOf w)
  else s

/-- Whether the debug level is FULL (R437). -/
def State.full (s : State) : Bool := s.sec.level == 2

/-- RESUME (R179): ignored below FULL. -/
def execResume (p : PCore) (s : State) : Host.Outcome State Fault Refusal :=
  .next (if s.full then s.modCore p.val Core.resume else s)

/-- STEP (R179): ignored below FULL. -/
def execStep (p : PCore) (s : State) : Host.Outcome State Fault Refusal :=
  .next (if s.full then s.stepCore p.val else s)

/-- HALT (R179): ignored below FULL. -/
def execHalt (p : PCore) (s : State) : Host.Outcome State Fault Refusal :=
  .next (if s.full then s.modCore p.val Core.halt else s)

/-! ### Register writes with an effect of their own -/

/-- CORE_NUM_SEED_WRITE (R76). -/
def execCoreNumSeedWrite (p : PCore) (v : BitVec 32) (s : State) : Host.Outcome State Fault Refusal :=
  .next (s.modCore p.val fun c => c.seedWrite v)

/-- A write of CORE_WIN_CFG_n: with OPEN = 1 it opens the window under R143, with OPEN = 0 it closes it. -/
def Core.winCfgWrite (c : Core) (n : Nat) (v : BitVec 64) : Core × List Packet :=
  let img := setFld v 18 0 0
  if bit v 63 then
    (if c.winOk (fld v 62 41) (fld v 40 19) then (c.openWin n img (Tab.get 0 c.sp.winFilt n), []) else c.trap trIllegal 0)
  else ({ c with sp := { c.sp with winCfg := Tab.set 0 c.sp.winCfg n img } }, [])

/-- WIN_CFG_WRITE (R143). -/
def execWinCfgWrite (p : PCore) (n : Fin 16) (v : BitVec 64) (s : State) : Host.Outcome State Fault Refusal :=
  let r := (s.core p.val).winCfgWrite n.val v
  .next ((s.setCore p.val r.1).send r.2)

/-! ### Bank power and zero-fill (R129, R130) -/

/-- The bytes and latent errors of the banks of a mask are gone. -/
def CoreSp.clearBanks (x : CoreSp) (mask : Nat) : CoreSp :=
  (bitsOf 12 mask).foldl (fun y b => { y with mem := Memory.zero y.mem (b * 0x40000) 0x40000,
                                              errs := Tab.clear y.errs (b * 0x8000) 0x8000 }) x

/-- A write of CORE_SP_PWR.ON: owned banks stay powered, other banks lose their contents when they go off, and a bank that comes on is
zero-filled. -/
def CoreSp.power (x : CoreSp) (v : BitVec 12) : CoreSp :=
  let on := v ||| (x.on &&& (x.slot0 ||| x.slot1))
  let off := x.on &&& ~~~on
  let y := x.clearBanks off.toNat
  { y with on := on, ready := x.ready &&& on, zeroBusy := (x.zeroBusy &&& on) ||| (on &&& ~~~x.on) }

/-- BANK_POWER_UP (R130). -/
def execBankPowerUp (p : PCore) (on : BitVec 12) (s : State) : Host.Outcome State Fault Refusal :=
  .next (s.modCore p.val fun c => { c with sp := c.sp.power on })

/-- A slot that claims moves on to LOADING once none of its banks is being zero-filled (R237). -/
def ResSlot.claimed (x : ResSlot) (banks busy : BitVec 12) : ResSlot :=
  if x.state = .claiming ∧ banks &&& busy = 0 then { x with state := .loading } else x

/-- A bank's zero-fill is done. -/
def Core.zeroDone (c : Core) (b : Nat) : Core :=
  if bit c.sp.zeroBusy b then
    let x := c.sp.clearBanks (2 ^ b)
    let x := { x with zeroBusy := setBit x.zeroBusy b false, ready := setBit x.ready b true }
    { c with sp := x, res0 := c.res0.claimed x.slot0 x.zeroBusy, res1 := c.res1.claimed x.slot1 x.zeroBusy }
  else c

/-- BANK_ZERO_FILL_DONE (R129, R130). -/
def execBankZeroFillDone (p : PCore) (bank : Fin 12) (s : State) : Host.Outcome State Fault Refusal :=
  .next (s.modCore p.val fun c => c.zeroDone bank.val)

/-! ### Scrub (R151) -/

/-- Error marks with a new bit error in a word: a second error in a word makes it a double-bit error. -/
def strike (t : Tab (BitVec 2)) (e : Upset) : Tab (BitVec 2) :=
  Tab.mod 0 t e.word fun v => if e.double || v ≠ 0 then 2 else 1

/-- One scrub step: bit errors that have struck READY banks are in the cells, then the next line of every READY bank is read. -/
def CoreSp.scrubStep (x : CoreSp) (upsets : List Upset) : CoreSp :=
  let y := { x with errs := (upsets.filter fun e => decide (e.word < 0x60000) && bit x.ready (e.word / 0x8000)).foldl strike x.errs }
  if bit y.scrub 31 then
    let lines := (bitsOf 12 y.ready.toNat).map fun b => (b * 0x40000 + y.scrubPos * 128, 128)
    { (y.check lines).1 with scrubPos := (y.scrubPos + 1) % 2048 }
  else y

/-- Bit errors that have struck the accumulator store: word 0x60000 + n of the list is entry n (R95; log entry 36). -/
def CoreUnits.struck (u : CoreUnits) (upsets : List Upset) : CoreUnits :=
  let hits := upsets.filter fun e => decide (0x60000 ≤ e.word) && decide (e.word < 0x64000)
  { u with accErr := hits.foldl (fun t e => strike t { e with word := e.word - 0x60000 }) u.accErr }

/-- SCRUB_TICK (R95, R151). -/
def execScrubTick (p : PCore) (upsets : List Upset) (s : State) : Host.Outcome State Fault Refusal :=
  .next (s.modCore p.val fun c => { c with sp := c.sp.scrubStep upsets, units := c.units.struck upsets })

end Sys2Proof.Machine
end

