-- ==== Sys2Proof/Machine/Ledger.lean ====
section
/-! DEFINITION. The pass ledger, pass start and stop in a core, the scheduler's launches and the close of contexts (R30 to R53, R77, R94,
R101, R153, R235, R242, R245, R306, R326 to R331). -/

namespace Sys2Proof.Machine

/-! ### Pass start in a core (R40, R77, R94, R101, R153, R203, R235, R245) -/

/-- Image `n` bytes at an offset of the slot's CORE_STATE payload. -/
def Core.img (c : Core) (off n : Nat) : Nat := leAt c.frontSlot.image off n

/-- Everything that the support code clears before it restores the residency's values. -/
def Core.clearPass (c : Core) : Core :=
  let q := c.seq
  let q := { q with sregs := [], preds := 1, uregs := [], pc := 0, blocked := none, ra := none, trap := 0, trapMore := 0, doneSent := false,
                    dbgHalted := false, haltReq := false, armed := false, stopping := false }
  let u := c.units
  let u := { u with grps := [], wset0 := none, wset1 := none, plan0 := none, plan1 := none, acc := [], accErr := [], arrMode := false }
  let c := { c with seq := q, units := u, num := { c.num with status := 0 } }
  let c := c.closeWins 0xFFFF
  { c with sp := { c.sp with cbCfg := c.sp.cbCfg.map (fun e => (e.1, setBit e.2 63 false)) |>.filter fun e => decide (e.2 ≠ 0) } }

/-- A table of 64-bit images with the given writable bits, from a payload offset. -/
def Core.imgTab (c : Core) (off n stride : Nat) (mask : Nat) : Tab (BitVec 64) :=
  Tab.write 0 [] 0 ((List.range n).map fun i => BitVec.ofNat 64 (c.img (off + stride * i) 8 &&& mask))

/-- Writable bits of TOK images: COUNT and PEER. -/
def tokMask : Nat := 0x3FFF * 2 ^ 42 + 0xFFFF

/-- Writable bits of CRD images. -/
def crdMask : Nat := 0x3FFF * 2 ^ 42 + 0xFFFFFFFF

/-- Writable bits of CORE_WIN_FILTER images. -/
def winFiltMask : Nat := 0x1F * 2 ^ 32 + 0xFFFFFFF

/-- Writable bits of CORE_WIN_CFG images. -/
def winCfgMask : Nat := 2 ^ 64 - 2 ^ 19

/-- Restores the images of the residency in the order of R235; the flag tells whether an image broke R143 or R145. -/
def Core.restore (c : Core) : Core × Bool :=
  let c := ({ c with num := { c.num with ctrl := BitVec.ofNat 32 (c.img 0 4 % 16) } } : Core).seedWrite (BitVec.ofNat 32 (c.img 4 4))
  let c := { c with seq := { c.seq with tok := c.imgTab 520 32 8 tokMask, crd := c.imgTab 776 32 8 crdMask } }
  let ptr : Tab (BitVec 32) := Tab.write 0 [] 0 ((List.range 16).map fun i => BitVec.ofNat 32 (c.img (272 + 16 * i) 4))
  let c := { c with sp := { c.sp with cbPtr := ptr, cbOvf := 0, winFilt := c.imgTab 16 16 16 winFiltMask } }
  let r := (List.range 16).foldl (fun (a : Core × Bool) i =>
    let x := BitVec.ofNat 64 (a.1.img (264 + 16 * i) 8)
    if bit x 63 && !a.1.cbOk x i then (a.1, true)
    else ({ a.1 with sp := { a.1.sp with cbCfg := Tab.set 0 a.1.sp.cbCfg i x } }, a.2)) (c, false)
  (List.range 16).foldl (fun (a : Core × Bool) i =>
    let x := BitVec.ofNat 64 (a.1.img (8 + 16 * i) 8 &&& winCfgMask)
    if bit x 63 then
      (if a.1.winOk (fld x 62 41) (fld x 40 19) then (a.1.openWin i x (Tab.get 0 a.1.sp.winFilt i), a.2) else (a.1, true))
    else ({ a.1 with sp := { a.1.sp with winCfg := Tab.set 0 a.1.sp.winCfg i x } }, a.2)) r

/-- The support code starts the pass: state cleared, images restored, the parameter block written, then the program from PC 0. -/
def Core.startPass (c : Core) (params : BitVec 512) (param : BitVec 32) : Core × List Packet :=
  let (d, bad) := c.clearPass.restore
  let d := if param = 0xFFFFFFFF then d else { d with sp := d.sp.store param.toNat (leBytes 64 params.toNat) }
  let d := { d with seq := { d.seq with mode := .run } }
  if bad then d.trap trIllegal 0 else (d, [])

/-! ### Stop in a core (R45, R138, R174) -/

/-- Operations that wait behind the ones in progress are dropped, with their entries; unsent control packets are dropped. -/
def CoreUnits.dropQueued (u : CoreUnits) : CoreUnits :=
  let gone := (u.arrQ.drop 1).map ArrOp.id ++ (u.vecQ.filter fun h => !h.started).map Chain.id ++ (u.fcQ.drop 1).map FcOp.id
  let unsent := u.held.filterMap HeldSend.tid
  { u with arrQ := u.arrQ.take 1, vecQ := u.vecQ.filter Chain.started, fcQ := u.fcQ.take 1, held := [],
           sb := u.sb.filter (fun e => !gone.contains e.owner), xfers := u.xfers.filter fun x => !unsent.contains x.id }

/-- A stop reaches a core: issue stops, run-ahead is cancelled, queued operations are dropped, and all windows close. -/
def Core.stop (c : Core) : Core × List Packet :=
  let (d, ks) := c.cancelAll
  let d := { d with units := d.units.dropQueued }
  let q := { d.seq with mode := .support, blocked := none, dbgHalted := false, haltReq := false, armed := false, stopping := true }
  (({ d with seq := q } : Core).closeWins 0xFFFF, ks)

/-- Whether a stopping core may acknowledge: nothing is left in its units and its scoreboard (R45, R138). -/
def Core.quiet (c : Core) : Bool :=
  c.seq.stopping && c.units.arrQ.isEmpty && c.units.vecQ.isEmpty && c.units.fcQ.isEmpty && c.units.sb.isEmpty

/-! ### The ledger (R42 to R45) -/

/-- HOST_ABORT and the other abort reasons of R44. -/
def abHost : Nat := 1
/-- CORE_LOST. -/
def abCore : Nat := 2
/-- SETT_LOST. -/
def abSett : Nat := 3
/-- MEADOW_LOST. -/
def abMeadow : Nat := 4
/-- COOLING_LOST. -/
def abCooling : Nat := 5
/-- PASS_STALLED. -/
def abStalled : Nat := 6
/-- TIME_LIMIT. -/
def abTime : Nat := 7
/-- PROGRAM_TRAP. -/
def abTrap : Nat := 8
/-- FENCED. -/
def abFenced : Nat := 9
/-- CONTEXT_CLOSED. -/
def abClosed : Nat := 10

/-- A word of GAL_LEDGER_LOST_LIST. -/
def lostWord (p logical : Nat) : BitVec 32 :=
  BitVec.ofNat 32 (2 ^ 31 + siteOf p * 2 ^ 22 + rowOf p * 2 ^ 18 + colOf p * 2 ^ 14 + logical)

/-- A core of the pass is counted as lost; the first 64 enter the list. -/
def State.loseCore (s : State) (p : Nat) : State :=
  let l := s.ledger
  if l.lost.contains p then s
  else
    let a := (s.logicalOf p).getD 0
    let first := if l.lost.isEmpty then BitVec.ofNat 14 a else l.firstLost
    let list := if l.lostList.length < 64 then l.lostList ++ [lostWord p a] else l.lostList
    { s with ledger := { l with lost := l.lost ++ [p], firstLost := first, lostList := list } }

/-- Whether the stop has nothing more to wait for. -/
def Ledger.quiesced (l : Ledger) : Bool := l.parts.all fun p => l.acked.contains p || l.lost.contains p || l.pruned.contains p

/-- A quiescing ledger ends once every participating core has acknowledged, is lost, or was pruned (R45). -/
def State.checkQuiesced (s : State) : State :=
  if s.ledger.state = .quiescing && s.ledger.quiesced then { s with ledger := { s.ledger with state := .ended } } else s

/-- Whether a core lies in a meadow that has lost its power (PWR_MEADOW STATE 5 TRIPPED or 6 LOCKED). -/
def State.powerLost (s : State) (p : Nat) : Bool := 5 ≤ fld (Tab.get 0 s.power.meadow (meadowOf (siteOf p))) 63 60

/-- Whether a core is pruned from the stop: fenced, absent from the present shape, or in a dark meadow (R45). -/
def State.stopPruned (s : State) (p : Nat) : Bool := (s.core p).fenced || (s.logicalOf p).isNone || s.powerLost p

/-- An abort event reaches the ledger's arbiter (R42 to R44, R52): `lost` lists the physical cores that it names. -/
def State.recordAbort (s : State) (reason : Nat) (lost : List Nat) : State :=
  let l := s.ledger
  match l.state with
  | .idle => { s with ledger := { l with lateAborts := satAdd l.lateAborts 1 } }
  | .launching | .running =>
    let t := { s with ledger := { l with outcome := .aborted, reason := BitVec.ofNat 8 reason, tOutcome := s.g0Time,
                                         state := .quiescing, abortAt := s.tclk, pruned := l.parts.filter s.stopPruned } }
    (lost.foldl State.loseCore (t.edge 0 592)).checkQuiesced
  | .quiescing =>
    (lost.foldl State.loseCore { s with ledger := { l with lateAborts := satAdd l.lateAborts 1 } }).checkQuiesced
  | .ended =>
    { s with ledger := { l with lateAborts := satAdd l.lateAborts 1, abortLate := l.abortLate || l.outcome = .completed } }

/-- A done message reaches the ledger's arbiter (R42): the one that brings DONE to EXPECT fixes COMPLETED. -/
def State.recordDone (s : State) (logical : Nat) (pass : BitVec 32) : State :=
  let l := s.ledger
  if pass ≠ l.passNum || l.state = .idle || l.doneSet.contains logical then
    { s with ledger := { l with strayDone := satAdd l.strayDone 1 } }
  else
    let done := l.doneSet ++ [logical]
    if (l.state = .running || l.state = .launching) && l.expect.toNat ≤ done.length then
      ({ s with ledger := { l with doneSet := done, outcome := .completed, tOutcome := s.g0Time, state := .ended } }).edge 0 592
    else { s with ledger := { l with doneSet := done } }

/-! ### Passes that end (R49, R326, R327) -/

/-- The FLAGS bit SHADOW while a context is shadowed. -/
def State.shadowFlag (s : State) (n : Nat) : BitVec 8 := if (s.ctx n).any Ctx.shadowOn then 32 else 0

/-- The record of a pass that ends without launching (R326, R327). -/
def State.unlaunchedRec (s : State) (q : QPass) (status : Nat) : Rec :=
  { cmdAnswer q.cmd status with flags := s.shadowFlag q.ctx.toNat, dataA := s.g0Time }

/-- What the chain of a submission queue has come to: true when it is cancelled. -/
def State.setChain (s : State) (src : Src) (cancelled : Bool) : State :=
  let rest := s.sched.chains.filter fun e => e.1 ≠ src
  { s with sched := { s.sched with chains := rest ++ [(src, cancelled)] } }

/-- The passes of a submission queue, in order, up to the first that starts a new chain. -/
def chainTail : List QPass → List QPass
  | [] => []
  | q :: t => if q.chain then q :: chainTail t else []

/-- A chain ends: its remaining passes, those behind `after` when that is queued, end without launching, with CHAIN_CANCELLED (R49); a pass
that comes later continues the chain of the last one, which may be a newer one. -/
def State.cancelChain (s : State) (src : Src) (after : Option QPass) : State :=
  let mine := s.sched.queue.filter fun q => q.cmd.src = src
  let rest := match after with
    | some q => (mine.dropWhile fun x => x ≠ q).drop 1
    | none => mine
  let gone := chainTail rest
  let t := if gone.length = rest.length then s.setChain src true else s
  let t := { t with sched := { t.sched with queue := t.sched.queue.filter fun q => !gone.contains q } }
  gone.foldl (fun t q => t.complete q.cmd (t.unlaunchedRec q 0x24)) t

/-- A queued or picked pass ends without launching, and its chain with it (R49, R326). -/
def State.endUnlaunched (s : State) (q : QPass) (status : Nat) : State :=
  let t := (s.complete q.cmd (s.unlaunchedRec q status)).cancelChain q.cmd.src (if s.sched.queue.contains q then some q else none)
  { t with sched := { t.sched with queue := t.sched.queue.erase q, picked := t.sched.picked.filter fun x => x.pass ≠ q } }

/-- DATA_B of a launched pass's record (R327). -/
def Ledger.dataB (l : Ledger) : Nat :=
  let shown := l.outcome = .aborted && (l.reason = 2 || l.reason = 3)
  let p := l.lost.headD 0
  (if shown then l.lost.length * 2 ^ 49 + siteOf p * 2 ^ 40 + rowOf p * 2 ^ 36 + colOf p * 2 ^ 32 + l.firstLost.toNat else 0)
    + l.lateCount.toNat * 2 ^ 14

/-- The record of a launched pass (R327). -/
def State.passRec (s : State) (q : QPass) : Rec :=
  let l := s.ledger
  { tag := q.cmd.tag, status := if l.outcome = .aborted then 1 else 0, reason := l.reason,
    flags := BitVec.ofNat 8 (b2n l.abortLate + 2 * b2n l.lateStart) ||| s.shadowFlag q.ctx.toNat, opcode := 0x20, result := l.passNum,
    dataA := l.tOutcome, dataB := BitVec.ofNat 64 l.dataB }

/-- The record of an ended pass is posted after its digests, the deficit is charged, and the ledger is
IDLE (R43, R48, R465). -/
def State.postPass (s : State) : State :=
  let l := s.ledger
  match l.state, l.pass with
  | .ended, some q =>
    let n := q.ctx.toNat
    let t := if l.outcome = .completed then (s.writeDigests n l.passNum).handoffDue n q.handle l.passNum else s
    let t := t.complete q.cmd (t.passRec q)
    let from_ := max s.sched.lastOut.toNat l.pickT.toNat
    let cost : Int := (l.tOutcome.toNat : Int) - from_
    let t := t.modCtx n fun c => if c.weight = 0 then c else { c with deficit := c.deficit - cost }
    let t := { t with ledger := { t.ledger with state := .idle }, sched := { t.sched with lastOut := l.tOutcome } }
    if l.outcome = .completed then t else t.cancelChain q.cmd.src none
  | .ended, none => { s with ledger := { l with state := .idle } }
  | _, _ => s

/-! ### Launch (R34 to R39, R242, R477) -/

/-- The LAUNCH of a pass whose launch time is `t`. -/
def State.launchNow (s : State) (x : Picked) (t : BitVec 64) : State :=
  let q := x.pass
  let h := q.handle.toNat
  let e := s.entry h
  let parts := s.physOf e.cores
  let num := if s.ledger.passNum = 0xFFFFFFFF then 1 else s.ledger.passNum + 1
  let limit := match s.ctx q.ctx.toNat with
    | some c => c.limitMs
    | none => 100
  let led : Ledger := { Ledger.reset with
    state := .launching, passNum := num, lateAborts := s.ledger.lateAborts, strayDone := s.ledger.strayDone, timed := q.timed,
    flip := q.flip, expect := BitVec.ofNat 15 e.cores.length, tLaunch := t, tOutcome := s.ledger.tOutcome,
    parts := parts, pass := some q, limitMs := limit, pickT := x.pickedT }
  let u := { s with ledger := led, sched := { s.sched with picked := none, launches := s.sched.launches + 1, chosen := none } }
  let u := u.modCtx q.ctx.toNat fun c =>
    { c with launched := u.sched.launches, pin := if c.pin = some q.handle then none else c.pin }
  u.modEntry h fun e => { e with pinned := false }

/-- Whether launches and picks are held: by a drain, a firmware activation, an unlock or a planned power-down (R259, R379, R437). -/
def State.launchHeld (s : State) : Bool :=
  s.sched.held || !s.power.turnOff.isEmpty || fld s.drain.reg 63 61 = 1 || fld s.drain.reg 63 61 = 2 || fld s.drain.reg 63 61 = 3

/-- The sequence word's verdict (R245). -/
def seqOk (params : BitVec 512) : Bool :=
  !bit params 0 || (fld params 39 16 ≠ 0 && fld params 63 40 + fld params 39 16 ≤ 4194304)

/-- The status with which a picked pass ends before any load, if it does (R34, R245, R306, R331, R332). -/
def State.refusal (s : State) (q : QPass) : Option Nat :=
  match s.ctx q.ctx.toNat with
  | none => some 0x06
  | some c =>
    if c.closing then some 0x06
    else if s.ctxFenced q.ctx.toNat then some 0x30
    else if c.invalid then some 0x34
    else if !seqOk q.params then some 0x25
    else if !(s.entry q.handle.toNat).valid then some 0x0D
    else if (s.entry q.handle.toNat).invalid || !s.entryValid (s.entry q.handle.toNat) then some 0x20
    else none

/-- Logical core bit of a core in its sett's PWR_CORE_GATE and PWR_CORE_READY. -/
def State.gateBit (s : State) (p : Nat) : Nat := (s.logicalOf p).getD 0 % 64

/-- Participating cores are ungated by the scheduler (R380). -/
def State.ungate (s : State) (ps : List Nat) : State :=
  ps.foldl (fun t p => t.modSett (siteOf p) fun x => { x with gate := setBit x.gate (t.gateBit p) false }) s

/-- Whether all cores of a list are READY (R380). -/
def State.coresReady (s : State) (ps : List Nat) : Bool := ps.all fun p => bit (s.sett (siteOf p)).coreReady (s.gateBit p)

/-- The start time of a TIMED pass accepted at `now`, or the status that refuses it (R37). -/
def startTime (q : QPass) (now : Nat) : Except Nat Nat :=
  if !q.timed then .ok now
  else if q.tAuto then .ok (now + 2000)
  else if q.t.toNat < now + 2000 then .error 0x21
  else if now + 10000000000 < q.t.toNat then .error 0x22
  else .ok q.t.toNat

/-- Tries to launch the picked pass: it ends, waits for a load, for its cores or for a standalone flip, or launches (R34 to R39, R242,
R380). -/
def State.tryLaunch (s : State) : State :=
  match s.sched.picked with
  | none => s
  | some x =>
    let q := x.pass
    let h := q.handle.toNat
    if s.ledger.state ≠ .idle || s.launchHeld || x.flipT.isSome then s
    else match s.refusal q with
    | some st => s.endUnlaunched q st
    | none =>
      if s.isStale h || !s.resident h then s.schedLoad h
      else
        let parts := s.physOf (s.entry h).cores
        let s := s.ungate parts
        if !s.coresReady parts then s
        else
          let now := s.g0Time.toNat
          if q.flip && !s.allBack h then s.endUnlaunched q 0x23
          else match startTime q now with
          | .error st => s.endUnlaunched q st
          | .ok t =>
            if !q.flip && s.inBack h then
              { s with sched := { s.sched with picked := some { x with flipT := some (BitVec.ofNat 64 (now + 2000)), flipAt := now } },
                       fill := { s.fill with standalone := s.fill.standalone + 1 } }
            else s.launchNow x (BitVec.ofNat 64 t)

/-! ### Picks (R46, R48, R49, R243) -/

/-- The queued passes that head their submission queue. -/
def headPasses : List Src → List QPass → List QPass
  | _, [] => []
  | seen, q :: t => if seen.contains q.cmd.src then headPasses seen t else q :: headPasses (q.cmd.src :: seen) t

/-- Whether loading h would displace a pinned placement from a back slot of a participating core (R243). -/
def State.displacesPin (s : State) (h : Nat) : Bool :=
  !s.resident h && (s.physOf (s.entry h).cores).any fun p =>
    let b := (s.core p).backSlot
    b.state ≠ .empty && b.handle.toNat ≠ h && (s.entry b.handle.toNat).pinned

/-- The ready passes: heads of their queues, in contexts that nothing holds, whose load would displace no pin. -/
def State.readyPasses (s : State) : List QPass :=
  (headPasses [] s.sched.queue).filter fun q => !s.displacesPin q.handle.toNat && !s.ctxHeld q.ctx.toNat

/-- Rank of a path for the round-robin order of a context's queues. -/
def srcRank (src : Src) : Nat := (src.key).getD 0

/-- The ready pass that a context serves next: the first queue after the last served one, else the first (R46). -/
def rrNext (last : Option Nat) (qs : List QPass) : Option QPass :=
  let best := fun (l : List QPass) => l.foldl (fun (a : Option QPass) q =>
    match a with
    | none => some q
    | some b => if srcRank q.cmd.src < srcRank b.cmd.src then some q else some b) none
  match best (qs.filter fun q => decide (last.getD 0 < srcRank q.cmd.src || last.isNone)) with
  | some q => some q
  | none => best qs

/-- The deficits after a round begins (R48). -/
def State.roundDeficits (s : State) (ready : List QPass) : State :=
  s.openCtxs.foldl (fun t n => t.modCtx n fun c =>
    if ready.any (fun q => q.ctx.toNat = n) then
      (if c.weight = 0 then c
       else { c with deficit := min (c.deficit + c.weight.toNat * 100000) (2 * c.weight.toNat * 100000 : Nat) })
    else { c with deficit := min c.deficit 0 }) s

/-- The context that a pick serves (R48). -/
def State.pickCtx (s : State) (ready : List QPass) : Option Nat :=
  let cands := s.openCtxs.filterMap fun n =>
    if ready.any (fun q => q.ctx.toNat = n) then (s.ctx n).map fun c => (n, c) else none
  let heavy := cands.filter fun e => e.2.weight ≠ 0
  let better := fun (a : Option (Nat × Ctx)) (e : Nat × Ctx) =>
    match a with
    | none => some e
    | some b => if b.2.deficit < e.2.deficit then some e else some b
  let older := fun (a : Option (Nat × Ctx)) (e : Nat × Ctx) =>
    match a with
    | none => some e
    | some b => if e.2.launched < b.2.launched then some e else some b
  if heavy.isEmpty then (cands.foldl older none).map Prod.fst else (heavy.foldl better none).map Prod.fst

/-- A pick: the chosen pass leaves the queue and the scheduler tries to launch it (R46, R48). -/
def State.pick (s : State) : State :=
  if s.ledger.state ≠ .idle || s.sched.picked.isSome || s.launchHeld then s
  else
    let ready := s.readyPasses
    if ready.isEmpty then s
    else
      let t := s.roundDeficits ready
      match t.pickCtx ready with
      | none => t
      | some n =>
        match rrNext ((t.ctx n).bind Ctx.rrLast) (ready.filter fun q => q.ctx.toNat = n) with
        | none => t
        | some q =>
          let t := t.modCtx n fun c => { c with rrLast := some (srcRank q.cmd.src) }
          let p : Picked := { pass := q, pickedT := t.g0Time, flipT := none, flipAt := 0 }
          ({ t with sched := { t.sched with queue := t.sched.queue.erase q, picked := some p } }).tryLaunch

/-- The pass that the scheduler would launch next (R49). -/
def State.nextPass (s : State) : Option QPass :=
  let ready := s.readyPasses
  let t := s.roundDeficits ready
  match t.pickCtx ready with
  | none => none
  | some n => rrNext ((t.ctx n).bind Ctx.rrLast) (ready.filter fun q => q.ctx.toNat = n)

/-! ### Closing a context (R306) -/

/-- The core without the slots that load of h had claimed or filled in back (R241). -/
def State.dropLoad (s : State) (l : Load) : State :=
  l.cores.foldl (fun t e => t.modCore e.2 fun c => c.releaseSlots l.req.handle.toNat fun front => !front) s

/-- Loads of a context stop: those that wait are answered, and the running one leaves its slots EMPTY. -/
def State.closeLoads (s : State) (n : Nat) : State :=
  let mine := fun (h : BitVec 19) => (s.entry h.toNat).ctx.toNat = n
  let waiting := s.fill.queue.filter fun q => mine q.handle
  let t := { s with fill := { s.fill with queue := s.fill.queue.filter fun q => !mine q.handle } }
  let t := waiting.foldl (fun t q => t.answerLoads q.cmds q.host.isSome q.handle.toNat 0x06 0 0) t
  match t.fill.running with
  | some l =>
    if mine l.req.handle then
      let u := (t.dropLoad l).answerLoads l.req.cmds l.req.host.isSome l.req.handle.toNat 0x06 0 l.bytes
      { u with fill := { u.fill with running := none, failed := u.fill.failed + 1 } }
    else t
  | none => t

/-- Steps 1 to 3 of a close: CLOSING, the running pass aborted, queued passes and loads ended. -/
def State.startClose (s : State) (n : Nat) : State :=
  let t := s.modCtx n fun c => { c with closing := true }
  let t := if t.ledger.pass.any (fun q => q.ctx.toNat = n) && t.ledger.state ≠ .idle && t.ledger.outcome ≠ .aborted then t.recordAbort abClosed []
           else t
  let mine := t.sched.queue.filter fun q => q.ctx.toNat = n
  let t := mine.foldl (fun t q => t.endUnlaunched q 0x06) t
  let t := match t.sched.picked with
    | some x => if x.pass.ctx.toNat = n then t.endUnlaunched x.pass 0x06 else t
    | none => t
  t.closeLoads n

/-- Whether nothing of a CLOSING context is left but its objects. -/
def State.closeDone (s : State) (n : Nat) (c : Ctx) : Bool :=
  let mine := fun (k : Nat) => (s.qp k).any fun q => q.ctx.toNat = n && k % 1024 ≠ 0
  !(s.ledger.state ≠ .idle && s.ledger.pass.any fun q => q.ctx.toNat = n)
    && !(s.fill.running.any fun l => (s.entry l.req.handle.toNat).ctx.toNat = n)
    && s.host.reqs.all (fun r => r.packet.ctx.toNat ≠ n)
    && s.host.inProg.all (fun c' => c.closers.contains c' || !(match c'.src.key with | some k => mine k | none => false))
    && (s.host.qps.map Prod.fst).all fun k => !mine k || (s.qp k).all fun q => q.due.isEmpty

/-- Whether an unlock to FULL is APPLYING (R437). -/
def State.unlocking (s : State) : Bool := fld s.sec.authCtrl 29 27 = 3 && fld s.sec.authCtrl 7 0 = 1

/-- A sump zero-fills the ranges of a context's entries (R437). -/
def Sump.wipe (x : Sump) (n : Nat) : Sump :=
  (x.regions.filter fun e => bit e.2 63 && fld e.2 57 48 = n).foldl (fun x e =>
    x.zeroFill (fld e.2 23 0 * 4096) ((fld e.2 47 24 + 1 - fld e.2 23 0) * 4096)) x

/-- Removes the region entries of a context in every sump (R278); an unlock zero-fills their ranges first (R437). -/
def State.dropRegions (s : State) (n : Nat) : State :=
  (s.sumps.map Prod.fst).foldl (fun t k => t.modSump k fun x =>
    let x := if s.unlocking then x.wipe n else x
    { x with regions := x.regions.filter (fun e => fld e.2 57 48 ≠ n), fills := x.fills.filter fun f => fld f.entry 57 48 ≠ n }) s

/-- The last steps of a close: entries, regions and queue pairs go, the close is answered, and the id is free. -/
def State.tryClose (s : State) (n : Nat) : State :=
  match s.ctx n with
  | none => s
  | some c =>
    if c.closing && s.closeDone n c then
      let hs := (s.dir.filter fun e => e.2.ctx.toNat = n && e.2.valid).map Prod.fst
      let t := (hs.foldl State.unregister s).dropRegions n
      let ks := (t.host.qps.map Prod.fst).filter fun k => k % 1024 ≠ 0 && (t.qp k).any fun q => q.ctx.toNat = n
      let t := ks.foldl (fun t k => t.setQp k none) t
      (t.setCtx n none).completeAll c.closers 0
    else s

/-- Every CLOSING context closes that can. -/
def State.closeStep (s : State) : State := s.openCtxs.foldl State.tryClose s

end Sys2Proof.Machine
end

