-- ==== Sys2Proof/Machine/PassRows.lean ====
section
/-! DEFINITION. The commands of a pass: launch, done, abort, stop, its record, the scheduler's picks, map changes and probes (R20 to R53,
R165, R242, R243). -/

namespace Sys2Proof.Machine

/-! ### Launch and start -/

/-- A core whose launch has come starts the pass; the first to start makes the ledger RUNNING (R36, R40). -/
def State.startCore (s : State) (p : Nat) : State :=
  let params := match s.ledger.pass with
    | some q => q.params
    | none => 0
  let param := match s.ledger.pass with
    | some q => (s.entry q.handle.toNat).param
    | none => 0xFFFFFFFF
  let (c, ks) := (s.core p).startPass params param
  let t := (s.setCore p c).send ks
  if t.ledger.state = .launching then { t with ledger := { t.ledger with state := .running } } else t

/-- Whether the LAUNCH of the present pass may still reach core p. -/
def State.awaitsLaunch (s : State) (p : Nat) : Bool :=
  (s.ledger.state = .launching || s.ledger.state = .running) && s.ledger.parts.contains p && !(s.core p).fenced
    && (s.core p).seq.passNum ≠ s.ledger.passNum

/-- The flips that a FLIP launch makes at core p: its own, and those of the edge switches of the mesh set (R39, R226). -/
def State.flipFor (s : State) (p : Nat) : State :=
  match s.ledger.pass with
  | some q =>
    if q.flip then
      let h := q.handle.toNat
      let t := if (s.core p).backSlot.has h then s.modCore p Core.flip else s
      (t.meshSites (t.entry h)).foldl (fun t i =>
        if (t.sett i).backHandle = some q.handle then t.modSett i (fun x => { x with meshFront := !x.meshFront }) else t) t
    else s
  | none => s

/-- A late TIMED start is counted (R38). -/
def Ledger.late (l : Ledger) : Ledger := { l with lateStart := true, lateCount := satAdd l.lateCount 1 }

/-- The LAUNCH message reaches core p (R35, R36, R38). -/
def State.launchAt (s : State) (p : Nat) : State :=
  if s.awaitsLaunch p then
    let q := (s.core p).seq
    let q := { q with passNum := s.ledger.passNum, launchT := s.ledger.tLaunch }
    let t := s.modCore p fun c => { c with seq := q }
    if s.ledger.timed && (s.coreTime p).toNat < s.ledger.tLaunch.toNat then
      t.modCore p fun c => { c with seq := { c.seq with armed := true, mode := .waitTime } }
    else
      let u := if s.ledger.timed && s.ledger.tLaunch.toNat < (s.coreTime p).toNat then { t with ledger := t.ledger.late } else t
      (u.flipFor p).startCore p
  else s

/-- LAUNCH (R35, R36, R38, R477). -/
def execLaunch (p : PCore) (dt : Nat) (s : State) : Host.Outcome State Fault Refusal := .next ((s.pass dt).launchAt p.val)

/-- The cores that are armed and whose time has come. -/
def State.dueCores (s : State) : List Nat :=
  s.ledger.parts.filter fun p => (s.core p).seq.armed && (s.core p).seq.launchT.toNat ≤ (s.coreTime p).toNat

/-- TIMED_START (R36, R39). -/
def execTimedStart (dt : Nat) (s : State) : Host.Outcome State Fault Refusal :=
  let t := s.pass dt
  .next (if t.ledger.state = .launching ∨ t.ledger.state = .running then
      t.dueCores.foldl (fun u p => (u.flipFor p).startCore p) t else t)

/-- TIME_RELEASE (R210, R357): the time unit releases a WAITT, or a TIMED start whose time has come. -/
def execTimeRelease (p : PCore) (dt : Nat) (s : State) : Host.Outcome State Fault Refusal :=
  let t := s.pass dt
  .next (if (t.core p.val).seq.mode ≠ .waitTime then t
    else if t.dueCores.contains p.val then (t.flipFor p.val).startCore p.val
    else t.wake p.val)

/-- The standalone flip at T_f, and the launch that follows at once (R242). -/
def State.standaloneFlip (s : State) : State :=
  match s.sched.picked with
  | some x =>
    match x.flipT with
    | some t =>
      if s.ledger.state = .idle && t.toNat ≤ s.g0Time.toNat then
        let u := s.flipTo x.pass.handle.toNat
        let y := { x with flipT := none }
        match startTime x.pass x.flipAt with
        | .ok t => u.launchNow y (if x.pass.timed then BitVec.ofNat 64 t else u.g0Time)
        | .error st => u.endUnlaunched x.pass st
      else s
    | none => s
  | none => s

/-- STANDALONE_FLIP (R242). -/
def execStandaloneFlip (dt : Nat) (s : State) : Host.Outcome State Fault Refusal := .next (s.pass dt).standaloneFlip

/-- SCHEDULER_PICK (R46, R48). -/
def execSchedulerPick (s : State) : Host.Outcome State Fault Refusal := .next s.pick.tryLaunch

/-! ### Done, abort and stop -/

/-- The logical core address of a core's node id. -/
def srcLogical (src : BitVec 15) : Nat := src.toNat % 0x4000

/-- DONE (R42): the message reaches the ledger. -/
def execDone (k : Packet) (s : State) : Host.Outcome State Fault Refusal :=
  .next ((s.take k).recordDone (srcLogical k.src) k.pass)

/-- Cores that a confirmed loss names are fenced and enter the waiting map changes (R20, R50). -/
def State.confirmLost (s : State) (ps : List Nat) : State :=
  let t := ps.foldl (fun t p => t.modCore p fun c => { c with fenced := true }) s
  { t with map := { t.map with waiting := ps.foldl (fun l p => addOnce l (MapItem.deadCore p)) t.map.waiting } }

/-- The cores that an abort event names: all logical cores of each site that SETT_LOST names (R44). -/
def State.namedLost (s : State) (reason : Nat) (ps : List Nat) : List Nat :=
  if reason = 3 then (ps.map siteOf).dedup.flatMap s.coresOfSite else ps

/-- ABORT_EVENT (R42, R43, R44): a loss of cores or of a site confirms the cores that it names. -/
def execAbortEvent (reason : BitVec 8) (lost : List PCore) (s : State) : Host.Outcome State Fault Refusal :=
  let ps := s.namedLost reason.toNat (lost.map Fin.val)
  let t := if reason = 2 then s.confirmLost ps
    else if reason = 3 then
      ((lost.map fun p => siteOf p.val).dedup.foldl (fun t i => { t with map := { t.map with waiting := addOnce t.map.waiting (MapItem.deadSite i) } })
        (ps.foldl (fun t p => t.modCore p fun c => { c with fenced := true }) s))
    else s
  .next (if 1 ≤ reason.toNat ∧ reason.toNat ≤ 10 then t.recordAbort reason.toNat ps else t)

/-- STOP (R45): it reaches a core of the pass while the ledger quiesces. -/
def execStop (p : PCore) (s : State) : Host.Outcome State Fault Refusal :=
  .next (if s.ledger.state = .quiescing ∧ s.ledger.parts.contains p.val ∧ ¬ (s.core p.val).fenced
      ∧ ¬ s.ledger.acked.contains p.val ∧ ¬ (s.core p.val).seq.stopping then
    let r := (s.core p.val).stop
    (s.setCore p.val r.1).send r.2 else s)

/-- STOP_ACK (R45, R138): a core whose units are quiet acknowledges and halts. -/
def execStopAck (p : PCore) (s : State) : Host.Outcome State Fault Refusal :=
  .next (if (s.core p.val).quiet then
    let t := s.modCore p.val fun c => { c with seq := { c.seq with stopping := false, mode := .halted } }
    ({ t with ledger := { t.ledger with acked := addOnce t.ledger.acked p.val } }).checkQuiesced else s)

/-- QUIESCE_LIMIT (R45): cores that have not acknowledged within 500 µs are lost and confirmed as failed. -/
def execQuiesceLimit (dt : Nat) (s : State) : Host.Outcome State Fault Refusal :=
  let t := s.pass dt
  .next (if t.ledger.state = .quiescing ∧ t.ledger.abortAt + 500000 ≤ t.tclk then
    let late := t.ledger.parts.filter fun p => !(t.ledger.acked.contains p || t.ledger.lost.contains p || t.ledger.pruned.contains p)
    ((late.foldl State.loseCore t).confirmLost late).checkQuiesced else t)

/-- PASS_RECORD_POST (R42, R43, R48, R329). -/
def execPassRecordPost (s : State) : Host.Outcome State Fault Refusal := .next s.postPass.closeStep

/-- PASS_TIME_LIMIT (R47). -/
def execPassTimeLimit (dt : Nat) (s : State) : Host.Outcome State Fault Refusal :=
  let t := s.pass dt
  .next (if (t.ledger.state = .launching ∨ t.ledger.state = .running)
      ∧ t.ledger.tLaunch.toNat + t.ledger.limitMs.toNat * 1000000 ≤ t.g0Time.toNat then t.recordAbort abTime [] else t)

/-! ### Fills for the next pass, hints and pins (R49, R243) -/

/-- Whether loading h would put out a back placement that a launched FLIP pass needs. -/
def State.displacesFlip (s : State) (h : Nat) : Bool :=
  match s.ledger.state, s.ledger.pass with
  | .launching, some q =>
    q.flip && (s.physOf (s.entry h).cores).any fun p => (s.core p).backSlot.has q.handle.toNat
  | _, _ => false

/-- NEXT_PASS_FILL (R49): the next pass's placement is filled into back and its cores are ungated (R380). -/
def execNextPassFill (s : State) : Host.Outcome State Fault Refusal :=
  .next (if s.ledger.state = .running ∨ s.ledger.state = .launching then
    match s.nextPass with
    | some q =>
      let h := q.handle.toNat
      let t := { s with sched := { s.sched with chosen := some q.handle } }
      let t := t.ungate (t.physOf (t.entry h).cores)
      if (s.resident h && !s.isStale h) || s.displacesFlip h || !(s.entry h).valid || (s.entry h).invalid then t else t.schedLoad h
    | none => s
    else s)

/-- The hint that the scheduler may follow: the lowest context whose hinted entry is valid and not resident (R243). -/
def State.hintWanted (s : State) : Option Nat :=
  (s.openCtxs.filterMap fun n => (s.ctx n).bind fun c => c.hint.map BitVec.toNat).find? fun h =>
    (s.entry h).valid && !(s.entry h).invalid && !s.resident h && !s.displacesPin h && !s.displacesFlip h
      && s.sched.chosen.all fun q =>
        (s.physOf (s.entry q.toNat).cores).all fun p => !(s.physOf (s.entry h).cores).contains p

/-- HINT_FILL (R243). -/
def execHintFill (s : State) : Host.Outcome State Fault Refusal :=
  .next (if s.fill.queue.isEmpty && s.fill.running.isNone then
    match s.hintWanted with
    | some h =>
      { s with fill := { s.fill with queue := [{ handle := BitVec.ofNat 19 h, host := none, cmds := [], sched := false }] } }
    | none => s
    else s)

/-- PIN_LAPSE (R243): 100 ms after it was set, a pin without a launch of its entry lapses. -/
def execPinLapse (handle : BitVec 19) (dt : Nat) (s : State) : Host.Outcome State Fault Refusal :=
  let t := s.pass dt
  .next (t.openCtxs.foldl (fun u n => match u.ctx n with
    | some c =>
      if c.pin = some handle ∧ c.pinAt + 100000000 ≤ u.tclk then
        (u.setCtx n (some { c with pin := none })).modEntry handle.toNat fun e => { e with pinned := false }
      else u
    | none => u) t)

/-! ### Probes of the watchdog (R50) and of idle cores (R52) -/

/-- PROBE (R50): a dead producer is fenced and CORE_LOST is raised; 8 firings without progress raise PASS_STALLED. -/
def execProbe (p : PCore) (alive : Bool) (s : State) : Host.Outcome State Fault Refusal :=
  let c := s.core p.val
  .next (match c.seq.blocked with
    | none => s
    | some b =>
      if b.fires = 0 then s
      else if alive then (if 8 ≤ b.fires then s.recordAbort abStalled [] else s)
      else match s.coreAt (fld c.seq.wdogStat 13 0) with
        | some q => (s.confirmLost [q]).recordAbort abCore [q]
        | none => s)

/-- IDLE_PROBE (R52): between passes a dead core is confirmed and waits for the next map change. -/
def execIdleProbe (p : PCore) (alive : Bool) (s : State) : Host.Outcome State Fault Refusal :=
  .next (if alive ∨ ¬ (s.ledger.state = .idle) then s else s.confirmLost [p.val])

/-! ### Map changes (R20 to R23, R53) -/

/-- The dead sites, cores, lanes and lit meadows once the waiting changes apply. -/
structure MapSum where
  sites : List Nat
  cores : List Nat
  lanes : List (Nat × Nat)
  lit   : Nat
  dark  : List Nat

/-- Applies one change. -/
def MapSum.add (m : MapSum) (i : MapItem) : MapSum :=
  match i with
  | .deadSite k => { m with sites := addOnce m.sites k }
  | .deadCore p => { m with cores := addOnce m.cores p }
  | .deadLane k l => { m with lanes := addOnce m.lanes (k, l) }
  | .deadLink _ _ => m
  | .meadowDark k => { m with lit := m.lit &&& (0xFF - 2 ^ k) }
  | .meadowLit k => { m with lit := m.lit ||| 2 ^ k }
  | .darkRow k r => { m with dark := addOnce m.dark (8 * k + r) }

/-- The dead ring links among the changes. -/
def deadLinksOf (l : List MapItem) : List (Node × Nat) :=
  l.filterMap fun i => match i with
    | .deadLink n p => some (n, p)
    | _ => none

/-- Whether a map change touches an entry: a site of its setts or mesh set, or a core of its participating set, moves (R21). -/
def touches (old new : State) (e : DirEntry) : Bool :=
  (bitsOf 256 (e.setts ||| e.meshSet).toNat).any (fun k => old.siteOfSett k ≠ new.siteOfSett k)
    || e.cores.any fun l => old.coreAt l ≠ new.coreAt l

/-- A slot that holds a touched placement becomes STALE when it is READY (R21, R236). -/
def ResSlot.touch (x : ResSlot) (hs : List Nat) : ResSlot :=
  if x.state = .ready && hs.contains x.handle.toNat then { x with state := .stale } else x

/-- The changes recorded in the non-volatile lists, for the next bring-up (R408). -/
def NonVol.note (v : NonVol) (m : MapSum) (links : List (Node × Nat)) : NonVol :=
  { v with deadSites := m.sites, deadCores := m.cores, deadLanes := m.lanes, deadLinks := links.foldl addOnce v.deadLinks }

/-- The waiting changes apply as one map change (R20 to R23); contexts with a touched or invalidated placement hear of it (R53). -/
def State.changeMap (s : State) : State :=
  if s.map.waiting.isEmpty || !s.map.published then s
  else
    let m := s.map.waiting.foldl MapSum.add
      { sites := s.nv.deadSites, cores := s.nv.deadCores, lanes := s.map.deadLanes, lit := s.litMask, dark := s.map.darkRows }
    let map := { s.map.build m.sites m.cores m.lanes m.lit with
      gen := s.map.gen + 1, waiting := [], darkRows := m.dark, published := true }
    let t := { s with map := map, nv := s.nv.note m (deadLinksOf s.map.waiting) }
    let touched := (s.dir.filter fun e => e.2.valid && touches s t e.2).map Prod.fst
    let broken := (s.dir.filter fun e => e.2.valid && !e.2.invalid && !t.entryValid e.2).map Prod.fst
    let u := broken.foldl (fun u h => u.modEntry h fun e => { e with invalid := true }) t
    let u := u.mapCores fun _ c => { c with res0 := c.res0.touch touched, res1 := c.res1.touch touched }
    let fill := match u.fill.running with
      | some l => { u.fill with running := some { l with touched := l.touched || touched.contains l.req.handle.toNat } }
      | none => u.fill
    let u := { u with fill := fill }
    let ctxs := ((touched ++ broken).map fun h => (s.entry h).ctx.toNat).dedup
    let u := u.ctxEvents (fun n => ctxs.contains n) (event 0x80 u.map.gen.toNat 0)
    (u.sched.queue.filter fun q => (u.entry q.handle.toNat).invalid).foldl (fun u q => u.endUnlaunched q 0x20) u

end Sys2Proof.Machine
end

