-- ==== Sys2Proof/Machine/Clocks.lean ====
section
/-! DEFINITION. Clock islands, ACLK and its limits, the reference tree and panel time (R339 to R357). -/

namespace Sys2Proof.Machine

/-! ### Islands -/

/-- STATE of CLK_STATUS: 0 OFF, 1 ACQUIRING, 2 LOCKED, 3 HOLDOVER, 4 FAILED. -/
def Island.state (x : Island) : Nat := fld x.status 31 28

/-- Whether an island runs: LOCKED or in HOLDOVER. -/
def Island.live (x : Island) : Bool := x.state == 2 || x.state == 3

/-- Every node of the panel. -/
def allNodes : List Node := (List.finRange 272).map Node.sett ++ (List.finRange 32).map Node.sump ++ (List.finRange 4).map Node.gal

/-- The strap value of CLK_REF_CFG: on a full panel the inputs one hop nearer to G0 by rising code (R341; the order is a DESIGN CHOICE), and
G0's own two references (R344). -/
def refStrap : Node → BitVec 32
  | .sett i =>
    let r := i.val / 17
    let c := i.val % 17
    let side := if c ≤ 8 then 3 else 1
    if r = 0 then BitVec.ofNat 32 (0xFFF0 + side) else BitVec.ofNat 32 (0xFF00 + side * 16)
  | .sump _ => 0xFFF4
  | .gal g => if g = 0 then 0xFF76 else if g = 3 then 0xFF54 else 0xFFF4

/-- CLK_REF_CFG as it reads: the field holds its difference from the strap value. -/
def State.refCfg (s : State) (n : Node) : BitVec 32 := (s.island n).refCfg ^^^ refStrap n

/-- The inputs of a CLK_REF_CFG value in priority order. -/
def refList (v : BitVec 32) : List Nat := [fld v 3 0, fld v 7 4, fld v 11 8, fld v 15 12].filter fun i => i ≠ 15

/-- The island with another input selected; a change is counted (CLK_EVENTS.INPUT_SWITCH). -/
def Island.select (x : Island) (input : Nat) : Island :=
  if fld x.status 27 24 = input then x
  else { x with status := setFld x.status 27 24 input, events := satFld x.events 7 0 1 }

/-- The island with a CLK_STATUS.STATE. -/
def Island.setState (x : Island) (v : Nat) : Island := { x with status := setFld x.status 31 28 v }

/-- The input after `i` in a list, 15 when none is left. -/
def nextInput (l : List Nat) (i : Nat) : Nat := ((l.drop (l.idxOf i + 1)).head?).getD 15

/-- REFERENCE_LOSS (R342, R344): the selected input is lost; the generator holds over and selects the next listed input. -/
def execReferenceLoss (n : Node) (input : RefInput) (s : State) : Host.Outcome State Fault Refusal :=
  let l := refList (s.refCfg n)
  .next (if (s.island n).state = 2 ∧ fld (s.island n).status 27 24 = input.toNat then
    (s.modIsland n fun x => (x.setState 3).select (nextInput l input.toNat)).edge 0 594 else s)

/-- The generator locks: a first lock starts the island's time at 0 (R349), and ACLK begins at FLOOR. -/
def Island.lock (x : Island) (now : Nat) (sett : Bool) : Island :=
  if x.state < 2 then
    let y := if sett ∧ fld x.status 10 0 = 0 then { x with status := setFld x.status 10 0 200 } else x
    { y.setState 2 with timeOff := -(BitVec.ofNat 64 now), slew := 0, slewAt := now }
  else x.setState 2

/-- Whether a node is a sett. -/
def isSett : Node → Bool
  | .sett _ => true
  | _ => false

/-- INPUT_QUALIFIED (R342, R344, R349): the generator locks to the input if it is listed and no input is locked; G0 does not go back to
PREFCLK by itself. -/
def execInputQualified (n : Node) (input : RefInput) (s : State) : Host.Outcome State Fault Refusal :=
  let x := s.island n
  let back := n = .gal 0 ∧ x.state = 3 ∧ input.toNat ≠ fld x.status 27 24
  .next (if (refList (s.refCfg n)).contains input.toNat ∧ (x.state = 1 ∨ x.state = 3) ∧ ¬ back then
    s.modIsland n fun x =>
      let y := if x.state = 1 then { x with status := setFld x.status 27 24 input.toNat } else x.select input.toNat
      y.lock s.tclk (isSett n)
    else s)

/-- A write of CLK_REF_CFG: an input that is no longer listed, or for G0 no longer the first, is given up (R341, R344). -/
def State.writeRefCfg (s : State) (n : Node) (v : BitVec 32) : State :=
  let v := BitVec.ofNat 32 (fld v 15 0)
  let l := refList v
  s.modIsland n fun x =>
    let y := { x with refCfg := v ^^^ refStrap n }
    let cur := fld x.status 27 24
    if y.live && (!l.contains cur || (n = .gal 0 && l.head? ≠ some cur)) then (y.setState 3).select (l.head?.getD 15) else y

/-! ### ACLK (R345 to R348) -/

/-- FUSE_MAX of a variant (R410). -/
def fuseMax (part : BitVec 2) : Nat := if part = 0 then 64 else if part = 1 then 56 else 48

/-- The target of R345 from the limits of CLK_ACLK and TIE_MAX. -/
def aclkTarget (aclk : BitVec 64) (tieMax : Nat) : Nat :=
  max 8 (min (fld aclk 54 48) (min (fld aclk 46 40) (min (fld aclk 38 32) (min (fld aclk 30 24) tieMax))))

/-- The sett with EFFECTIVE brought up to date. -/
def Sett.retarget (x : Sett) : Sett :=
  { x with clk := { x.clk with aclk := setFld x.clk.aclk 62 56 (aclkTarget x.clk.aclk (fld x.cap 22 16)) } }

/-- The sett with THERM set; below FLOOR it acts as FLOOR. -/
def Sett.setTherm (x : Sett) (v : Nat) : Sett :=
  ({ x with clk := { x.clk with aclk := setFld x.clk.aclk 46 40 (max 8 (v % 128)) } } : Sett).retarget

/-- The sett with PWR set; below FLOOR it acts as FLOOR. -/
def Sett.setPwr (x : Sett) (v : Nat) : Sett :=
  ({ x with clk := { x.clk with aclk := setFld x.clk.aclk 38 32 (max 8 (v % 128)) } } : Sett).retarget

/-- The sett with DROOP set. -/
def Sett.setDroop (x : Sett) (v : Nat) : Sett :=
  ({ x with clk := { x.clk with aclk := setFld x.clk.aclk 30 24 v } } : Sett).retarget

/-- SAFE of CLK_STATUS. -/
def Island.safe (x : Island) : Bool := bit x.status 23

/-- Frequency of a safe-path divider in 25 MHz units. -/
def safeUnits (div : Nat) : Nat := if div = 0 then 32 else if div = 1 then 16 else 8

/-- The divider of the highest safe-path frequency that does not exceed a target in 25 MHz units. -/
def safeDiv (target : Nat) : Nat := if 32 ≤ target then 0 else if 16 ≤ target then 1 else 2

/-- The island with ACLK on the safe path at a divider. -/
def Island.toSafe (x : Island) (div : Nat) : Island :=
  { x with status := setFld (setFld (setBit x.status 23 true) 22 21 div) 10 0 (25 * safeUnits div) }

/-- ACLK_STEP (R345, R346): one 25 MHz step toward the target; on the safe path only a lower divider, when the target asks for it. -/
def Island.aclkStep (x : Island) : Island :=
  let cur := fld x.status 10 0
  let target := 25 * fld x.aclk 62 56
  if !x.live then x
  else if x.safe then (if target < cur then x.toSafe (safeDiv (fld x.aclk 62 56)) else x)
  else if cur < target then { x with status := setFld x.status 10 0 (cur + 25) }
  else if target < cur then { x with status := setFld x.status 10 0 (cur - 25) }
  else x

/-- ACLK_STEP (R345). -/
def execAclkStep (site : Site) (s : State) : Host.Outcome State Fault Refusal :=
  .next (s.modSett site.val fun x => { x with clk := x.clk.aclkStep })

/-- A clock violation: counted, and ACLK goes to the safe path; one within 1 ms of the return locks it (R346). -/
def Island.violation (x : Island) (now : Nat) (duty : Bool) : Island :=
  if !x.live then x
  else
    let units := if x.safe then min (fld x.aclk 62 56) (fld x.status 10 0 / 25) else fld x.aclk 62 56
    let y := { x with events := if duty then satFld x.events 23 16 1 else satFld x.events 31 24 1 }
    let y := { y with status := setFld y.status 20 19 (if duty then 2 else 1) }
    let again := match x.safeAt with
      | some t => !x.safe && now < t + 1000000
      | none => false
    (if again then { y with status := setBit y.status 18 true } else y).toSafe (safeDiv units)

/-- CLOCK_VIOLATION (R346). -/
def execClockViolation (site : Site) (duty : Bool) (s : State) : Host.Outcome State Fault Refusal :=
  .next (s.modSett site.val fun x => { x with clk := x.clk.violation s.tclk duty })

/-- A write of 1 to SAFE: ACLK goes back to the fractional divider unless the safe path is locked (R346). -/
def Island.safeClear (x : Island) (now : Nat) : Island :=
  if x.safe && !bit x.status 18 then { x with status := setFld (setBit x.status 23 false) 22 21 0, safeAt := some now } else x

/-- SAFE_CLEAR (R346). -/
def execSafeClear (site : Site) (s : State) : Host.Outcome State Fault Refusal :=
  .next (s.modSett site.val fun x => { x with clk := x.clk.safeClear s.tclk })

/-- Whether `n` cycles have passed since an instant that may not have come yet. -/
def passed (t : Option Nat) (now n : Nat) : Bool :=
  match t with
  | some a => a + n ≤ now
  | none => true

/-- A droop: counted, and DROOP falls by one step, at most one in a microsecond (R347); the code 0x7F stands one step above FUSE_MAX. -/
def Sett.droop (x : Sett) (now : Nat) : Sett :=
  let k := { x.clk with events := satFld x.clk.events 15 8 1, status := setFld x.clk.status 20 19 3, droopAt := some now }
  let d := fld k.aclk 30 24
  if passed k.droopStep now 1000 then
    let y := { x with clk := { k with droopStep := some now } }
    y.setDroop (if d = 127 then fld k.aclk 54 48 else d - 1)
  else { x with clk := k }

/-- DROOP (R347): the row only says which detector saw it; the stretched cycle is timing. -/
def execDroop (site : Site) (_row : Fin 8) (s : State) : Host.Outcome State Fault Refusal :=
  .next (if (s.sett site.val).clk.live then s.modSett site.val fun x => x.droop s.tclk else s)

/-- DROOP rises by one step a millisecond once 1 ms has passed without a droop (R347). -/
def Sett.droopRise (x : Sett) (now : Nat) : Sett :=
  let d := fld x.clk.aclk 30 24
  if d = 127 || !passed x.clk.droopAt now 1000000 || !passed x.clk.droopStep now 1000000 then x
  else
    let y := { x with clk := { x.clk with droopStep := some now } }
    y.setDroop (if fld x.clk.aclk 54 48 < d + 1 then 127 else d + 1)

/-- DROOP_RECOVERY (R347). -/
def execDroopRecovery (site : Site) (dt : Nat) (s : State) : Host.Outcome State Fault Refusal :=
  let t := s.pass dt
  .next (t.modSett site.val fun x => x.droopRise t.tclk)

/-! ### Sites and stacks that die -/

/-- A site is dead (R348, R374, R375, R413): its cores are fenced, a running pass is aborted with SETT_LOST that counts all cores of the site
(R44, R52), and the map loses the site at the next change. -/
def State.siteDies (s : State) (site : Nat) : State :=
  let ps := s.coresOfSite site
  let t := ps.foldl (fun t p => t.modCore p fun c => { c with fenced := true }) s
  let t := { t with map := { t.map with waiting := addOnce t.map.waiting (MapItem.deadSite site) } }
  if s.ledger.state = .idle then t else t.recordAbort abSett ps

/-- A stack is FAILED or its sump lost: every context with a region in it hears of it (R288). -/
def State.stackDies (s : State) (k : Nat) : State :=
  if (s.sump k).told then s
  else
    let ctxs := (s.sump k).regions.map fun e => fld e.2 57 48
    let t := s.modSump k fun x => { x with status := setFld (setFld x.status 31 28 3) 15 8 0, told := true }
    t.ctxEvents (fun n => ctxs.contains n) (event 0x81 k 0)

/-- A gallery fails (R407, dependency table of chapter 01): its port and its engines are unavailable. -/
def State.galleryDies (s : State) (g : Nat) : State := s.modGal g fun x => { x with failed := true, linkUp := false }

/-- VCO_LOCK_FAIL (R348). -/
def execVcoLockFail (n : Node) (s : State) : Host.Outcome State Fault Refusal :=
  .next (if (s.island n).state = 0 ∨ (s.island n).state = 4 then s else
    let t := s.modIsland n fun x => x.setState 4
    match n with
    | .sett i => t.siteDies i.val
    | .sump i => t.stackDies i.val
    | .gal g => t.galleryDies g.val)

/-! ### Panel time (R349 to R355) -/

/-- The CRC of a beacon over bits [127:32], their bytes in sending order (R350; the byte order into the CRC is DEDUCED). -/
def beaconCrc (f : BitVec 128) : Nat := crc32 ((List.range 12).map fun i => BitVec.ofNat 8 (fld f (127 - 8 * i) (120 - 8 * i)))

/-- Whether a beacon is valid (R350). -/
def beaconOk (f : BitVec 128) : Bool := fld f 127 124 = 10 && fld f 31 0 = beaconCrc f

/-- The expected time at a beacon's mark (R351). -/
def beaconTime (f : BitVec 128) : BitVec 64 := BitVec.ofNat 64 (fld f 123 70 * 1024 + (fld f 69 50 + 500) / 1000)

/-- LAST_ERR of an error: clamped to −128 to 127. -/
def errCode (e : Int) : Nat := wrapN 8 (max (-128) (min 127 e))

/-- The island's time is set to a value at once. -/
def Island.loadTime (x : Island) (now : Nat) (t : BitVec 64) : Island :=
  { x with timeOff := t - BitVec.ofNat 64 now, slew := 0, slewAt := now }

/-- A jump is counted. -/
def Island.jump (x : Island) : Island := { x with timeStat := satFld x.timeStat 23 16 1 }

/-- The correction of R352 for the expected time `t`, and the step of R355. -/
def Island.correct (x : Island) (now : Nat) (t : BitVec 64) (step : Bool) : Island :=
  let cur := x.time now
  let e := (t - cur).toInt
  let y := { x with timeStat := setFld x.timeStat 7 0 (errCode e) }
  if step then (y.loadTime now t).jump
  else if e = 0 then y.loadTime now cur
  else if 64 < e then (y.loadTime now t).jump
  else if -64 ≤ e then { y.loadTime now cur with slew := e }
  else { (y.loadTime now cur).jump with slew := e }

/-- A missed beacon: counted; the fourth in a row clears SYNC (R354). -/
def Island.miss (x : Island) : Island :=
  let y := { x with timeStat := satFld x.timeStat 15 8 1, missRun := x.missRun + 1 }
  if 4 ≤ y.missRun then { y with timeStat := setBit y.timeStat 31 false } else y

/-! ### What a beacon does to a router and to injection (R260, R354) -/

/-- The staged folds and lines apply (R260, R267). -/
def Router.applyFold (x : Router) : Router :=
  let st := fld x.fold 47 32
  { x with fold := setFld (setFld x.fold 31 16 0) 15 0 st, ctrl := setFld x.ctrl 7 0 (fld x.fold 63 56) }

/-- The banks of the classes of a mask switch. -/
def Router.flip (x : Router) (m : Nat) : Router := { x with ctrl := setFld x.ctrl 27 24 (fld x.ctrl 27 24 ^^^ m) }

/-- The packets that a node holds back, by source. -/
def State.keptAt (s : State) (n : Node) : List Packet := s.drain.kept.filter fun k => srcNode s.siteOfSett k.src = n

/-- The classes that a node holds become `h`; kept packets of the others enter the fabric. -/
def State.setHold (s : State) (n : Node) (h : Nat) : State :=
  let go := (s.keptAt n).filter fun k => !h.testBit k.tc.toNat
  let t := s.modIsland n fun x => { x with holds := BitVec.ofNat 4 h }
  { t with flight := t.flight ++ go, drain := { t.drain with kept := t.drain.kept.filter fun k => !go.contains k } }

/-- A node applies the HOLD, FLIP and FOLD of a beacon: banks and folds once in a drain, and injection resumes only after them. -/
def State.applyDrain (s : State) (n : Node) (hold flip : Nat) (fold : Bool) : State :=
  let now := flip ≠ 0 || fold
  let t := if now && !(s.island n).applied then
      let u := s.modRouter n fun x => let y := x.flip (flip &&& hold); if fold then y.applyFold else y
      u.modIsland n fun x => { x with applied := true }
    else if !now then s.modIsland n fun x => { x with applied := false }
    else s
  t.setHold n hold

/-- BEACON_RECEIVE (R350 to R355, R260). -/
def execBeaconReceive (n : Node) (frame : BitVec 128) (s : State) : Host.Outcome State Fault Refusal :=
  .next (if n = .gal 0 ∨ ¬ (s.island n).live then s
    else if ¬ beaconOk frame then s.modIsland n Island.miss
    else
      let t := s.modIsland n fun x =>
        let y := x.correct s.tclk (beaconTime frame) (bit frame 40)
        { y with timeStat := setBit y.timeStat 31 true, missRun := 0,
                 timePath := BitVec.ofNat 32 (fld frame 39 32 * 2 ^ 24 + fld frame 69 50) }
      t.applyDrain n (fld frame 49 46) (fld frame 45 42) (bit frame 41))

/-- SYNC_LOSS (R354): four beacons in a row are missed. -/
def execSyncLoss (n : Node) (s : State) : Host.Outcome State Fault Refusal :=
  .next (if n = .gal 0 ∨ ¬ (s.island n).live then s
    else s.modIsland n fun x =>
      { x with timeStat := setBit (satFld x.timeStat 15 8 (4 - x.missRun)) 31 false, missRun := max 4 x.missRun })

/-- A write of TIME_CTRL: STEP is requested, SRC is written (R355). -/
def TimeSvc.write (x : TimeSvc) (v : BitVec 64) : TimeSvc :=
  { x with ctrl := setBit (setBit x.ctrl 62 (bit v 62)) 63 (bit x.ctrl 63 || bit v 63) }

/-- TIME_STEP (R355): a write of TIME_CTRL. -/
def execTimeStep (v : BitVec 64) (s : State) : Host.Outcome State Fault Refusal := .next { s with timeSvc := s.timeSvc.write v }

/-- STATE of GAL_DRAIN: 0 IDLE, 1 WAIT_IDLE, 2 HOLDING, 3 DRAINED, 4 DONE, 5 TIMEOUT. -/
def Drain.state (d : Drain) : Nat := fld d.reg 63 61

/-- Whether a drain is under way. -/
def Drain.busy (d : Drain) : Bool := 1 ≤ d.state && d.state ≤ 3

/-- A change of the drain's STATE reaches G0's interrupt controller (R424). -/
def State.drainEdge (s : State) (old : Nat) : State := if s.drain.state = old then s else s.edge 0 593

/-- Whether the conditions of a time step hold (R355). -/
def State.stepAllowed (s : State) : Bool :=
  s.ledger.state = .idle && !(s.sched.picked.any fun x => x.pass.timed) && !s.drain.busy

/-- TIME_CTRL as it reads: STEP_WAIT shows a request that its conditions hold up. -/
def State.timeCtrl (s : State) : BitVec 64 := setBit s.timeSvc.ctrl 61 (bit s.timeSvc.ctrl 63 && !s.stepAllowed)

/-- G0 loads the requested time at a beacon (R355); STEP clears. -/
def State.stepTime (s : State) : State :=
  if bit s.timeSvc.ctrl 63 && s.stepAllowed then
    let t := s.modIsland (.gal 0) fun x => (x.loadTime s.tclk (setFld s.timeSvc.stepVal 9 0 0)).jump
    ({ t with timeSvc := { t.timeSvc with ctrl := setBit t.timeSvc.ctrl 63 false } }).edge 0 594
  else s

end Sys2Proof.Machine
end

