-- ==== Sys2Proof/Machine/Routes.lean ====
section
/-! DEFINITION. The rings and the route tables that firmware computes from the structural map (R246, R252, R255 to R258, R268). -/

namespace Sys2Proof.Machine

/-! ### Rings and positions (R246) -/

/-- A ring pair. -/
inductive Ring where
  | row (r : Nat)
  | col (c : Nat)
  | rim
  deriving DecidableEq, Repr

/-- The number of nodes of a ring pair. -/
def Ring.size : Ring → Nat
  | .row _ => 19
  | .col c => if c % 2 = 1 then 18 else 16
  | .rim => 36

/-- A site as a node. -/
def siteNode (r c : Nat) : Node := .sett (Fin.ofNat 272 (17 * r + c))

/-- A stack's sump as a node. -/
def sumpNode (k : Nat) : Node := .sump (Fin.ofNat 32 k)

/-- A gallery as a node. -/
def galNode (g : Nat) : Node := .gal (Fin.ofNat 4 g)

/-- The node at position p of a ring pair. -/
def Ring.node (g : Ring) (p : Nat) : Node :=
  match g with
  | .row r => if p = 0 then sumpNode r else if p = 10 then sumpNode (16 + r) else if p < 10 then siteNode r (2 * (p - 1))
      else siteNode r (2 * (18 - p) + 1)
  | .col c =>
    if c % 2 = 1 then
      (if p = 0 then galNode (if c < 9 then 0 else 1) else if p = 9 then galNode (if c < 9 then 2 else 3)
       else if p < 9 then siteNode (2 * (p - 1)) c else siteNode (2 * (17 - p) + 1) c)
    else if p < 8 then siteNode (2 * p) c else siteNode (2 * (15 - p) + 1) c
  | .rim => if p < 2 then galNode p else if p < 18 then sumpNode (16 + (p - 2)) else if p = 18 then galNode 3
      else if p = 19 then galNode 2 else sumpNode (35 - p)

/-- Position of column c on its row ring. -/
def rowPos (c : Nat) : Nat := if c % 2 = 0 then 1 + c / 2 else 18 - (c - 1) / 2

/-- Position of row r on the ring of column c. -/
def colPos (c r : Nat) : Nat :=
  if c % 2 = 1 then (if r % 2 = 0 then 1 + r / 2 else 17 - (r - 1) / 2) else if r % 2 = 0 then r / 2 else 15 - (r - 1) / 2

/-- Position of a stack's sump on the rim. -/
def rimPosSump (k : Nat) : Nat := if 16 ≤ k then 2 + (k - 16) else 35 - k

/-- Position of a gallery on the rim. -/
def rimPosGal (g : Nat) : Nat := if g = 0 then 0 else if g = 1 then 1 else if g = 2 then 19 else 18

/-- The port code of a node for a ring and direction (R256). -/
def portCode (n : Node) (g : Ring) (ringB : Bool) : Nat :=
  match n, g with
  | .sett _, .row _ => 1 + b2n ringB
  | .sett _, .col _ => 3 + b2n ringB
  | .sump _, .row _ => 1 + b2n ringB
  | .sump _, .rim => 5 + b2n ringB
  | .gal _, .rim => 5 + b2n ringB
  | .gal _, .col c => if ringB then 1 + c % 8 / 2 else 8 + c % 8 / 2
  | _, _ => 15

/-! ### What is up -/

/-- The nodes that are down and the ring links that are dead, by node and port code. -/
structure Net where
  down : List Node
  bad  : List (Node × Nat)

/-- Whether a node is up. -/
def Net.up (t : Net) (n : Node) : Bool := !t.down.contains n

/-- Whether the link from position p to p + 1 works in both rings. -/
def Net.linkUp (t : Net) (g : Ring) (p : Nat) : Bool :=
  let a := g.node (p % g.size)
  let b := g.node ((p + 1) % g.size)
  t.up a && t.up b && !t.bad.contains (a, portCode a g false) && !t.bad.contains (b, portCode b g true)

/-- Whether a ring is a line (R267). -/
def Net.isLine (t : Net) (g : Ring) : Bool := (List.range g.size).any fun p => !t.linkUp g p

/-- Whether the way from a to b on ring A works; without `cross` it may not pass the date line of a ring that is none of a line. -/
def Net.wayA (t : Net) (g : Ring) (a b : Nat) (cross : Bool) : Bool :=
  (List.range ((b + g.size - a) % g.size)).all fun i =>
    t.linkUp g (a + i) && (cross || (a + i) % g.size ≠ g.size - 1 || t.isLine g)

/-- The direction of a leg from a to b: the shorter way that works, ring A on a tie (R258); true for ring B. -/
def Net.leg (t : Net) (g : Ring) (a b : Nat) (cross : Bool) : Option Bool :=
  let okA := t.wayA g a b cross
  let okB := t.wayA g b a cross
  let dA := (b + g.size - a) % g.size
  let dB := (a + g.size - b) % g.size
  if okA && (dA ≤ dB || !okB) then some false else if okB then some true else none

/-- Length of the leg that `leg` chooses, for comparing ways. -/
def Net.legLen (t : Net) (g : Ring) (a b : Nat) (cross : Bool) : Option Nat :=
  (t.leg g a b cross).map fun d => if d then (a + g.size - b) % g.size else (b + g.size - a) % g.size

/-! ### Routes (R258) -/

/-- How a packet reached a router, by the field of a route entry: 0 FROM_LOCAL, 1 FROM_ROW, 2 FROM_COL, 3 FROM_RIM. -/
abbrev Reach := Nat

/-- The port code of a leg, or `other` when the leg has no way. -/
def Net.go (t : Net) (n : Node) (g : Ring) (a b : Nat) (cross : Bool) (other : Nat) : Nat :=
  match t.leg g a b cross with
  | some d => portCode n g d
  | none => other

/-- The nearer of the positions of a list by a leg's length. -/
def Net.nearest (t : Net) (g : Ring) (a : Nat) (bs : List Nat) (cross : Bool) : Option Nat :=
  bs.foldl (fun best b =>
    match t.legLen g a b cross, best.bind fun x => t.legLen g a x cross with
    | some l, some m => if l < m then some b else best
    | some _, none => some b
    | none, _ => best) none

/-- A sett's way toward a sump of its own row (R258, last row). -/
def Net.toSump (t : Net) (n : Node) (r c : Nat) (cross : Bool) : Nat :=
  match t.nearest (.row r) (rowPos c) [0, 10] cross with
  | some b => t.go n (.row r) (rowPos c) b cross 15
  | none => 15

/-- Whether a column's ring joins two rows. -/
def Net.colJoins (t : Net) (c r r2 : Nat) : Bool := r = r2 || (t.leg (.col c) (colPos c r) (colPos c r2) true).isSome

/-- The columns that a gallery attaches to (R12). -/
def galCols (g : Nat) : List Nat := if g % 2 = 0 then [1, 3, 5, 7] else [9, 11, 13, 15]

/-- The position of a gallery on its column rings. -/
def galColPos (g : Nat) : Nat := if g < 2 then 0 else 9

/-- The attached columns by distance from column c, the lower on a tie. -/
def colsNear (g c : Nat) : List Nat :=
  (List.range 17).flatMap fun d => (galCols g).filter fun a => a + d = c || (d ≠ 0 && c + d = a)

/-- A destination of a route entry. -/
inductive Dest where
  | sett (r c : Nat)
  | sump (k : Nat)
  | gal (g : Nat)
  deriving DecidableEq, Repr

/-- The node of a destination. -/
def Dest.node : Dest → Node
  | .sett r c => siteNode r c
  | .sump k => sumpNode k
  | .gal g => galNode g

/-- The port code at sett P(r,c). -/
def Net.settHop (t : Net) (r c : Nat) (from_ : Reach) (d : Dest) : Nat :=
  let n := siteNode r c
  let first := from_ = 0
  match d with
  | .sett r2 c2 =>
    if r = r2 && c = c2 then 0
    else if from_ = 0 then
      (if c = c2 then t.go n (.col c) (colPos c r) (colPos c r2) true (t.toSump n r c first)
       else if t.colJoins c2 r r2 then t.go n (.row r) (rowPos c) (rowPos c2) first 15
       else t.toSump n r c first)
    else if from_ = 1 then (if c = c2 then t.go n (.col c) (colPos c r) (colPos c r2) true 7 else 7)
    else if from_ = 2 then (if r = r2 then t.go n (.row r) (rowPos c) (rowPos c2) first 15 else 7)
    else 15
  | .sump k =>
    let target := if 16 ≤ k then 10 else 0
    if r = k % 16 then (if from_ = 1 then 7 else if from_ = 3 then 15 else t.go n (.row r) (rowPos c) target first 15)
    else if from_ = 0 then
      (if t.colJoins c r (k % 16) then t.go n (.col c) (colPos c r) (colPos c (k % 16)) true 15 else t.toSump n r c first)
    else if from_ = 3 then 15 else 7
  | .gal g =>
    let ok := fun a => (t.leg (.col a) (colPos a r) (galColPos g) true).isSome && (a = c || (t.leg (.row r) (rowPos c) (rowPos a) true).isSome)
    let here := (galCols g).contains c && ok c
    if from_ = 2 then 7 else if from_ = 3 then 15
    else if here then t.go n (.col c) (colPos c r) (galColPos g) true 15
    else if from_ = 1 then 7
    else match (colsNear g c).filter ok with
      | a :: _ => t.go n (.row r) (rowPos c) (rowPos a) first 15
      | [] => t.toSump n r c first

/-- The rim leg toward the nearer sump of a row. -/
def Net.rimToRow (t : Net) (n : Node) (a r2 : Nat) : Nat :=
  match t.nearest .rim a [rimPosSump r2, rimPosSump (16 + r2)] true with
  | some b => t.go n .rim a b true 15
  | none => 15

/-- The port code at sump k. -/
def Net.sumpHop (t : Net) (k : Nat) (from_ : Reach) (d : Dest) : Nat :=
  let n := sumpNode k
  let r := k % 16
  let pos := if 16 ≤ k then 10 else 0
  let rim := rimPosSump k
  match d with
  | .sett r2 c2 =>
    if from_ = 0 then
      (if t.colJoins c2 r r2 then t.go n (.row r) pos (rowPos c2) true (t.rimToRow n rim r2) else t.rimToRow n rim r2)
    else if from_ = 1 then (if t.colJoins c2 r r2 then 7 else t.rimToRow n rim r2)
    else if from_ = 3 then (if r = r2 then t.go n (.row r) pos (rowPos c2) false 15 else 7)
    else 15
  | .sump j =>
    if j = k then 0
    else if from_ = 1 && j % 16 = r then 7
    else if from_ = 3 then 7
    else if from_ = 2 then 15
    else t.go n .rim rim (rimPosSump j) true 15
  | .gal g =>
    let throughRow := (galCols g).any fun a => (t.leg (.col a) (colPos a r) (galColPos g) true).isSome
    if from_ = 3 then 7 else if from_ = 2 then 15
    else if from_ = 1 && throughRow then 7
    else t.go n .rim rim (rimPosGal g) true 15

/-- The port code at gallery g. -/
def Net.galHop (t : Net) (g : Nat) (from_ : Reach) (d : Dest) : Nat :=
  let n := galNode g
  let rim := rimPosGal g
  if from_ = 3 then (if d = .gal g then 0 else 7)
  else if from_ ≠ 0 then (if d = .gal g then 0 else 15)
  else match d with
    | .sett r2 c2 =>
      (match (colsNear g c2).find? (fun a => (t.leg (.col a) (galColPos g) (colPos a r2) true).isSome) with
       | some a => t.go n (.col a) (galColPos g) (colPos a r2) true 15
       | none => t.rimToRow n rim r2)
    | .sump j => t.go n .rim rim (rimPosSump j) true 15
    | .gal h => if h = g then 0 else t.go n .rim rim (rimPosGal h) true 15

/-- The port code at any node. -/
def Net.hop (t : Net) (n : Node) (from_ : Reach) (d : Dest) : Nat :=
  match n with
  | .sett i => t.settHop (i.val / 17) (i.val % 17) from_ d
  | .sump k => t.sumpHop k.val from_ d
  | .gal g => t.galHop g.val from_ d

/-- The destination of a DIDX in the present shape (R255). -/
def State.destOf (s : State) (didx : Nat) : Option Dest :=
  if didx < 256 then (s.siteOfSett didx).map fun i => .sett (i / 17) (i % 17)
  else if didx < 288 then some (.sump (didx - 256))
  else if didx < 292 then some (.gal (didx - 288))
  else if 320 ≤ didx && didx < 592 then some (.sett ((didx - 320) / 17) ((didx - 320) % 17))
  else none

/-- The route entry of a node for a DIDX: invalid when the destination is down. -/
def State.routeEntry (s : State) (t : Net) (n : Node) (didx : Nat) : BitVec 32 :=
  match s.destOf didx with
  | some d =>
    if t.up d.node then
      BitVec.ofNat 32 (2 ^ 31 + t.hop n 0 d * 2 ^ 12 + t.hop n 1 d * 2 ^ 8 + t.hop n 2 d * 2 ^ 4 + t.hop n 3 d)
    else 0
  | none => 0

/-! ### The panel's net, staged folds, capacities -/

/-- Whether a site may carry traffic: not dead, and its meadow ON or TURNING_OFF; `dark` names meadows counted as dark. -/
def State.siteUp (s : State) (dark : List Nat) (i : Nat) : Bool :=
  let st := fld (Tab.get 0 s.power.meadow (meadowOf i)) 63 60
  !s.nv.deadSites.contains i && !s.map.waiting.contains (MapItem.deadSite i) && (st = 3 || st = 4) && !dark.contains (meadowOf i)

/-- The net of the panel with some more meadows counted as dark. -/
def State.net (s : State) (dark : List Nat) : Net :=
  { down := ((List.finRange 272).filter fun i => !s.siteUp dark i.val).map Node.sett
      ++ ((List.finRange 32).filter fun k => (s.sump k.val).state = 3).map Node.sump
      ++ ((List.finRange 4).filter fun g => (s.gal g.val).failed).map Node.gal,
    bad := s.nv.deadLinks ++ s.map.waiting.filterMap fun i => match i with
      | .deadLink n p => some (n, p)
      | _ => none }

/-- The rings of a node. -/
def ringsOf : Node → List Ring
  | .sett i => [.row (i.val / 17), .col (i.val % 17)]
  | .sump k => [.row (k.val % 16), .rim]
  | .gal g => .rim :: (galCols g.val).map Ring.col

/-- The position of a node on a ring. -/
def posOn (n : Node) (g : Ring) : Nat :=
  match n, g with
  | .sett i, .row _ => rowPos (i.val % 17)
  | .sett i, .col c => colPos c (i.val / 17)
  | .sump k, .row _ => if 16 ≤ k.val then 10 else 0
  | .sump k, _ => rimPosSump k.val
  | .gal a, .rim => rimPosGal a.val
  | .gal a, _ => galColPos a.val
  | _, _ => 0

/-- The ports of a node whose link does not work, as a mask of port codes (STAGED). -/
def Net.folds (t : Net) (n : Node) : Nat :=
  maskOf ((ringsOf n).flatMap fun g =>
    let p := posOn n g
    (if t.linkUp g p then [] else [portCode n g false]) ++ (if t.linkUp g (p + g.size - 1) then [] else [portCode n g true]))

/-- The rings of a node that are lines, as LINE bits (STAGED_LINE). -/
def Net.lines (t : Net) (n : Node) : Nat :=
  maskOf ((ringsOf n).filterMap fun g =>
    if t.isLine g then
      some (match n, g with
        | _, .row _ => 0
        | .gal _, .col c => 2 + c % 8 / 2
        | _, .col _ => 1
        | _, .rim => 6)
    else none)

/-- Columns and rows as coordinates, for the cuts of GAL_DRAIN_RPT: a rim node lies beyond the array's edge. -/
def coordOf (vertical : Bool) : Node → Int
  | .sett i => if vertical then (i.val % 17 : Nat) else (i.val / 17 : Nat)
  | .sump k => if vertical then (if 16 ≤ k.val then 17 else -1) else (k.val % 16 : Nat)
  | .gal g => if vertical then (if g.val % 2 = 0 then 5 else 12) else (if g.val < 2 then -1 else 16)

/-- Capacity in GB/s per direction across the cut beyond coordinate x: 512 for every working link of a ring that crosses it, and 1,024 for
the rim (R246). -/
def Net.cut (t : Net) (vertical : Bool) (x : Nat) : Nat :=
  let rings := if vertical then (List.range 16).map Ring.row else (List.range 17).map Ring.col
  1024 + 512 * sumN (rings.map fun g => ((List.range g.size).filter fun p =>
    t.linkUp g p && decide ((coordOf vertical (g.node p) ≤ (x : Int)) ≠ (coordOf vertical (g.node ((p + 1) % g.size)) ≤ (x : Int)))).length)

/-- The smallest capacity across any cut of the array. -/
def Net.cap (t : Net) (vertical : Bool) : Nat :=
  ((List.range (if vertical then 16 else 15)).map (t.cut vertical)).foldl min (t.cut vertical 0)

/-- The entries of a bank. -/
def State.bankTable (s : State) (t : Net) (n : Node) : List (BitVec 32) := (List.range 1024).map (s.routeEntry t n)

/-- A node's router with a bank's table written (key 1,024 × bank + DIDX). -/
def Router.writeBank (x : Router) (bank : Nat) (es : List (BitVec 32)) : Router :=
  { x with routes := Tab.write 0 (Tab.clear x.routes (1024 * bank) 1024) (1024 * bank) es }

/-- The bank that no class uses: bank 1 while every class uses bank 0, else bank 0. -/
def Router.spareBank (x : Router) : Nat := if fld x.ctrl 27 24 = 0 then 1 else 0

/-- Firmware stages tables, folds and lines for the panel with some more meadows dark, and plans the report (R258, R268). -/
def State.stageTables (s : State) (dark : List Nat) (nodes : List Node) : State :=
  let t := s.net dark
  let u := (nodes.filter t.up).foldl (fun u n => u.modRouter n fun x =>
    let y := x.writeBank x.spareBank (s.bankTable t n)
    { y with fold := setFld (setFld y.fold 47 32 (t.folds n)) 63 56 (t.lines n) }) s
  { u with drain := { u.drain with rpt := setFld (setFld u.drain.rpt 63 48 (t.cap false)) 47 32 (t.cap true) } }

end Sys2Proof.Machine
end

