-- ==== Sys2Proof/Machine/RingRows.lean ====
section
/-! DEFINITION. Ring routers: routing one packet, folds, links, combine entries, and the drain (R247 to R268, R350, R354). -/

namespace Sys2Proof.Machine

/-! ### Routing one packet (R250 to R257, R266) -/

/-- Whether the length of a packet lies in the range of its opcode (R249). -/
def lenOk (opc n : Nat) : Bool :=
  if opc = 1 || opc = 2 || opc = 3 then 8 ≤ n && n ≤ 4096
  else if opc = 5 || opc = 14 || opc = 15 then 32 ≤ n && n ≤ 4096
  else if opc = 12 then n = 96
  else if opc = 13 then n ≤ 64
  else n = 0

/-- Whether a packet answers nothing wrong for its opcode: an RD_RSP without payload carries a status (R257, R277). -/
def lenFits (k : Packet) : Bool := lenOk k.opc.toNat k.len.toNat || (k.opc = 2 && k.len = 0 && k.status ≠ 0)

/-- Whether a DIDX is reserved (R255). -/
def didxReserved (d : Nat) : Bool := (292 ≤ d && d < 320) || 592 ≤ d

/-- Whether a packet is well formed for the routers (R248 to R250, R441). -/
def packetOk (k : Packet) : Bool :=
  let o := k.opc.toNat
  1 ≤ o && o ≤ 15 && k.tc.toNat = opcTc o && 1 ≤ k.sclass.toNat && k.sclass.toNat ≤ 4 && lenFits k && !didxReserved k.didx.toNat
    && (k.sclass = 4 || !(o = 14 || o = 15 || o = 12 || o = 11 || o = 13))

/-- What a router does with a packet. -/
inductive Verdict where
  | deliver
  | forward (port : Nat)
  | badPkt
  | routeDrop
  | vcErr
  | foldDrop
  | turn (port : Nat)
  deriving DecidableEq, Repr

/-- The port code of the other ring of a pair at a node. -/
def otherPort (n : Node) (p : Nat) : Nat :=
  match n with
  | .gal _ => if p = 5 then 6 else if p = 6 then 5 else if 1 ≤ p && p ≤ 4 then p + 7 else if 8 ≤ p && p ≤ 11 then p - 7 else p
  | _ => if p % 2 = 1 then p + 1 else p - 1

/-- The ring and direction of a port code at a node; none for a code that the node's table leaves blank (R256). -/
def portRing (n : Node) (p : Nat) : Option (Ring × Bool) :=
  match n with
  | .sett i => if p = 1 then some (.row (i.val / 17), false) else if p = 2 then some (.row (i.val / 17), true)
      else if p = 3 then some (.col (i.val % 17), false) else if p = 4 then some (.col (i.val % 17), true) else none
  | .sump k => if p = 1 then some (.row (k.val % 16), false) else if p = 2 then some (.row (k.val % 16), true)
      else if p = 5 then some (.rim, false) else if p = 6 then some (.rim, true) else none
  | .gal g =>
    let base := if g.val % 2 = 0 then 1 else 9
    if 1 ≤ p && p ≤ 4 then some (.col (base + 2 * (p - 1)), true) else if 8 ≤ p && p ≤ 11 then some (.col (base + 2 * (p - 8)), false)
    else if p = 5 then some (.rim, false) else if p = 6 then some (.rim, true) else none

/-- The port code on which a packet continues: that of its arriving ring and direction (R256, code 7). -/
def arrivalPort (n : Node) (a : Arrival) : Nat :=
  match n, a with
  | .sett _, .row b => 1 + b2n b
  | .sett _, .col _ b => 3 + b2n b
  | .sump _, .row b => 1 + b2n b
  | .sump _, .rim b => 5 + b2n b
  | .gal _, .rim b => 5 + b2n b
  | .gal _, .col k b => if b then 1 + k.val else 8 + k.val
  | _, _ => 15

/-- The field of a route entry for an arrival (R256). -/
def entryField (e : BitVec 32) (a : Arrival) : Nat :=
  match a with
  | .injected => fld e 15 12
  | .row _ => fld e 11 8
  | .col _ _ => fld e 7 4
  | .rim _ => fld e 3 0

/-- Whether a port is folded: by a drain or in hardware (RTR_FOLD.ACTIVE). -/
def Router.folded (x : Router) (p : Nat) : Bool := bit x.fold p

/-- The LINE bit of a ring at a node (R267). -/
def lineBit (n : Node) (g : Ring) : Nat :=
  match n, g with
  | _, .row _ => 0
  | _, .rim => 6
  | .gal _, .col c => 2 + c % 8 / 2
  | _, .col _ => 1

/-- Whether going out of node n on a ring and direction crosses that ring's date line (R246). -/
def crossesDate (n : Node) (g : Ring) (ringB : Bool) : Bool :=
  let p := posOn n g
  if ringB then p = 0 else p = g.size - 1

/-- The route entry that a packet meets: bank by class (R256). -/
def Router.entryFor (x : Router) (k : Packet) : BitVec 32 :=
  Tab.get 0 x.routes (1024 * b2n (bit x.ctrl (24 + k.tc.toNat)) + k.didx.toNat)

/-- The verdict of a router on a packet, and the packet as it goes on (R250, R252, R256, R257, R266). -/
def routeVerdict (n : Node) (x : Router) (a : Arrival) (k : Packet) : Verdict × Packet :=
  if !packetOk k then (.badPkt, k)
  else
    let e := x.entryFor k
    let code := entryField e a
    if !bit e 31 || code = 15 then (.routeDrop, k)
    else if code = 0 then (.deliver, k)
    else
      let port := if code = 7 then arrivalPort n a else code
      match portRing n port with
      | none => (.routeDrop, k)
      | some (g, d) =>
        let cont := code = 7 || port = arrivalPort n a
        let leg := if cont then k else { k with vc := (match a, g with | .injected, _ => false | _, .row _ => true | _, _ => false) }
        let cross := crossesDate n g d && !bit x.ctrl (lineBit n g)
        if x.folded port then
          (if leg.turned || x.folded (otherPort n port) then (.foldDrop, leg) else (.turn (otherPort n port), { leg with vc := true, turned := true }))
        else if cross && leg.vc && !leg.turned then (.vcErr, leg)
        else (.forward port, if cross && !leg.turned then { leg with vc := true } else leg)

/-- Whether a request of this opcode expects a reply. -/
def expectsReply (opc : Nat) : Bool := opc = 1 || opc = 3 || opc = 5 || opc = 6 || opc = 7 || opc = 14 || opc = 15

/-- The reply that ends a request with a status: an ACK of one packet, or an RD_RSP without payload (R257, R277). -/
def refuseReply (k : Packet) (src : BitVec 15) (cls : BitVec 3) (st : BitVec 4) : Packet :=
  if k.opc = 1 then
    { Packet.empty with opc := 2, tc := 2, sclass := cls, daddr := k.aux, seq := k.seq, stream := k.stream, ctx := k.ctx, src := src,
                        status := st, didx := didxOf k.src }
  else
    { Packet.empty with opc := 4, sclass := cls, seq := k.seq, stream := k.stream, ctx := k.ctx, src := src, status := st,
                        aux := BitVec.ofNat 48 (2 ^ 32), didx := didxOf k.src }

/-- The node id from which a packet's requester awaits its answer (R254): that of the destination, or of a multicast's root. -/
def State.answerSrc (s : State) (k : Packet) : BitVec 15 :=
  let byDidx := fun (d : Nat) =>
    if d < 256 then (match s.siteOfSett d with | some i => srcSett i | none => 0)
    else if d < 288 then srcSump (d - 256) else if d < 292 then srcGal (d - 288) 0 else srcSett (d - 320)
  match k.mcx with
  | some m => byDidx m.root.toNat
  | none =>
    match decodeAddr k.daddr.toNat with
    | .pad l _ | .coreReg l _ => srcCore l
    | _ => byDidx k.didx.toNat

/-- Replaces a packet in flight. -/
def State.swap (s : State) (k k' : Packet) : State := { s with flight := s.flight.map fun x => if x = k then k' else x }

/-- The queue register of an input after a packet: the occupancy `cur` in flits, and the highest one since the last read. -/
def queueNote (old : BitVec 32) (cur : Nat) : BitVec 32 := BitVec.ofNat 32 (max (fld old 19 16) (min 8 cur) * 2 ^ 16 + min 8 cur)

/-- What a packet's passage from input `i` to output `p` adds to the counts of time and flow of a router (the flits that it fills or shares, the
occupancy of the input's queues, the cycles without a credit): free values, for the model has no FCLK (log entry 38). -/
def State.drift (s : State) (n : Node) (i p : Nat) : State :=
  let (a, t) := s.fresh
  let (b, t) := t.fresh
  let (c, t) := t.fresh
  t.modRouter n fun x =>
    { x with flits := Tab.mod 0 x.flits p (· + BitVec.ofNat 64 (fld a 7 0)),
             queues := (List.range 8).foldl (fun q k => Tab.mod 0 q (8 * i + k) fun v => queueNote v (fld a (15 + 8 * k) (8 + 8 * k))) x.queues,
             stalls := (List.range 8).foldl (fun q k => Tab.mod 0 q (8 * p + k) (· + word64 (if k < 4 then b else c) (k % 4))) x.stalls }

/-- A router's verdict as a change of the state. -/
def State.routePacket (s : State) (n : Node) (a : Arrival) (k : Packet) : State :=
  let x := s.router n
  let i := arrivalPort n a
  let hdr := fun (p : Nat) (t : State) =>
    (t.modRouter n fun x => { x with pkts := Tab.mod 0 x.pkts p (· + 1) }).drift n (if i = 15 then 0 else i) p
  let gone := fun (f : Router → Router) => (s.take k).modRouter n f
  match routeVerdict n x a k with
  | (.deliver, _) => hdr 0 s
  | (.forward p, k') => (hdr p (s.swap k k')).modRouter n fun x => { x with fails := Tab.set 0 x.fails p 0 }
  | (.turn p, k') =>
    (hdr p (s.swap k k')).modRouter n fun x => { x with err := satFld x.err 31 16 1 }
  | (.badPkt, _) => gone fun x => { x with err := satFld x.err 15 8 1 }
  | (.vcErr, _) => gone fun x => { x with err := satFld x.err 7 0 1 }
  | (.foldDrop, _) => gone fun x => { x with err := satFld x.err 63 48 1 }
  | (.routeDrop, _) =>
    let t := gone fun x => { x with err := satFld x.err 47 32 1 }
    if expectsReply k.opc.toNat then t.send [refuseReply k (s.answerSrc k) 4 stAbsent] else t

/-- ROUTE_PACKET (R250 to R257): a packet in flight reaches a router. -/
def execRoutePacket (n : Node) (frame : Arrival) (k : Packet) (s : State) : Host.Outcome State Fault Refusal :=
  .next (if s.flight.contains k then s.routePacket n frame k else s)

/-! ### Links (R247, R266) -/

/-- A port folds in hardware: packets turn there until a drain applies other folds. -/
def Router.foldHw (x : Router) (p : Nat) : Router := { x with fold := setBit (setBit x.fold p true) (16 + p) true }

/-- Whether a port code names a ring link of a node. -/
def isLink (n : Node) (p : Nat) : Bool := (portRing n p).isSome

/-- FLIT_REPLAY (R247): a failed flit is replayed; 16 failures in a row are RING_LINK_DEAD. -/
def execFlitReplay (n : Node) (port : Fin 12) (s : State) : Host.Outcome State Fault Refusal :=
  .next (if isLink n port.val then s.modRouter n fun x =>
    let v := Tab.get 0 x.links port.val
    { x with links := Tab.set 0 x.links port.val (setFld v 30 0 (fld v 30 0 + 1)), fails := Tab.mod 0 x.fails port.val (· + 1) } else s)

/-- The node at the far end of a port's link with its port code toward us. -/
def farEnd (n : Node) (p : Nat) : Option (Node × Nat) :=
  (portRing n p).map fun e =>
    let q := if e.2 then (posOn n e.1 + e.1.size - 1) % e.1.size else (posOn n e.1 + 1) % e.1.size
    (e.1.node q, portCode (e.1.node q) e.1 (!e.2))

/-- A link folds at both of its routers. -/
def State.foldLink (s : State) (n : Node) (p : Nat) : State :=
  let t := s.modRouter n fun x => x.foldHw p
  match farEnd n p with
  | some (m, q) => t.modRouter m fun x => x.foldHw q
  | none => t

/-- RING_LINK_DEAD (R247, R266): after 16 failures in a row the link is declared dead and its routers fold; the map records it. -/
def execRingLinkDead (n : Node) (port : Fin 12) (s : State) : Host.Outcome State Fault Refusal :=
  .next (if isLink n port.val && decide (16 ≤ Tab.get 0 (s.router n).fails port.val) then
    let t := s.foldLink n port.val
    let t := t.modRouter n fun x => { x with links := Tab.mod 0 x.links port.val fun v => setBit v 31 true, fails := Tab.set 0 x.fails port.val 0 }
    { t with map := { t.map with waiting := addOnce t.map.waiting (MapItem.deadLink n port.val) } } else s)

/-- LINK_LOCK_LOSS (R266): the link's receiver loses lock. -/
def execLinkLockLoss (n : Node) (port : Fin 12) (s : State) : Host.Outcome State Fault Refusal :=
  .next (if isLink n port.val then s.modRouter n fun x => x.foldHw port.val else s)

/-- LINK_IDLE_TIMEOUT (R266): neither a valid flit nor an idle for 500 ns. -/
def execLinkIdleTimeout (n : Node) (port : Fin 12) (s : State) : Host.Outcome State Fault Refusal :=
  .next (if isLink n port.val then s.modRouter n fun x => x.foldHw port.val else s)

/-! ### Combine entries (R264, R265) -/

/-- The ACK that a combine entry sends: to the multicast's sender from the root (R265). -/
def combineAck (e : Combine) (root : BitVec 15) (st : BitVec 4) : Packet :=
  { Packet.empty with opc := 4, sclass := 4, seq := e.seq, stream := e.stream, src := root, status := st,
                      aux := BitVec.ofNat 48 (2 ^ 32 + min 32767 e.delivered * 2 ^ 15 + min 32767 e.pruned), didx := didxOf e.src }

/-- The node id of a node that answers for itself. -/
def nodeSrc : Node → BitVec 15
  | .sett i => srcSett i.val
  | .sump k => srcSump k.val
  | .gal g => srcGal g.val 0

/-- The router takes a combine entry; the high-water mark follows (RTR_MC). -/
def Router.spawn (x : Router) (e : Combine) : Router :=
  let n := x.combine.length + 1
  { x with combine := x.combine ++ [e], mc := setFld x.mc 14 8 (max (fld x.mc 14 8) n) }

/-- RTR_MC as it reads. -/
def Router.mcImage (x : Router) : BitVec 32 := setFld x.mc 6 0 x.combine.length

/-- Whether an entry belongs to a multicast. -/
def Combine.of (e : Combine) (src : BitVec 15) (stream : BitVec 8) (seq : BitVec 16) : Bool :=
  e.src = src && e.stream = stream && e.seq = seq

/-- The nodes that wait for branches of a multicast and stand above node n: the column router of n's column in the root's row, then the
root. -/
def upstream (root n : Node) : List Node :=
  match root, n with
  | .sett a, .sett b =>
    let col := siteNode (a.val / 17) (b.val % 17)
    if n = root then [] else if n = col || col = root then [root] else [col, root]
  | .sump k, .sett b =>
    let col := siteNode (k.val % 16) (b.val % 17)
    if n = col then [root] else [col, root]
  | _, _ => []

/-- A finished entry of node n answers upstream: the next waiting entry counts it, and the root's entry answers the sender. -/
def State.answerUp (s : State) (root : Node) : Nat → Node → Combine → BitVec 4 → State
  | 0, _, _, _ => s
  | fuel + 1, n, e, st =>
    if n = root then s.send [combineAck e (nodeSrc root) st]
    else match (upstream root n).find? (fun m => (s.router m).combine.any fun x => x.of e.src e.stream e.seq) with
      | none => s
      | some m =>
        match (s.router m).combine.find? (fun x => x.of e.src e.stream e.seq) with
        | none => s
        | some x =>
          let y := { x with waiting := x.waiting - 1, delivered := x.delivered + e.delivered, pruned := x.pruned + e.pruned,
                            status := firstBad x.status st }
          if y.waiting = 0 then
            (s.modRouter m fun r => { r with combine := r.combine.erase x }).answerUp root fuel m y y.status
          else s.modRouter m fun r => { r with combine := r.combine.map fun z => if z = x then y else z }

/-- The root of a multicast, as a node. -/
def rootNode (root : Nat) : Node :=
  if root < 256 then .gal 0 else if root < 288 then sumpNode (root - 256) else .sett (Fin.ofNat 272 (root - 320))

/-- WAIT_US of RTR_MC in TCLK cycles; 0 acts as 1. -/
def Router.waitNs (x : Router) : Nat := max 1 (fld x.mc 31 16) * 1000

/-- The root that a node's combine entry answers to: a node's own multicasts are rooted at it; a column router's root lies in its row. -/
def State.rootOf (s : State) (n : Node) (e : Combine) : Node :=
  match n with
  | .sett i =>
    let row := (List.range 17).map (siteNode (i.val / 17)) ++ [sumpNode (i.val / 17), sumpNode (16 + i.val / 17)]
    (row.find? fun m => m ≠ n && (s.router m).combine.any fun x => x.of e.src e.stream e.seq).getD n
  | _ => n

/-- COMBINE_TIMEOUT (R265): entries older than WAIT_US send what they have, with TIMEOUT. -/
def execCombineTimeout (n : Node) (dt : Nat) (s : State) : Host.Outcome State Fault Refusal :=
  let t := s.pass dt
  let late := (t.router n).combine.filter fun e => e.since + (t.router n).waitNs < t.tclk
  .next (late.foldl (fun u e =>
    let root := u.rootOf n e
    (u.modRouter n fun x => { x with combine := x.combine.erase e }).answerUp root 3 n e stTimeout) t)

/-! ### The drain (R259 to R261, R268) -/

/-- GAL_DRAIN's STATE set. -/
def Drain.setState (d : Drain) (v : Nat) : Drain := { d with reg := setFld d.reg 63 61 v }

/-- The classes that the drain holds: all four with FOLD (R259). -/
def Drain.classes (d : Drain) : Nat := if bit d.reg 43 then 15 else fld d.reg 51 48

/-- A write of GAL_DRAIN: the fields are written, and START starts a drain unless one is under way (R259). -/
def Drain.write (d : Drain) (v : BitVec 64) : Drain :=
  let e := { d with reg := setFld (setFld d.reg 51 43 (fld v 51 43)) 31 0 (fld v 31 0) }
  if bit v 42 && !d.busy then { e.setState 1 with steps := 0, empty := 0 } else e

/-- DRAIN_START (R259, R260). -/
def execDrainStart (v : BitVec 64) (s : State) : Host.Outcome State Fault Refusal :=
  .next (({ s with drain := s.drain.write v }).drainEdge s.drain.state)

/-- Whether the held classes are empty in the whole fabric: the census (R260); what is kept back at a source is not counted. -/
def State.census (s : State) : Bool := s.flight.all fun k => !s.drain.classes.testBit k.tc.toNat

/-- Whether every live island has applied the drain's FLIP and FOLD (R354). -/
def State.allApplied (s : State) : Bool := allNodes.all fun n => !(s.island n).live || (s.island n).applied

/-- The drain commands that wait are answered with the report (R330, R261). -/
def State.endDrain (s : State) (status : Nat) : State :=
  let cs := s.drain.cmds
  cs.foldl (fun t c => t.complete c { cmdAnswer c status with dataA := s.drain.rpt })
    { s with drain := { s.drain with cmds := [] } }

/-- One beacon of the drain at G0 (R260, R354): accepted, held, two empty censuses, switched until every island has applied, resumed. -/
def State.drainBeacon (s : State) : State :=
  let d := s.drain
  match d.state with
  | 1 =>
    if d.steps = 0 then (if s.ledger.state = .idle then { s with drain := { d with steps := 1 } } else s)
    else ({ s with drain := { d.setState 2 with heldAt := s.tclk, empty := 0, steps := 2 } }).applyDrain (.gal 0) d.classes 0 false
  | 2 =>
    let n := if s.census then d.empty + 1 else 0
    if 2 ≤ n then { s with drain := { d.setState 3 with empty := n, steps := 3 } } else { s with drain := { d with empty := n } }
  | 3 =>
    let flip := fld d.reg 47 44 &&& d.classes
    let fold := bit d.reg 43
    if d.steps = 3 then ({ s with drain := { d with steps := 4 } }).applyDrain (.gal 0) d.classes flip fold
    else if (flip = 0 && !fold) || s.allApplied then
      let t := { s with drain := { d.setState 4 with rpt := setFld d.rpt 31 0 (s.tclk - d.heldAt), steps := 5 } }
      (t.applyDrain (.gal 0) 0 0 false).endDrain 0
    else s
  | _ => s.applyDrain (.gal 0) 0 0 false

/-- BEACON (R350, R355, R260): G0's counter reaches a multiple of 1,024; a requested time step applies, and the drain goes on. -/
def execBeacon (dt : Nat) (s : State) : Host.Outcome State Fault Refusal :=
  let t := s.pass dt
  .next (if ¬ (t.island (.gal 0)).live ∨ t.g0Time.toNat % 1024 ≠ 0 then t else
    t.stepTime.drainBeacon.drainEdge t.drain.state)

/-- DRAIN_LIMIT (R261): LIMIT_US after the hold the drain ends without switching anything. -/
def execDrainLimit (dt : Nat) (s : State) : Host.Outcome State Fault Refusal :=
  let t := s.pass dt
  .next (if t.drain.state = 2 ∧ t.drain.heldAt + fld t.drain.reg 31 0 * 1000 ≤ t.tclk then
    (({ t with drain := t.drain.setState 5 }).endDrain 0x17).drainEdge t.drain.state else t)

end Sys2Proof.Machine
end

