-- ==== Sys2Proof/Machine/Power.lean ====
section
/-! DEFINITION. Power delivery: e-fuses, connectors, the cap, phases and regulators, turning meadows on and off, gating (R362 to R381). Powers
in operands and registers of setts are in 0.1 W, those of PWR_PANEL in 10 W. -/

namespace Sys2Proof.Machine

/-! ### Meadows and the panel's state -/

/-- PWR_MEADOW_m. -/
def State.meadow (s : State) (m : Nat) : BitVec 64 := Tab.get 0 s.power.meadow m

/-- STATE of PWR_MEADOW_m: 0 DARK, 1 DEFERRED, 2 TURNING_ON, 3 ON, 4 TURNING_OFF, 5 TRIPPED, 6 LOCKED. -/
def State.meadowState (s : State) (m : Nat) : Nat := fld (s.meadow m) 63 60

/-- The state with PWR_MEADOW_m changed. -/
def State.modMeadow (s : State) (m : Nat) (f : BitVec 64 → BitVec 64) : State :=
  { s with power := { s.power with meadow := Tab.mod 0 s.power.meadow m f } }

/-- The state with STATE of PWR_MEADOW_m set. -/
def State.setMeadow (s : State) (m v : Nat) : State := s.modMeadow m fun x => setFld x 63 60 v

/-- Whether a meadow counts as on: ON or TURNING_OFF (R381). -/
def State.meadowOn (s : State) (m : Nat) : Bool := s.meadowState m == 3 || s.meadowState m == 4

/-- The panel's power state (R381): 0 OFF, 1 STANDBY, 2 PARTIAL, 3 ON. -/
def State.powerState (s : State) : Nat :=
  let n := ((List.range 8).filter s.meadowOn).length
  if !s.pins.rimGood then 0 else if n = 0 then 1 else if n = 8 then 3 else 2

/-- The sites of a meadow. -/
def sitesOf (m : Nat) : List Nat := List.range' (34 * m) 34

/-- The connectors of a region: four for each meadow, the last four for the rim (R362). -/
def feedsOf (region : Nat) : List Nat := List.range' (4 * region) 4

/-- PWR_FEED_n. -/
def State.feed (s : State) (n : Nat) : BitVec 64 := Tab.get 0 s.power.feed n

/-- The state with PWR_FEED_n changed. -/
def State.modFeed (s : State) (n : Nat) (f : BitVec 64 → BitVec 64) : State :=
  { s with power := { s.power with feed := Tab.mod 0 s.power.feed n f } }

/-- The connectors of a region that are not counted as open. -/
def State.liveFeeds (s : State) (region : Nat) : List Nat := (feedsOf region).filter fun n => !bit (s.feed n) 61

/-- A region's current limit in 0.1 A: 80 A for every live connector, and no more than the safe current of a capped one for each (R367, R369;
that connectors of a plane share its current evenly is DEDUCED). -/
def State.regionLimit (s : State) (region : Nat) : Nat :=
  let l := s.liveFeeds region
  let each := l.foldl (fun a n => if bit (s.feed n) 62 then min a (Tab.get 8000 s.power.safeCa n / 10) else a) 800
  l.length * each

/-- A cause bit of GAL_ALERT is set (R471). -/
def State.alertBit (s : State) (n : Nat) : State := { s with alert := setBit s.alert n true }

/-! ### Jobs of MEADOW_POWER (R330, R377, R378) -/

/-- Whether a meadow of an on-job is still being worked on. -/
def State.meadowBusy (s : State) (m : Nat) : Bool :=
  s.power.requests.any (fun r => r.meadow = m) || s.meadowState m == 2 || s.power.tests.any (fun e => e.1 = m)
    || s.map.waiting.contains (MapItem.meadowLit m)

/-- Whether a meadow of an off-job is still on or its darkness still waits for the map. -/
def State.meadowLeaving (s : State) (m : Nat) : Bool := s.power.turnOff.contains m || s.map.waiting.contains (MapItem.meadowDark m)

/-- The jobs that have nothing left to do complete, with the new GAL_SHAPE_GEN and the meadows left dark (R330). -/
def State.finishMeadowJobs (s : State) : State :=
  let left := fun (j : MeadowJob) => j.todo.filter fun m => if j.on then s.meadowBusy m else s.meadowLeaving m
  let jobs := s.power.jobs.map fun j => { j with todo := left j }
  let done := jobs.filter fun j => j.todo.isEmpty
  let t := { s with power := { s.power with jobs := jobs.filter fun j => !j.todo.isEmpty } }
  done.foldl (fun t j => t.complete j.cmd { cmdAnswer j.cmd 0 with result := s.map.gen, dataA := if j.on then j.dark.setWidth 64 else 0 }) t

/-- The meadow is noted as left dark in every on-job that names it. -/
def State.jobDark (s : State) (m : Nat) : State :=
  { s with power := { s.power with
      jobs := s.power.jobs.map (fun j => if j.on && j.todo.contains m then { j with dark := j.dark ||| BitVec.ofNat 8 (2 ^ m) } else j) } }

/-- The waiting map changes apply if no pass is under way, and jobs that waited for them complete (R20, R330). -/
def State.mapIfIdle (s : State) : State := (if s.ledger.state = .idle then s.changeMap else s).finishMeadowJobs

/-- MAP_CHANGE (R20): never while a pass is under way. -/
def execMapChange (s : State) : Host.Outcome State Fault Refusal := .next s.mapIfIdle

/-! ### A meadow goes dark (R14, R266, R366) -/

/-- What stays of a sett without power: the suspect marks of its sensors and its last test report (R385, SETT_BIST). -/
def Sett.unpowered (x : Sett) (part : BitVec 2) : Sett :=
  { Sett.reset part with temps := (x.temps.map fun e => (e.1, e.2 &&& 0x40000000)).filter (fun e => decide (e.2 ≠ 0)), bist := x.bist }

/-- Whether a node lies in a meadow. -/
def inMeadow (m : Nat) : Node → Bool
  | .sett i => meadowOf i.val == m
  | _ => false

/-- Whether a packet is bound for, or comes from, a meadow. -/
def State.packetIn (s : State) (m : Nat) (k : Packet) : Bool :=
  inMeadow m (srcNode s.siteOfSett k.src)
    || (match s.destOf k.didx.toNat with | some d => inMeadow m d.node | none => false)

/-- The routers next to a dark meadow fold in hardware (R266). -/
def State.foldAround (s : State) (m : Nat) : State :=
  (allNodes.filter fun n => !inMeadow m n).foldl (fun t n =>
    (List.range 12).foldl (fun t p => match farEnd n p with
      | some (x, _) => if inMeadow m x && !(t.router n).folded p then t.modRouter n fun r => r.foldHw p else t
      | none => t) t) s

/-- A meadow loses its power: cores, setts and what is on its way there are lost. -/
def State.meadowOff (s : State) (m : Nat) : State :=
  let cores := s.cores.filter fun e => meadowOf (siteOf e.1) ≠ m
  let t := (sitesOf m).foldl (fun t i => t.modSett i fun x => x.unpowered s.nv.part) s
  { t with cores := cores, flight := t.flight.filter (fun k => !s.packetIn m k),
           mesh := t.mesh.filter (fun x => meadowOf (siteOf x.src) ≠ m && (match s.coreAt x.dest.toNat with
             | some p => meadowOf (siteOf p) ≠ m
             | none => true)),
           drain := { t.drain with kept := t.drain.kept.filter fun k => !s.packetIn m k },
           fw := { t.fw with sites := t.fw.sites.filter fun i => meadowOf i ≠ m },
           power := { t.power with requests := t.power.requests.filter (fun r => r.meadow ≠ m), phase := Tab.erase t.power.phase m,
                                   turnOff := t.power.turnOff.filter (fun k => k ≠ m), tests := t.power.tests.filter fun e => e.1 ≠ m } }

/-- The contexts with a placement in the rows of a meadow. -/
def State.ctxsIn (s : State) (m : Nat) : List Nat :=
  ((s.dir.filter fun e => e.2.valid && (bitsOf 256 (e.2.setts ||| e.2.meshSet).toNat).any fun k => k / 32 = m).map fun e => e.2.ctx.toNat).dedup

/-- The map loses a meadow at the next change, if it has it. -/
def State.loseMeadow (s : State) (m : Nat) : State :=
  { s with map := { s.map with waiting := addOnce (s.map.waiting.erase (MapItem.meadowLit m)) (MapItem.meadowDark m) } }

/-- The e-fuses of a meadow open on a cause (R365, R366): a second SHORT within one hour locks it. -/
def State.tripMeadow (s : State) (m cause : Nat) : State :=
  if s.meadowState m ≤ 1 || 5 ≤ s.meadowState m then s
  else
    let again := cause = 1 && (match (Tab.get 0 s.power.shortAt m) with
      | 0 => false
      | a + 1 => s.tclk ≤ a + 3600000000000)
    let ctxs := s.ctxsIn m
    let lit := s.meadowOn m
    let t := (s.jobDark m).modMeadow m fun x =>
      setFld (satFld (setFld (setFld x 63 60 (if again then 6 else 5)) 47 32 0) 15 8 1) 3 0 cause
    let t := if cause = 1 then { t with power := { t.power with shortAt := Tab.set 0 t.power.shortAt m (s.tclk + 1) } } else t
    let t := ((if lit then t.loseMeadow m else t).meadowOff m).foldAround m
    let t := (if cause = 6 then t else t.alertBit 4).edge 0 595
    let t := if t.ledger.state = .idle || !lit then t else t.recordAbort abMeadow []
    let e := event 0x88 m s.g0Time.toNat
    ((t.panelEvent e).ctxEvents (fun n => ctxs.contains n) e).finishMeadowJobs

/-- The panel resets (R395, R396): what is non-volatile stays, and bring-up begins when `go`; the commands that wait and the numbering of free
values are the model's own and go on. -/
def State.resetPanel (s : State) (rim pin go : Bool) : State :=
  let t := State.resetWith { s.nv with lastReady := s.nv.lastReady && !s.boot.running }
  { t with pending := s.pending, free := s.free, pins := { panelResetN := pin, rimGood := rim, thermtrip := false },
           boot := { t.boot with running := go } }

/-- Loss of rim power: the panel is OFF and resets (R381, R395). -/
def State.rimLoss (s : State) : State := s.resetPanel false s.pins.panelResetN false

/-- RIM_POWER_LOSS (R381, R395). -/
def execRimPowerLoss (s : State) : Host.Outcome State Fault Refusal := .next s.rimLoss

/-- EFUSE_TRIP (R365, R366): a meadow, or region 8, the rim. -/
def execEfuseTrip (region : Fin 9) (cause : BitVec 4) (s : State) : Host.Outcome State Fault Refusal :=
  .next (if cause = 0 ∨ 6 < cause.toNat then s else if region.val = 8 then s.rimLoss else s.tripMeadow region.val cause.toNat)

/-! ### Connectors (R367 to R369) -/

/-- The meadow is to be switched off by the planned sequence (R268, R379). -/
def State.planOff (s : State) (m : Nat) : State :=
  if s.meadowState m = 3 then { s with power := { s.power with turnOff := addOnce s.power.turnOff m } } else s

/-- CONNECTOR_OPEN (R367). -/
def execConnectorOpen (n : Fin 36) (s : State) : Host.Outcome State Fault Refusal :=
  let region := n.val / 4
  .next (if bit (s.feed n.val) 61 then s else
    let t := s.modFeed n.val fun x => setBit x 61 true
    let t := (t.alertBit 5).panelEvent { event 0x84 n.val 0 with dataA := 0xFFFFFFFFFFFFFFFF }
    let t := if region < 8 then t.modMeadow region fun x => setFld x 31 16 (t.regionLimit region) else t
    if 1 < (t.liveFeeds region).length then t
    else if region = 8 then t.rimLoss
    else
      let u := if t.ledger.state = .idle || !t.meadowOn region then t else t.recordAbort abMeadow []
      u.planOff region)

/-- The integer square root of a number below 2^64. -/
def sqrtN (x : Nat) : Nat := (List.range 32).foldl (fun r i => if (r + 2 ^ (31 - i)) * (r + 2 ^ (31 - i)) ≤ x then r + 2 ^ (31 - i) else r) 0

/-- A number inserted in rising order, repeats kept. -/
def insSorted : List Nat → Nat → List Nat
  | [], x => [x]
  | y :: t, x => if x ≤ y then x :: y :: t else y :: insSorted t x

/-- The median of a list: the mean of the two middle entries when their number is even. -/
def median (l : List Nat) : Nat :=
  let o := l.foldl insSorted []
  if o.length % 2 = 1 then o.getD (o.length / 2) 0 else (o.getD (o.length / 2 - 1) 0 + o.getD (o.length / 2) 0) / 2

/-- The acts of R369 on a ratio × 1,000 at a connector. -/
def State.ratioActs (s : State) (n est ratio ca : Nat) : State :=
  let last := Tab.get 0 s.power.lastEst n
  let lastCa := Tab.get 0 s.power.lastCur n
  let step := last ≠ 0 && last + 500 < ratio && 10 * (max ca lastCa - min ca lastCa) < lastCa
  let hi := if ratio ≤ 1500 then 0 else if Tab.get 0 s.power.highAt n = 0 then s.tclk + 1 else Tab.get 0 s.power.highAt n
  let t := { s with power := { s.power with lastEst := Tab.set 0 s.power.lastEst n ratio, lastCur := Tab.set 0 s.power.lastCur n ca,
                                            highAt := Tab.set 0 s.power.highAt n hi } }
  let t := t.modFeed n fun x => setFld x 47 32 (min 65535 ratio)
  let t := if hi ≠ 0 && hi + 10000000000 ≤ s.tclk + 1 && !bit (t.feed n) 63 then
      ((t.modFeed n fun x => setBit x 63 true).alertBit 5).panelEvent (event 0x84 n ratio)
    else t
  let t := if 3000 < ratio then
      let u := { t with power := { t.power with safeCa := Tab.set 8000 t.power.safeCa n (sqrtN (64000000 * fld (t.feed n) 31 16 / max 1 est)) } }
      let u := u.modFeed n fun x => setBit x 62 true
      if n / 4 < 8 then u.modMeadow (n / 4) fun x => setFld x 31 16 (u.regionLimit (n / 4)) else u
    else t
  if step then (if n / 4 = 8 then t.rimLoss else t.tripMeadow (n / 4) 5) else t

/-- CONNECTOR_ESTIMATE (R368, R369): one estimate every 10 ms, formed only above 20 A; 6,000 of them make the baseline. -/
def execConnectorEstimate (n : Fin 36) (microOhm : Nat) (centiAmp : BitVec 16) (dt : Nat) (s : State) : Host.Outcome State Fault Refusal :=
  let t := (s.pass dt).modFeed n.val fun x => setFld x 15 0 centiAmp.toNat
  let base := fld (t.feed n.val) 31 16
  .next (if centiAmp.toNat ≤ 2000 then t
    else if base = 0 then
      let l := Tab.get [] t.power.feedSum n.val ++ [microOhm]
      if l.length < 6000 then { t with power := { t.power with feedSum := Tab.set [] t.power.feedSum n.val l } }
      else
        ({ t with power := { t.power with feedSum := Tab.erase t.power.feedSum n.val } }).modFeed n.val fun x => setFld x 31 16 (min 65535 (median l))
    else t.ratioActs n.val microOhm (microOhm * 1000 / base) centiAmp.toNat)

/-! ### Dividing the cap (R370 to R373) -/

/-- The phase maximum of a sett for its live phases, in 0.1 W (R374). -/
def phaseMax (live : Nat) : Nat := if 6 ≤ live then 1100 else (1100 * live + 3) / 6

/-- Live phases of a sett. -/
def Sett.phases (x : Sett) : Nat := popc 8 (fld x.pwrStat 47 40)

/-- The most that a sett may draw: 4 W when all its cores are gated (R371). -/
def Sett.maxPower (x : Sett) : Nat := if x.gate = 0xFFFFFFFFFFFFFFFF then min 40 (phaseMax x.phases) else phaseMax x.phases

/-- The largest level L with the sum of min(demand, L) within a budget, 65,535 when nothing binds (R371). -/
def levelOf (demands : List Nat) (budget : Nat) : Nat :=
  (List.range 16).foldl (fun l i =>
    let x := l + 2 ^ (15 - i)
    if sumN (demands.map fun d => min d x) ≤ budget then x else l) 0

/-- The sites that take part in the allocation: powered and not dead. -/
def State.liveSites (s : State) : List Nat :=
  (List.range 272).filter fun i => s.meadowOn (meadowOf i) && !s.nv.deadSites.contains i && fld (s.sett i).pwrStat 23 20 ≠ 3

/-- The grants in progress, in 10 W (R376). -/
def State.grants (s : State) : Nat := sumN ((List.range 8).map fun m => if s.meadowState m = 2 then fld (s.meadow m) 47 32 else 0)

/-- CAP and RESERVE of PWR_PANEL, in 10 W. -/
def State.capPanel (s : State) : Nat := fld s.power.panel 47 32

/-- RESERVE of PWR_PANEL. -/
def State.reserve (s : State) : Nat := fld s.power.panel 15 8

/-- The limit of a region's sites in 0.1 W: its current limit at the measured plane voltage, less 5 % (R371). -/
def State.regionPower (s : State) (m : Nat) : Nat := s.regionLimit m * Tab.get 12000 s.power.planeMv m * 95 / 100000

/-- The allocation of R371: a level for the panel from the budget, and in a region whose current limit binds a lower one for its sites. -/
def State.allocate (s : State) (powers : Nat → Nat) (rim : Nat) : State :=
  let live := s.liveSites
  let demand := fun i => min (s.sett i).maxPower (powers i + 100)
  let used := rim + 100 * s.reserve + 100 * s.grants
  let l := levelOf (live.map demand) (100 * s.capPanel - used)
  let lr := (List.range 8).map fun m => levelOf ((live.filter fun i => meadowOf i = m).map demand) (s.regionPower m)
  live.foldl (fun t i => t.modSett i fun x =>
    { x with cap := setFld x.cap 15 0 (min (demand i) (min l (lr.getD (meadowOf i) 0))) }) s

/-- ALLOCATION_TICK (R370, R371): the 1 ms averages of the sites and of the rim in 0.1 W, the plane voltages in mV. -/
def execAllocationTick (power : List (Site × Nat)) (rim : Nat) (planeMilliVolt : List (Fin 9 × Nat)) (dt : Nat) (s : State) :
    Host.Outcome State Fault Refusal :=
  let t := s.pass dt
  let total := rim + sumN (power.map Prod.snd)
  let mv := planeMilliVolt.foldl (fun a e => Tab.set 12000 a e.1.val e.2) t.power.planeMv
  let t := { t with power := { t.power with planeMv := mv,
                                            panel := setFld (setFld t.power.panel 63 48 (min 65535 (total / 100))) 31 16 (min 65535 (rim / 100)) } }
  .next (t.allocate (fun i => ((power.find? fun e => e.1.val = i).map Prod.snd).getD 0) rim)

/-- CAP_COMPARE (R372): the 100 µs average of a sett in 0.1 W, and whether it has stayed below 95 % of CAP for 1 ms. -/
def execCapCompare (site : Site) (power : BitVec 16) (below1ms : Bool) (s : State) : Host.Outcome State Fault Refusal :=
  .next (s.modSett site.val fun x =>
    let y := { x with pwrStat := setFld x.pwrStat 63 48 power.toNat }
    let pwr := fld y.clk.aclk 38 32
    if min (fld y.cap 15 0) (phaseMax y.phases) < power.toNat then y.setPwr (pwr - 1)
    else if below1ms && pwr < min (fld y.cap 22 16) (fld y.clk.aclk 54 48) then y.setPwr (pwr + 1)
    else y)

/-- PANEL_CLAMP (R373): the panel's 100 µs average input in 0.1 W. -/
def execPanelClamp (power : Nat) (s : State) : Host.Outcome State Fault Refusal :=
  .next (if power ≤ 100 * s.capPanel then s else
    let t := ({ s with power := { s.power with panel := satFld s.power.panel 7 0 1 } }).edge 0 596
    s.liveSites.foldl (fun t i => t.modSett i fun x => x.setPwr (fld x.clk.aclk 38 32 - 8)) t)

/-! ### Phases and regulators (R374, R375) -/

/-- The site is DEAD (PWR_SETT_STATUS.STATE 3). -/
def State.sittDead (s : State) (i : Nat) : State := (s.modSett i fun x => { x with pwrStat := setFld x.pwrStat 23 20 3 }).siteDies i

/-- PHASE_FAIL (R374). -/
def execPhaseFail (site : Site) (phase : Fin 8) (s : State) : Host.Outcome State Fault Refusal :=
  .next (if ¬ bit (s.sett site.val).pwrStat (40 + phase.val) then s else
    let t := s.modSett site.val fun x =>
      let y := { x with pwrStat := setBit x.pwrStat (40 + phase.val) false }
      { y with cap := setFld y.cap 15 0 (min (fld y.cap 15 0) (phaseMax y.phases)) }
    if (t.sett site.val).phases = 0 then t.sittDead site.val else t)

/-- The rows that failed IVRs leave dark: those with a failed neighbour (R375). -/
def darkRows (fails : Nat) : List Nat :=
  (bitsOf 8 fails).filter fun i => (0 < i && fails.testBit (i - 1)) || (i < 7 && fails.testBit (i + 1))

/-- The ties that failed IVRs close: those of every failed row that is not dark, toward rows that are not dark (R375). -/
def tiesOf (fails : Nat) : Nat :=
  let dark := darkRows fails
  maskOf (((bitsOf 8 fails).filter fun i => !dark.contains i).flatMap fun i =>
    (if 0 < i && !dark.contains (i - 1) then [i - 1] else []) ++ (if i < 7 && !dark.contains (i + 1) then [i] else []))

/-- IVR_FAIL (R375): `tieMax` is the ceiling that the sett's fused power table gives for the joined rows. -/
def execIvrFail (site : Site) (ivr : Fin 9) (tieMax : BitVec 7) (s : State) : Host.Outcome State Fault Refusal :=
  let i := site.val
  .next (if bit (s.sett i).pwrStat (31 + ivr.val) then s
    else
      let t := s.modSett i fun x => { x with pwrStat := setBit x.pwrStat (31 + ivr.val) true }
      if ivr.val = 8 then t.sittDead i
      else
        let fails := fld (t.sett i).pwrStat 38 31
        let old := darkRows (fld (s.sett i).pwrStat 38 31)
        let new := (darkRows fails).filter fun r => !old.contains r
        let ties := tiesOf fails
        let t := t.modSett i fun x =>
          ({ x with pwrStat := setFld x.pwrStat 30 24 ties, cap := setFld x.cap 22 16 (if ties = 0 then 127 else tieMax.toNat) } : Sett).retarget
        let ps := (s.coresOfSite i).filter fun p => new.contains (rowOf p)
        let t := ps.foldl (fun t p => t.modCore p fun c => { c with fenced := true }) t
        let t := { t with map := { t.map with waiting := new.foldl (fun l r => addOnce l (MapItem.darkRow i r)) t.map.waiting } }
        if new.isEmpty || t.ledger.state = .idle then t else t.recordAbort abCore ps)

/-! ### Turning a meadow on (R376 to R378) -/

/-- Whether nothing forbids in-rush: no coolant stop, no hardware trip (R393, R394). -/
def State.inrushAllowed (s : State) : Bool := !bit s.thermal.status 62 && !bit s.thermal.status 63

/-- The grant for a panel average in 0.1 W: at least 400 W, at most 1,600 W (R376). -/
def State.grantFor (s : State) (power : Nat) : Nat := min 16000 (100 * s.capPanel - power - 100 * s.reserve - 100 * s.grants)

/-- The band of a grant in 0.1 W (R377). -/
def bandOf (g : Nat) : Nat := if 16000 ≤ g then 1 else if 8000 ≤ g then 2 else 3

/-- The request of a meadow is deferred: POWER_DEFERRED is posted once for its command (R378). -/
def State.deferHead (s : State) (r : InrushReq) : State :=
  if r.deferred then s
  else
    let t := (s.setMeadow r.meadow 1)
    let mark := fun (x : InrushReq) => if x = r then { x with deferred := true } else x
    let first := match r.cmd with
      | some c => !(s.power.requests.any fun x => x.cmd = some c && x.deferred)
      | none => false
    let t := { t with power := { t.power with requests := t.power.requests.map mark } }
    match r.cmd with
    | some c =>
      let mask := maskOf ((s.power.requests.filter fun x => x.cmd = some c).map InrushReq.meadow)
      if first then t.panelEvent (event 0x83 mask c.tag.toNat) else t
    | none => t

/-- Whether a firmware update is under way (FETCH to HOLD, or its activation). -/
def State.fwBusy (s : State) : Bool := s.fw.cmd.isSome

/-- The oldest request is granted its in-rush headroom, or deferred (R376, R378). -/
def State.tryGrant (s : State) (power : Nat) : State :=
  match s.power.requests with
  | [] => s
  | r :: rest =>
    let g := s.grantFor power
    if r.cmd.isSome && s.fwBusy && s.fw.startAt ≤ r.since then s
    else if s.inrushAllowed && 4000 ≤ g then
      let t := s.modMeadow r.meadow fun x => setFld (setFld (setFld x 63 60 2) 59 58 (bandOf g)) 47 32 (g / 100)
      { t with power := { t.power with requests := rest, phase := Tab.set 0 t.power.phase r.meadow 1 } }
    else s.deferHead r

/-- INRUSH_GRANT (R376): the panel's 1 ms average in 0.1 W. -/
def execInrushGrant (power : Nat) (s : State) : Host.Outcome State Fault Refusal := .next (s.tryGrant power)

/-- INRUSH_REEVALUATE (R378): a deferred request is evaluated again. -/
def execInrushReevaluate (power : Nat) (dt : Nat) (s : State) : Host.Outcome State Fault Refusal :=
  let t := s.pass dt
  .next (if t.power.requests.head?.any InrushReq.deferred then t.tryGrant power else t)

/-- Phase C of a site: uncore rails, router, and its clock generator locks; a dead site stays DEAD. -/
def State.uncoreUp (s : State) (i : Nat) : State :=
  if s.nv.deadSites.contains i then s.modSett i fun x => { x with pwrStat := setFld x.pwrStat 23 20 3 }
  else
    let input := ((refList (s.refCfg (settNode i))).head?).getD 15
    s.modSett i fun x =>
      let k := { x.clk with status := setFld x.clk.status 27 24 input }
      { x with pwrStat := setFld (setFld x.pwrStat 47 40 0xFF) 23 20 1, clk := (k.setState 1).lock s.tclk true }

/-- The meadow is powered: the grant is released (R377). -/
def State.meadowUp (s : State) (m : Nat) : State :=
  let t := (sitesOf m).foldl (fun t i => t.modSett i fun x =>
    if fld x.pwrStat 23 20 = 1 then { x with pwrStat := setFld x.pwrStat 23 20 2 } else x) s
  let t := t.modMeadow m fun x => setFld (setFld (setFld x 63 60 3) 47 32 0) 31 16 (s.regionLimit m)
  { t with power := { t.power with phase := Tab.erase t.power.phase m,
                                   tests := if fld s.boot.status 63 60 = 6 then t.power.tests ++ [(m, 2)] else t.power.tests } }

/-- TURN_ON_PHASE (R377): phases A to E in order. -/
def execTurnOnPhase (m : Meadow) (s : State) : Host.Outcome State Fault Refusal :=
  let p := Tab.get 0 s.power.phase m.val
  let next := fun (t : State) => { t with power := { t.power with phase := Tab.set 0 t.power.phase m.val (p + 1) } }
  .next (if s.meadowState m.val ≠ 2 ∨ p = 0 then s
    else if p = 3 then next ((sitesOf m.val).foldl State.uncoreUp s)
    else if p < 5 then next s
    else s.meadowUp m.val)

/-! ### Turning off and gating (R268, R379, R380) -/

/-- The meadows of the planned power-down open their e-fuses, with no cause recorded (R379). -/
def State.finishOff (s : State) : State :=
  let ms := s.power.turnOff
  let t := ms.foldl (fun t m =>
    let u := t.modMeadow m fun x => setFld (satFld (setFld (setFld x 63 60 0) 47 32 0) 15 8 1) 3 0 0
    (u.loseMeadow m).meadowOff m) s
  ({ t with power := { t.power with turnOff := [], draining := false } }).mapIfIdle

/-- MEADOW_POWER_DOWN (R268, R379): with the ledger IDLE the drain is prepared and started; once it is DONE the meadows go dark. -/
def execMeadowPowerDown (s : State) : Host.Outcome State Fault Refusal :=
  let ms := s.power.turnOff
  .next (if ms.isEmpty ∨ ¬ (s.ledger.state = .idle) ∨ s.drain.busy then s
    else if s.power.draining ∧ s.drain.state = 4 then s.finishOff
    else
      let t := ms.foldl (fun t m => t.setMeadow m 4) (s.stageTables ms allNodes)
      { t with drain := t.drain.write (setFld (0 : BitVec 64) 51 42 0x3FF ||| BitVec.ofNat 64 (fld t.drain.reg 31 0)),
               power := { t.power with draining := true } }.drainEdge s.drain.state)

/-- Whether any slot entry of a core's mesh banks is valid. -/
def Core.meshBusy (c : Core) : Bool := c.mesh.slots.any fun e => bit e.2 31

/-- A gated core loses the state of its logic; its memories stay (R380). -/
def Core.gated (c : Core) : Core := { c with seq := .reset, units := .reset, num := { ctrl := 0, status := 0, seed := 0, gens := [] } }

/-- A write of PWR_CORE_GATE: a core of the running pass, or with valid mesh slots, is not gated (R380). -/
def State.gateWrite (s : State) (i : Nat) (v : BitVec 64) : State :=
  let x := s.sett i
  let core := fun k => (s.settAt i).bind fun sid => s.coreAt (64 * sid + k)
  let refused := fun k => match core k with
    | some p => (s.ledger.state ≠ .idle && s.ledger.parts.contains p) || (s.core p).meshBusy
    | none => false
  let on := (bitsOf 64 v.toNat).filter fun k => !bit x.gate k && !refused k
  let kept := (bitsOf 64 v.toNat).filter fun k => bit x.gate k
  let gate := BitVec.ofNat 64 (maskOf (kept ++ on))
  let t := s.setSett i { x with gate := gate, coreReady := x.coreReady &&& ~~~gate }
  on.foldl (fun t k => match core k with
    | some p => t.modCore p Core.gated
    | none => t) t

/-- CORE_GATE (R380). -/
def execCoreGate (site : Site) (v : BitVec 64) (s : State) : Host.Outcome State Fault Refusal := .next (s.gateWrite site.val v)

end Sys2Proof.Machine
end

