-- ==== Sys2Proof/Machine/Thermal.lean ====
section
/-! DEFINITION. Coolant, sensors, the guard, the thermal manager and the hardware trip (R382 to R394). Temperatures of sensors are signed, in
1/16 °C; those of the coolant in 0.01 °C. -/

namespace Sys2Proof.Machine

/-! ### Coolant (R383, R390, R391, R393) -/

/-- The rated flow in mL/min. -/
def Thermal.rated (x : Thermal) : Nat := fld x.cfg 15 0 * 100

/-- A flow below STOP_PCT of the rated flow (R391). -/
def Thermal.stopFlow (x : Thermal) (flow : Nat) : Bool := flow * 100 < fld x.cfg 31 24 * x.rated

/-- Whether flow and inlet are within the rating (R382). -/
def Thermal.good (x : Thermal) (flow inlet : BitVec 16) : Bool := x.rated ≤ flow.toNat && inlet.toInt ≤ 3500

/-- When a condition began, brought up to date. -/
def sinceWhen (holds : Bool) (old : Option Nat) (now : Nat) : Option Nat := if holds then some (old.getD now) else none

/-- Whether the outlet has risen by more than RISE over any reading of the last 100 ms (R391). -/
def Thermal.rises (x : Thermal) (outlet : BitVec 16) : Bool :=
  x.outlets.any fun o => ((fld x.cfg 23 16 * 10 : Nat) : Int) < outlet.toInt - o.toInt

/-- A good read of inlet, outlet and flow (R383); FLOW_LOW clears after 10 s within the rating (R390). -/
def Thermal.read (x : Thermal) (inlet outlet flow : BitVec 16) (now : Nat) : Thermal :=
  let good := x.good flow inlet
  let goodAt := sinceWhen good x.goodAt now
  let clear := goodAt.any fun a => decide (a + 10000000000 ≤ now)
  { x with coolant := BitVec.ofNat 64 (flow.toNat * 2 ^ 48 + inlet.toNat * 2 ^ 32 + outlet.toNat * 2 ^ 16 + fld x.coolant 7 0),
           lowRun := if x.stopFlow flow.toNat then x.lowRun + 1 else 0, badRun := 0, outlets := (x.outlets ++ [outlet]).reverse.take 10 |>.reverse,
           slowAt := sinceWhen (!good) x.slowAt now, goodAt := goodAt, ratedAt := sinceWhen (decide (x.rated ≤ flow.toNat)) x.ratedAt now,
           status := if clear then setBit x.status 61 false else x.status }

/-- The on-commands that wait complete with NOT_PERMITTED, and their meadows stay dark (R393, R394). -/
def State.refuseWaiting (s : State) : State :=
  let cs := (s.power.requests.filterMap InrushReq.cmd).dedup
  let gone := s.power.requests.filter fun r => r.cmd.isSome
  let t := { s with power := { s.power with requests := s.power.requests.filter (fun r => r.cmd.isNone),
                                            jobs := s.power.jobs.filter fun j => !cs.contains j.cmd } }
  (gone.foldl (fun t r => if t.meadowState r.meadow = 1 then t.setMeadow r.meadow 0 else t) t).completeAll cs 5

/-- THERM = FLOOR at every sett that runs (R391). -/
def State.floorAll (s : State) : State :=
  (List.range 272).foldl (fun t i => if (t.sett i).clk.live then t.modSett i fun x => x.setTherm 8 else t) s

/-- The context of the pass that is launching or running. -/
def State.passCtx (s : State) : Option Nat :=
  if s.ledger.state = .launching ∨ s.ledger.state = .running then s.ledger.pass.map fun q => q.ctx.toNat else none

/-- COOLING_LOST is raised to the ledger and posted (R44, R335). -/
def State.coolingLost (s : State) : State :=
  let ctx := s.passCtx
  let e := event 0x87 0 s.g0Time.toNat
  let t := if s.ledger.state = .idle then s else s.recordAbort abCooling []
  (t.panelEvent e).ctxEvents (fun n => ctx == some n) e

/-- A coolant stop is declared (R391, R393). -/
def State.coolantStop (s : State) : State :=
  if bit s.thermal.status 62 then s
  else
    let x := { s.thermal with status := setBit s.thermal.status 62 true, lostAt := s.tclk }
    ((({ s with thermal := x }).alertBit 1).floorAll).coolingLost.refuseWaiting

/-- COOLANT_READ (R383, R391): inlet, outlet and flow, or a read that fails. -/
def execCoolantRead (r : Option (BitVec 16 × BitVec 16 × BitVec 16)) (dt : Nat) (s : State) : Host.Outcome State Fault Refusal :=
  let t := (s.pass dt).edge 0 598
  .next (match r with
    | some (inlet, outlet, flow) =>
      let stop := t.thermal.rises outlet
      let u := { t with thermal := t.thermal.read inlet outlet flow t.tclk }
      if stop || 6 ≤ u.thermal.lowRun then u.coolantStop else u
    | none =>
      let x := t.thermal
      let y := { x with coolant := satFld x.coolant 7 0 1, badRun := x.badRun + 1, lowRun := 0, outlets := x.outlets.drop 1 }
      if y.badRun = 5 then
        let z := { y with coolant := setBit y.coolant 15 true, ratedAt := none, goodAt := none }
        (({ t with thermal := z }).alertBit 3).panelEvent (event 0x86 0xFFFFFFFF 0)
      else { t with thermal := y })

/-- The FLOW_LOW event of the present readings (R390, R335). -/
def Thermal.flowEvent (x : Thermal) : EventRec :=
  event 0x86 (fld x.coolant 63 48) (wrapN 64 (sgn 16 (fld x.coolant 47 32) * 10))

/-- FLOW_LOW (R390): the condition has held for 1 s; the event repeats at most once every 10 s. -/
def execFlowLow (dt : Nat) (s : State) : Host.Outcome State Fault Refusal :=
  let t := s.pass dt
  let due := t.thermal.slowAt.any fun a => decide (a + 1000000000 ≤ t.tclk)
  let post := match t.thermal.flowEvAt with
    | some a => !bit t.thermal.status 61 || a + 10000000000 ≤ t.tclk
    | none => true
  .next (if !due then t else
    let u := ({ t with thermal := { t.thermal with status := setBit t.thermal.status 61 true,
                                                   flowEvAt := if post then some t.tclk else t.thermal.flowEvAt } }).alertBit 2
    if post then u.panelEvent u.thermal.flowEvent else u)

/-- COOL_LOST_CLEAR (R393): after 1 s at rated flow. -/
def execCoolLostClear (dt : Nat) (s : State) : Host.Outcome State Fault Refusal :=
  let t := s.pass dt
  let due := t.thermal.ratedAt.any fun a => decide (a + 1000000000 ≤ t.tclk)
  .next (if due then { t with thermal := { t.thermal with status := setBit t.thermal.status 62 false, lowRun := 0 } } else t)

/-! ### Sensors and the guard (R384, R385, R389) -/

/-- SETT_TEMP_k. -/
def Sett.temp (x : Sett) (k : Nat) : BitVec 32 := Tab.get 0 x.temps k

/-- A reading of a sensor as a number. -/
def Sett.reading (x : Sett) (k : Nat) : Int := sgn 16 (fld (x.temp k) 15 0)

/-- The sensors that are valid and not suspect (R385). -/
def Sett.governing (x : Sett) : List Nat := (List.range 16).filter fun k => bit (x.temp k) 31 && !bit (x.temp k) 30

/-- The hot spot: the highest governing reading, if there is one (R385). -/
def Sett.hotSpot (x : Sett) : Option Int :=
  match x.governing with
  | [] => none
  | k :: ks => some (ks.foldl (fun a j => max a (x.reading j)) (x.reading k))

/-- SETT_THERM_STATUS.SUSPECT and HOTSPOT brought up to date; without a governing sensor the hot spot takes the value `open`. -/
def Sett.retherm (x : Sett) (unknown : BitVec 16) : Sett :=
  let bad := (List.range 16).filter fun k => !bit (x.temp k) 31 || bit (x.temp k) 30
  let hot := match x.hotSpot with
    | some h => wrapN 16 h
    | none => unknown.toNat
  { x with therm := setFld (setFld x.therm 31 16 (maskOf bad)) 47 32 hot }

/-- A sample of sensor k enters the registers (R384). -/
def Sett.sample (x : Sett) (k : Nat) (temp : BitVec 16) : Sett :=
  let ok := decide (-640 ≤ temp.toInt) && decide (temp.toInt ≤ 2400)
  { x with temps := Tab.set 0 x.temps k (setBit (setFld (x.temp k) 15 0 temp.toNat) 31 ok) }

/-- How long the readings of a pair have differed by more than 6 °C (R385). -/
def Sett.comparePair (x : Sett) (p now : Nat) : Sett :=
  let both := x.governing.contains (2 * p) && x.governing.contains (2 * p + 1)
  let d := x.reading (2 * p) - x.reading (2 * p + 1)
  if both && (decide (96 < d) || decide (d < -96)) then
    (if Tab.get 0 x.disagree p = 0 then { x with disagree := Tab.set 0 x.disagree p (now + 1) } else x)
  else { x with disagree := Tab.set 0 x.disagree p 0 }

/-- The guard (R389): at 108 °C THERM goes to FLOOR; the time since every governing sensor reads below 100 °C is kept. -/
def Sett.guard (x : Sett) (now : Nat) : Sett :=
  let hot := x.governing.any fun k => decide (1728 ≤ x.reading k)
  let cool := x.governing.all fun k => decide (x.reading k < 1600)
  let y := if hot && !x.guardOn then ({ x with guardOn := true, therm := satFld x.therm 15 8 1 } : Sett) else x
  let y := if hot then y.setTherm 8 else y
  { y with coolAt := sinceWhen (y.guardOn && cool) y.coolAt now }

/-- Whether a sett has power for its uncore. -/
def Sett.powered (x : Sett) : Bool := fld x.pwrStat 23 20 ≠ 0

/-- SENSOR_SAMPLE (R384, R385, R389). -/
def execSensorSample (site : Site) (k : Fin 16) (temp : BitVec 16) (s : State) : Host.Outcome State Fault Refusal :=
  .next (if (s.sett site.val).powered then
    let x := ((s.sett site.val).sample k.val temp).comparePair (k.val / 2) s.tclk
    let (v, t) := if x.hotSpot.isSome then ((0 : BitVec 256), s) else s.fresh
    t.setSett site.val ((x.retherm (v.setWidth 16)).guard s.tclk)
    else s)

/-- GUARD_RELEASE (R389). -/
def execGuardRelease (site : Site) (dt : Nat) (s : State) : Host.Outcome State Fault Refusal :=
  let t := s.pass dt
  .next (t.modSett site.val fun x =>
    match x.guardOn, x.coolAt with
    | true, some a => if a + 1000000 ≤ t.tclk then { x with guardOn := false, coolAt := none } else x
    | _, _ => x)

/-- The sensor of a pair that is further from the estimate; the cooler one on a tie (R385). -/
def Sett.farther (x : Sett) (p : Nat) (estimate : Int) : Nat :=
  let a := x.reading (2 * p)
  let b := x.reading (2 * p + 1)
  let da := max (a - estimate) (estimate - a)
  let db := max (b - estimate) (estimate - b)
  if db < da then 2 * p else if da < db then 2 * p + 1 else if a ≤ b then 2 * p else 2 * p + 1

/-- SENSOR_DISAGREE (R385): the readings of a pair have differed for more than 100 ms. -/
def execSensorDisagree (site : Site) (pair : Fin 8) (estimate : BitVec 16) (s : State) : Host.Outcome State Fault Refusal :=
  let x := s.sett site.val
  let since := Tab.get 0 x.disagree pair.val
  .next (if since = 0 ∨ s.tclk + 1 ≤ since + 100000000 then s else
    let k := x.farther pair.val estimate.toInt
    let y := { x with temps := Tab.mod 0 x.temps k fun v => setBit v 30 true, disagree := Tab.set 0 x.disagree pair.val 0 }
    let t := s.setSett site.val (y.retherm 0)
    let t := { t with thermal := { t.thermal with status := satFld t.thermal.status 39 32 1 } }
    (t.alertBit 6).panelEvent (event 0x85 site.val k))

/-! ### The manager's tick (R386, R387, R392) -/

/-- THERM after a tick: down at once, up by one step; FLOOR under the guard and during a coolant stop (R387, R389, R391). -/
def Sett.tick (x : Sett) (lost : Bool) (f : Forecast) : Sett :=
  let y := { x with therm := setFld x.therm 63 48 f.temp.toNat }
  let cur := fld x.clk.aclk 46 40
  if lost || x.guardOn then y.setTherm 8
  else if f.maxStep.toNat < cur then y.setTherm f.maxStep.toNat
  else y.setTherm (min (cur + 1) f.maxStep.toNat)

/-- The site whose hot spot is the hottest, with its temperature. -/
def State.hottest (s : State) : Option (Nat × Int) :=
  ((List.range 272).filterMap fun i => if (s.sett i).powered then (s.sett i).hotSpot.map fun h => (i, h) else none).foldl
    (fun a e => match a with
      | none => some e
      | some b => if b.2 < e.2 then some e else some b) none

/-- HOT_SITE and HOT_TEMP brought up to date. -/
def State.noteHottest (s : State) : State :=
  match s.hottest with
  | some (i, h) => { s with thermal := { s.thermal with status := setFld (setFld s.thermal.status 31 23 i) 15 0 (wrapN 16 h) } }
  | none => s

/-- The lit meadows of the next bench to darken, from the centre outward (R392). -/
def State.nextDark (s : State) : List Nat :=
  (([[3, 4], [2, 5], [1, 6], [0, 7]].map fun b => b.filter fun m => s.meadowState m = 3 && !s.power.turnOff.contains m).find?
    fun b => !b.isEmpty).getD []

/-- One bench is darkened: by the planned sequence with the ledger IDLE, else by its e-fuses from 1 ms after the declaration (R392). -/
def State.darken (s : State) : State :=
  if s.ledger.state = .idle then s.nextDark.foldl State.planOff s
  else if s.thermal.lostAt + 1000000 ≤ s.tclk then s.nextDark.foldl (fun t m => t.tripMeadow m 6) s
  else s

/-- THERMAL_TICK (R386, R387, R392): the forecasts of the live setts. -/
def execThermalTick (fc : List Forecast) (dt : Nat) (s : State) : Host.Outcome State Fault Refusal :=
  let t := s.pass dt
  let lost := bit t.thermal.status 62
  let u := (fc.foldl (fun t f => if (t.sett f.site.val).powered then t.modSett f.site.val (fun x => x.tick lost f) else t) t).noteHottest
  .next (if lost && fc.any Forecast.crosses then u.darken else u)

/-! ### The hardware trip (R394) -/

/-- THERMTRIP (R394): the first comparator is recorded, and every meadow's e-fuses open. -/
def execThermtrip (hbm : Bool) (source : BitVec 9) (s : State) : Host.Outcome State Fault Refusal :=
  .next (if bit s.thermal.status 63 ∨ ¬ s.pins.rimGood then s else
    let st := setFld (setBit (setBit s.thermal.status 63 true) 60 hbm) 59 51 source.toNat
    let t := { s with thermal := { s.thermal with status := st }, pins := { s.pins with thermtrip := true } }
    ((List.range 8).foldl (fun t m => t.tripMeadow m 6) ((t.alertBit 0).edge 0 597)).refuseWaiting)

end Sys2Proof.Machine
end

