-- ==== Sys2Proof/Machine/Hbm.lean ====
section
/-! DEFINITION. What happens at a stack by itself: training, readout, refresh, patrol scrub, row repair, failure, and the zero-fill of new
regions (R269, R270, R275, R278, R281 to R288). -/

namespace Sys2Proof.Machine

/-! ### Failure of a stack -/

/-- The state with a stack changed; a stack that its own retirements have FAILED is lost (R287, R288). -/
def State.putSump (s : State) (k : Nat) (x : Sump) : State :=
  let t := s.setSump k x
  if x.state = 3 then t.stackDies k else t

/-- STACK_FAILED (R288). -/
def execStackFailed (k : Stack) (s : State) : Host.Outcome State Fault Refusal := .next (s.stackDies k.val)

/-- HBM_TRAINING (R270): while PHASE is HBM_TEST, the highest rate that passes; a stack that trains at none is FAILED and its whole range
retired. -/
def execHbmTraining (k : Stack) (rate : Option (BitVec 2)) (laneRepairs : BitVec 8) (s : State) : Host.Outcome State Fault Refusal :=
  .next (if fld s.boot.status 63 60 ≠ 3 ∨ (s.sump k.val).state ≠ 1 then s else
    match rate with
    | some r => if r = 3 then s else s.modSump k.val fun x =>
        { x with status := setFld (setFld (setFld x.status 31 28 2) 27 26 r.toNat) 23 16 laneRepairs.toNat }
    | none => s.modSump k.val fun x => { x with status := setFld x.status 31 28 3, told := true })

/-! ### Readout and refresh (R269, R281, R282, R388) -/

/-- STACK_READOUT (R281, R388): HOT above 85 °C; TEMP from the first good readout after bring-up. Throttling above 95 °C is timing. -/
def execStackReadout (k : Stack) (temp : Option (BitVec 8)) (s : State) : Host.Outcome State Fault Refusal :=
  .next (match temp with
    | some v =>
      if (s.sump k.val).ready then s.modSump k.val fun x =>
        { x with ref := setBit x.ref 8 (85 < v.toNat),
                 status := if fld s.boot.status 63 60 = 6 then setFld x.status 15 8 v.toNat else x.status }
      else s
    | none => s)

/-- Whether refresh of a pseudo-channel group is paused: only while no region is valid (R282). -/
def Sump.paused (x : Sump) (g : Nat) : Bool := bit x.ref g && x.regions.all fun e => !bit e.2 63

/-- REFRESH (R281): a refresh, or RFM, of a bank whose pseudo-channel (the bank number modulo 32) is not paused. -/
def execRefresh (k : Stack) (_rfm : Bool) (bank : Nat) (s : State) : Host.Outcome State Fault Refusal :=
  .next (if (s.sump k.val).ready && !(s.sump k.val).paused (bank % 32 / 8) then
    s.modSump k.val fun x => { x with refreshed := x.refreshed + 1 } else s)

/-- A write of SUMP_REF: a pause is refused while a region is valid (R282). -/
def Sump.writeRef (x : Sump) (v : BitVec 32) : Sump :=
  let y := if bit v 31 then setBit x.ref 31 false else x.ref
  if fld v 3 0 ≠ 0 && x.regions.any (fun e => bit e.2 63) then { x with ref := setBit y 31 true }
  else { x with ref := setFld y 3 0 (fld v 3 0) }

/-! ### Patrol scrub and repair (R283 to R287) -/

/-- Bit errors have struck the cells; the patrol reads one 128 B unit, and errors found there are corrected or recorded (R283, R285). -/
def Sump.patrol (x : Sump) (upsets : List Upset) : Sump :=
  let y := { x with errs := (upsets.filter fun (u : Upset) => decide (u.word < 2 ^ 33)).foldl strike x.errs }
  let z := if y.retiredAt (x.scrubPos * 128) 128 then y else (y.check (x.scrubPos * 128) 128).1
  { z with scrubPos := (x.scrubPos + 1) % 2 ^ 29 }

/-- PATROL_SCRUB (R285). -/
def execPatrolScrub (k : Stack) (upsets : List Upset) (dt : Nat) (s : State) : Host.Outcome State Fault Refusal :=
  let t := s.pass dt
  .next (if (t.sump k.val).ready && bit (t.sump k.val).scrub 31 then t.putSump k.val ((t.sump k.val).patrol upsets) else t)

/-- A proposed row is repaired with soft repair, keeping its words, or retired when its bank has no resource left (R286, R287). -/
def Sump.repairRow (x : Sump) (unit : Nat) (resource : Bool) : Sump :=
  let y := { x with spall := x.spall.erase unit }
  if resource then { y with repaired := addOnce y.repaired unit } else y.retire unit

/-- HBM_ROW_REPAIR (R286, R287): the row is on the spall list. -/
def execHbmRowRepair (k : Stack) (unit : BitVec 21) (resource : Bool) (s : State) : Host.Outcome State Fault Refusal :=
  .next (if (s.sump k.val).ready && (s.sump k.val).spall.contains unit.toNat then
    let t := s.putSump k.val ((s.sump k.val).repairRow unit.toNat resource)
    let row := (k.val, unit.toNat)
    if resource then { t with nv := { t.nv with hbmSpall := addOnce t.nv.hbmSpall row } }
    else { t with nv := { t.nv with hbmSpall := t.nv.hbmSpall.erase row, hbmRetired := addOnce t.nv.hbmRetired row } }
    else s)

/-! ### Regions (R275, R278) -/

/-- The stacks and entries of a region, or none when base or size break R275. -/
def regionParts (ctx base size : Nat) (rd wr : Bool) : Option (List (Nat × BitVec 64)) :=
  if size = 0 then none
  else if base + size ≤ 0x20000000000 && base % 0x20000 = 0 && size % 0x20000 = 0 then
    let e := regionEntry rd wr false ctx (base / 0x20000) ((base + size) / 0x20000 - 1)
    some ((List.range 32).map fun k => (k, e))
  else if 0x200000000000 ≤ base && base + size ≤ 0x220000000000 && base % 4096 = 0 && size % 4096 = 0
      && nfld base 40 36 = nfld (base + size - 1) 40 36 then
    some [(nfld base 40 36, regionEntry rd wr true ctx (nfld base 35 0 / 4096) (nfld (base + size - 1) 35 0 / 4096))]
  else none

/-- The parts that a REGION_CREATE command asks for. -/
def createParts (c : Cmd) : Option (List (Nat × BitVec 64)) :=
  regionParts c.ctx c.desc.w2.toNat c.desc.w3.toNat (bit c.desc.w4 1) (bit c.desc.w4 0)

/-- The retired stripes inside an entry's range (R287). -/
def Sump.retiredIn (x : Sump) (e : BitVec 64) : Nat :=
  sumN (x.retired.map fun u => ((List.range 8).filter fun i => decide (fld e 23 0 ≤ 8 * u + i) && decide (8 * u + i ≤ fld e 47 24)).length)

/-- A free region index of a sump: used neither by an entry nor by a fill. -/
def Sump.freeRegion (x : Sump) : Option Nat :=
  (List.range 4096).find? fun i => !bit (Tab.get 0 x.regions i) 63 && x.fills.all fun f => f.index ≠ i

/-- A fill of a new region joins those of its sump. -/
def Sump.addFill (x : Sump) (e : BitVec 64) : Sump :=
  match x.freeRegion with
  | some i => { x with fills := x.fills ++ [{ index := i, entry := e }] }
  | none => x

/-- The fills of an entry that a sump still has to make. -/
def Sump.fillsOf (x : Sump) (e : BitVec 64) : Nat := (x.fills.filter fun f => f.entry = e).length

/-- Whether a REGION_CREATE in progress still waits for a fill: the commands that ask for the same entry are served in order. -/
def State.createWaits (s : State) (c : Cmd) : Bool :=
  match createParts c with
  | none => false
  | some ps =>
    let same := (s.host.inProg.filter fun d => d.op = 0x10 && !s.host.toDo.contains d && createParts d = some ps && d.ctx = c.ctx)
    let left := ps.foldl (fun n e => max n ((s.sump e.1).fillsOf e.2)) 0
    same.length - left ≤ same.idxOf c

/-- REGION_CREATE commands whose entries are all valid complete, and their regions belong to the context (R278). -/
def State.finishCreates (s : State) : State :=
  let cs := s.host.inProg.filter fun c => c.op = 0x10 && !s.host.toDo.contains c && !s.createWaits c
  cs.foldl (fun t c =>
    let n := sumN (((createParts c).getD []).map fun e => (t.sump e.1).retiredIn e.2)
    let r : Region := { base := c.desc.w2.setWidth 48, size := c.desc.w3.toNat, rd := bit c.desc.w4 1, wr := bit c.desc.w4 0 }
    let u := t.modCtx c.ctx fun x => { x with regions := x.regions ++ [r] }
    u.complete c { cmdAnswer c 0 with result := BitVec.ofNat 32 n }) s

/-- REGION_ZERO_FILL_DONE (R278): the range reads zero, and the entry is valid. -/
def execRegionZeroFillDone (k : Stack) (s : State) : Host.Outcome State Fault Refusal :=
  .next (match (s.sump k.val).fills with
    | [] => s
    | f :: rest =>
      let x := (s.sump k.val).zeroFill (fld f.entry 23 0 * 4096) ((fld f.entry 47 24 + 1 - fld f.entry 23 0) * 4096)
      (s.setSump k.val { x with fills := rest, regions := Tab.set 0 x.regions f.index f.entry }).finishCreates)

end Sys2Proof.Machine
end

