-- ==== Sys2Proof/Machine/LoadRows.lean ====
section
/-! DEFINITION. Residency loads, row repair of scratchpads and readiness of cores (R152, R234 to R241, R380). -/

namespace Sys2Proof.Machine

/-! ### Starting a load (R237, R241) -/

/-- The record status of a loader's failed read: a double-bit error acts as a CRC failure (R238, R283). -/
def loaderSt (st : BitVec 4) : Nat := if st = stUe then 0x28 else fabricSt st

/-- A pass that waited for the load of h ends with the load's status, or is tried again (R34). -/
def State.afterLoad (s : State) (sched : Bool) (h status : Nat) : State :=
  match s.sched.picked with
  | some x => if x.pass.handle.toNat = h && status ≠ 0 && sched then s.endUnlaunched x.pass status else s.tryLaunch
  | none => s

/-- The load at the head of the queue ends before it claims anything. -/
def State.endHead (s : State) (q : LoadReq) (status ready : Nat) : State :=
  let f := s.fill
  let f := { f with queue := f.queue.drop 1, fills := if status = 0 then f.fills + 1 else f.fills,
                    failed := if status = 0 then f.failed else f.failed + 1 }
  (({ s with fill := f }).answerLoads q.cmds q.host.isSome q.handle.toNat status ready 0).afterLoad q.sched q.handle.toNat status

/-- The non-empty segments of a header. -/
def segsOf (hdr : List Byte) : List Nat := (List.range 32).filter fun i => segLen hdr i ≠ 0

/-- The logical cores that the records of all segments in HBM name, read with the rights of the context; or the status of a failure. -/
def State.scanSegments (s : State) (ctx : Nat) (hdr : List Byte) : State × Except Nat (List Nat) :=
  (segsOf hdr).foldl (fun acc i =>
    match acc.2 with
    | .error st => (acc.1, .error st)
    | .ok ls =>
      match acc.1.hbmRead (some ctx) (segAddr hdr i) (segLen hdr i) with
      | (t, .error st) => (t, .error (loaderSt st))
      | (t, .ok bs) =>
        let rs := (segRecords (segLen hdr i / 32) bs).filter fun r => 1 ≤ r.kind && r.kind ≤ 4
        (t, .ok (rs.foldl (fun l r => insN l (64 * r.sett + r.core)) ls))) (s, .ok [])

/-- The placements other than h that stand in the back slots of the cores and the back banks of the edge switches of a load. -/
def State.inTheWay (s : State) (h : Nat) (cores sites : List (Nat × Nat)) : List Nat :=
  ((cores.filterMap fun e =>
      let b := (s.core e.2).backSlot
      if b.state ≠ .empty && b.handle.toNat ≠ h then some b.handle.toNat else none)
    ++ sites.filterMap fun e =>
      match (s.sett e.2).backHandle with
      | some k => if k.toNat ≠ h then some k.toNat else none
      | none => none).dedup

/-- The claim of a load on all its cores (R237). -/
def State.claimLoad (s : State) (q : LoadReq) (e : DirEntry) (hdr : List Byte) (cores sites : List (Nat × Nat)) : State :=
  let h := q.handle.toNat
  let t := cores.foldl (fun t c => t.modCore c.2 fun x => x.claim e.ctx h e.banks) s
  let t := sites.foldl (fun t k => t.modSett k.2 fun x => x.setBackHandle none) t
  let l : Load := { req := q, header := hdr, cores := cores, sites := sites, offs := [], landed := [], done := [], named := [],
                    pairs := [], joins := [], reached := [], status := 0, touched := false, bytes := 0 }
  let f := { t.fill with queue := t.fill.queue.drop 1, running := some l, lastSrc := q.host.isSome, lastHandle := q.handle, rowsDone := 0,
                         ready := 0, bytes := 0 }
  ({ t with fill := f }).modEntry h fun x => { e with cores := x.cores, pairs := x.pairs, joins := x.joins, invalid := x.invalid }

/-- The front slots of a load's cores that hold h STALE are released (R237). -/
def State.releaseStale (s : State) (h : Nat) (cores : List (Nat × Nat)) : State :=
  cores.foldl (fun t e => if (t.core e.2).frontSlot.has h && (t.core e.2).frontSlot.state = .stale then
    t.modCore e.2 (fun c => c.releaseSlots h id) else t) s

/-- LOAD_START for a header that has been read and cores that are known. -/
def State.startLoad (s : State) (q : LoadReq) (e : DirEntry) (hdr : List Byte) (ls : List Nat) : State :=
  let h := q.handle.toNat
  let cores := ls.filterMap fun l => (s.coreAt l).bind fun p => if (s.core p).fenced then none else some (l, p)
  let sites := (bitsOf 256 e.meshSet.toNat).filterMap fun k => (s.siteOfSett k).map fun site => (k, site)
  let t := s.releaseStale h cores
  if cores.any (fun c => (t.core c.2).frontBanks &&& e.banks ≠ 0) then s.endHead q 0x26 0
  else
    let others := t.inTheWay h cores sites
    if others.any t.needed then s
    else (others.foldl State.release t).claimLoad q e hdr cores sites

/-- LOAD_START (R237, R241): a load that must wait, or a panel that starts no load (R437), leaves the queue as it is. -/
def State.loadStart (s : State) : State :=
  match s.fill.running, s.fill.queue with
  | none, q :: _ =>
    let h := q.handle.toNat
    let e := s.entry h
    if s.sched.held || s.displacesFlip h then s
    else if !e.valid then s.endHead q 0x0D 0
    else if e.invalid || !s.entryValid e then s.endHead q 0x20 0
    else if q.host.isNone && s.resident h && !s.isStale h then s.endHead q 0 e.cores.length
    else match s.hbmRead (some e.ctx.toNat) e.img.toNat 1024 with
      | (t, .error st) => t.endHead q (loaderSt st) 0
      | (t, .ok hdr) =>
        if !headerOk hdr || !(List.range 32).all (segHomeOk hdr) then t.endHead q 0x27 0
        else
          let n := entryOf e.ctx.toNat e.img.toNat hdr
          let n := { n with pinned := e.pinned }
          if q.host.isSome then
            t.startLoad q n hdr ((bitsOf 256 n.setts.toNat).flatMap fun sid => (List.range 64).map fun k => 64 * sid + k)
          else match t.scanSegments e.ctx.toNat hdr with
            | (u, .error st) => u.endHead q st 0
            | (u, .ok ls) => u.startLoad q n hdr ls
  | _, _ => s

/-- LOAD_START (R237). -/
def execLoadStart (s : State) : Host.Outcome State Fault Refusal := .next s.loadStart

/-! ### Records (R234, R235, R237) -/

/-- The state with the running load changed. -/
def State.modLoad (s : State) (f : Load → Load) : State := { s with fill := { s.fill with running := s.fill.running.map f } }

/-- A back slot of a load that is not READY is FAILED. -/
def ResSlot.fail (x : ResSlot) : ResSlot := if x.state = .claiming ∨ x.state = .loading then { x with state := .failed } else x

/-- The load ends with a status; the slots that segment i reached are FAILED (R236, R237). -/
def State.failSeg (s : State) (l : Load) (i status : Nat) : State :=
  let t := (Tab.get [] l.reached i).foldl (fun t p => t.modCore p fun c => c.modBack ResSlot.fail) s
  t.modLoad fun l => { l with status := BitVec.ofNat 8 status }

/-- Whether a record keeps the rules of its kind, for segment i and entry e (R234, R235). -/
def SegRec.ok (r : SegRec) (i : Nat) (e : DirEntry) : Bool :=
  let home := r.sett / 16 = i / 2 && (r.sett % 16 < 8) = (i % 2 = 0)
  let part := bit e.setts r.sett
  r.clean && match r.kind with
    | 0 => r.off = 0 && r.len = 0
    | 1 => home && part && r.off % 8 = 0 && r.off + r.len ≤ 32768
    | 2 => home && part && r.off % 32 = 0 && r.off + r.len ≤ 0x300000
        && (r.len = 0 || (List.range ((r.off + r.len - 1) / 0x40000 + 1 - r.off / 0x40000)).all fun k => bit e.banks (r.off / 0x40000 + k))
    | 3 => home && part && r.off = 0 && r.len = 1032
        && (List.range 32).all fun k => !(leAt r.payload (520 + 8 * k) 8).testBit 63 && !(leAt r.payload (776 + 8 * k) 8).testBit 63
    | 4 => home && part && r.off = 0 && r.len = 4616
    | 5 => home && bit e.meshSet r.sett && r.core = 0 && (r.off < 4 || (16 ≤ r.off && r.off < 48))
        && r.len = 4 + 4 * (leAt r.payload 0 1 + 1)
    | _ => false

/-- 32-bit words of a payload under a mask. -/
def words32 (bs : List Byte) (n mask : Nat) : List (BitVec 32) := (List.range n).map fun k => BitVec.ofNat 32 (leAt bs (4 * k) 4 &&& mask)

/-- Writable bits of a slot entry. -/
def slotMask : Nat := 2 ^ 32 - 2 ^ 19

/-- A record of kinds 1 to 4 applied to a core's back slot (R225, R235, R237). -/
def Core.applyRec (c : Core) (r : SegRec) : Core :=
  let b := c.backIdx
  match r.kind with
  | 1 => { c with istore := Memory.write c.istore (b * 0x8000 + r.off) r.payload }
  | 2 => ({ c with sp := c.sp.store r.off r.payload } : Core).modBack fun x =>
      { x with bytes := BitVec.ofNat 22 (min 0x300000 (x.bytes.toNat + r.len)) }
  | 3 => c.modBack fun x => { x with image := r.payload }
  | _ =>
    let flows := (List.range 64).map fun f => BitVec.ofNat 64 (leAt r.payload (4104 + 8 * f) 8 &&& (2 ^ 64 - 2 ^ 46))
    { c with mesh := { c.mesh with slots := Tab.write 0 c.mesh.slots (b * 1024) (words32 r.payload 1024 slotMask),
                                   frame := Tab.set 0 c.mesh.frame b (BitVec.ofNat 32 (leAt r.payload 4096 4)),
                                   term := Tab.set 0 c.mesh.term b (BitVec.ofNat 32 (leAt r.payload 4100 4)),
                                   flow := Tab.write 0 c.mesh.flow (b * 64) flows } }

/-- A SETT_MESH record applied to an edge switch's back bank (R226, R234). -/
def Sett.applyMesh (x : Sett) (r : SegRec) : Sett :=
  let b := if x.meshFront then 0 else 1
  let n := leAt r.payload 0 1
  { x with meshSlots := Tab.write 0 x.meshSlots (b * 16384 + r.off * 256) (words32 (r.payload.drop 4) (n + 1) slotMask),
           meshFrame := Tab.mod 0 x.meshFrame r.off fun v => setFld v (16 * b + 7) (16 * b) n }

/-- The END of segment i: its length and CRC are checked, and the slots that it reached become READY (R234, R237). -/
def State.endSegment (s : State) (l : Load) (e : DirEntry) (i off : Nat) : State :=
  if off + 32 ≠ segLen l.header i then s.failSeg l i 0x27
  else match s.hbmRead (some e.ctx.toNat) (segAddr l.header i) (segLen l.header i) with
    | (t, .error st) => t.failSeg l i (loaderSt st)
    | (t, .ok bs) =>
      if crc32 bs ≠ segCrc l.header i then t.failSeg l i 0x28
      else
        let u := (Tab.get [] l.reached i).foldl (fun u p => u.modCore p fun c => c.modBack fun x =>
          if x.state = .loading then { x with state := .ready } else x) t
        let done := l.done ++ [i]
        let rows := (List.range 16).filter fun r =>
          (segLen l.header (2 * r) ≠ 0 || segLen l.header (2 * r + 1) ≠ 0)
            && (segLen l.header (2 * r) = 0 || done.contains (2 * r)) && (segLen l.header (2 * r + 1) = 0 || done.contains (2 * r + 1))
        let u := u.modLoad fun l => { l with done := done, bytes := l.bytes + 32, offs := Tab.set 0 l.offs i (off + 32) }
        let ready := (l.cores.filter fun c => (u.core c.2).backSlot.state = .ready).length
        { u with fill := { u.fill with rowsDone := BitVec.ofNat 16 (maskOf rows), ready := BitVec.ofNat 15 ready,
                                       bytes := BitVec.ofNat 64 (l.bytes + 32) } }

/-- The load with a record counted: its segment's offset, the bytes, and what the record names. -/
def Load.count (l : Load) (i off : Nat) (r : SegRec) (p : Option Nat) : Load :=
  let logical := 64 * r.sett + r.core
  let reached := match p with
    | some q => Tab.mod [] l.reached i fun t => insN t q
    | none => l.reached
  { l with offs := Tab.set 0 l.offs i (off + r.size), bytes := l.bytes + r.size, reached := reached,
           named := if r.kind ≤ 4 then insN l.named logical else l.named,
           pairs := if r.kind = 5 && r.off < 4 && anyValid (r.payload.drop 4) then addOnce l.pairs (r.sett, r.off) else l.pairs,
           joins := if r.kind = 4 then (portsUsed r.payload).foldl (fun t d => addOnce t (logical, d)) l.joins else l.joins }

/-- A record of segment i at an offset is applied, or waits while its core's slot is CLAIMING; the slot of a core that has been lost is not
written (R241). -/
def State.applyRecord (s : State) (l : Load) (i off : Nat) (r : SegRec) : State :=
  if r.kind = 5 then
    let t := match l.sites.find? (fun e => e.1 = r.sett) with
      | some e => s.modSett e.2 fun x => x.applyMesh r
      | none => s
    t.modLoad fun l => l.count i off r none
  else match l.cores.find? (fun e => e.1 = 64 * r.sett + r.core) with
    | none => s.modLoad fun l => l.count i off r none
    | some e =>
      let c := s.core e.2
      if c.fenced || (c.backSlot.state ≠ .claiming && c.backSlot.state ≠ .loading) then s.modLoad fun l => l.count i off r none
      else if c.backSlot.state = .claiming then s
      else (s.modCore e.2 fun c => c.applyRec r).modLoad fun l => l.count i off r (some e.2)

/-- The next record of segment i reaches its sett's loader (R237, R238). -/
def State.loadRecord (s : State) (i : Nat) : State :=
  match s.fill.running with
  | none => s
  | some l =>
    let e := s.entry l.req.handle.toNat
    let off := Tab.get 0 l.offs i
    let n := segLen l.header i
    if l.status ≠ 0 || n = 0 || l.done.contains i then s
    else if l.req.host.isSome && Tab.get 0 l.landed i < off + 32 then s
    else if n < off + 32 then s.failSeg l i 0x27
    else match s.hbmRead (some e.ctx.toNat) (segAddr l.header i + off) 32 with
      | (t, .error st) => t.failSeg l i (loaderSt st)
      | (t, .ok h32) =>
        let size := (parseRec h32).size
        if n < off + size then t.failSeg l i 0x27
        else if l.req.host.isSome && Tab.get 0 l.landed i < off + size then t
        else match t.hbmRead (some e.ctx.toNat) (segAddr l.header i + off) size with
          | (u, .error st) => u.failSeg l i (loaderSt st)
          | (u, .ok bs) =>
            let r := parseRec bs
            if !r.ok i e then u.failSeg l i 0x27
            else if r.kind = 0 then u.endSegment l e i off
            else
              let v := u.applyRecord l i off r
              match v.fill.running with
              | some k => { v with fill := { v.fill with bytes := BitVec.ofNat 64 k.bytes } }
              | none => v

/-- LOAD (R237). -/
def execLoad (seg : Fin 32) (s : State) : Host.Outcome State Fault Refusal := .next (s.loadRecord seg.val)

/-! ### The end of a load (R234, R237, R241) -/

/-- Whether the named cores are the participating set that the header announces (R234). -/
def namedOk (named : List Nat) (e : DirEntry) : Bool :=
  named.length = e.ncores.toNat && (bitsOf 256 e.setts.toNat).all fun k => named.any fun l => l / 64 = k

/-- The slots at the end of a load: with a failure all that are not READY are FAILED (all of them when the layout is broken); cores that
no record named are released; a touched load leaves its slots STALE. -/
def State.endSlots (s : State) (l : Load) (status : Nat) : State :=
  l.cores.foldl (fun t e => t.modCore e.2 fun c =>
    if c.fenced then c
    else if status = 0 && !l.named.contains e.1 then c.releaseSlots l.req.handle.toNat fun front => !front
    else c.modBack fun x =>
      if status = 0x27 then { x with state := .failed }
      else if status ≠ 0 then x.fail
      else if l.touched && x.state = .ready then { x with state := .stale } else x) s

/-- LOAD_COMPLETE once every segment is done, or the load has failed. -/
def State.loadComplete (s : State) : State :=
  match s.fill.running with
  | none => s
  | some l =>
    if l.status = 0 && !(segsOf l.header).all l.done.contains then s
    else
      let h := l.req.handle.toNat
      let e := s.entry h
      let status := if l.status ≠ 0 then l.status.toNat else if namedOk l.named e then 0 else 0x27
      let ready := (l.cores.filter fun c => (s.core c.2).backSlot.state = .ready && l.named.contains c.1).length
      let t := s.endSlots l status
      let t := if status = 0 then
        (l.sites.foldl (fun t k => t.modSett k.2 fun x => x.setBackHandle (some l.req.handle)) t).modEntry h fun x =>
          { x with cores := l.named, pairs := l.pairs, joins := l.joins }
        else t
      let t := t.modEntry h fun x => { x with invalid := x.invalid || !t.entryValid x }
      let f := { t.fill with running := none, ready := BitVec.ofNat 15 ready, bytes := BitVec.ofNat 64 l.bytes,
                             fills := if status = 0 then t.fill.fills + 1 else t.fill.fills,
                             failed := if status = 0 then t.fill.failed else t.fill.failed + 1 }
      ((({ t with fill := f }).answerLoads l.req.cmds l.req.host.isSome h status ready l.bytes).afterLoad l.req.sched h status).closeStep

/-- LOAD_COMPLETE (R237). -/
def execLoadComplete (s : State) : Host.Outcome State Fault Refusal := .next s.loadComplete

/-! ### Segments from the host (R240) -/

/-- The gallery that serves a segment. -/
def segGallery (i : Nat) : Nat := i % 2 + if i / 2 < 8 then 0 else 2

/-- Whether a context has a function bound on a port (R305). -/
def Ctx.onPort (c : Ctx) (port : Nat) : Bool := c.bound.any fun f => f / 64 = port

/-- A gallery's bytes of a segment land in the segment's home stack. -/
def State.landSegment (s : State) (g i : Nat) (r : HostRead) : State :=
  match s.fill.running with
  | none => s
  | some l =>
    let e := s.entry l.req.handle.toNat
    let at_ := Tab.get 0 l.landed i
    let n := segLen l.header i
    if l.req.host.isNone || segGallery i ≠ g || n = 0 || l.status ≠ 0 || n ≤ at_ then s
    else if !(s.gal g).linkUp then s.failSeg l i 0x12
    else if !((s.ctx e.ctx.toNat).any fun c => c.onPort g) then s.failSeg l i 0x13
    else match r with
      | .fail st => s.failSeg l i (fabricSt st)
      | .ok data =>
        let bs := data.take (min 65536 (n - at_))
        let (t, st) := s.hbmWrite (some e.ctx.toNat) (segAddr l.header i + at_) bs
        if st ≠ 0 then t.failSeg l i (fabricSt st)
        else t.modLoad fun l => { l with landed := Tab.set 0 l.landed i (at_ + bs.length) }

/-- HOST_SEGMENT_FETCH (R240). -/
def execHostSegmentFetch (g : Gal) (seg : Fin 32) (r : HostRead) (s : State) : Host.Outcome State Fault Refusal :=
  .next (s.landSegment g.val seg.val r)

/-! ### Rows of a scratchpad (R152) -/

/-- A spall-listed row is repaired into a spare of its bank, or retired when none is left. -/
def Core.repairRow (c : Core) (row : Nat) : Core :=
  let x := c.sp
  let bank := row / 256
  let words := fun w => decide (row * 128 ≤ w) && decide (w < row * 128 + 128)
  let bad := x.errs.any fun e => words e.1 && e.2 = 2
  let y := { x with spall := x.spall.erase row, rowErrs := Tab.set 0 x.rowErrs row 0 }
  if Tab.get 0 x.spares bank < 4 then
    let y := { y with spares := Tab.mod 0 y.spares bank (· + 1), repaired := addOnce y.repaired row,
                      errs := y.errs.filter (fun e => !words e.1),
                      mem := if bad then Memory.zero y.mem (row * 1024) 1024 else y.mem }
    let mark := fun (r : ResSlot) (m : BitVec 12) =>
      if bad && bit m bank && r.state = .ready then { r with state := .stale } else r
    { c with sp := y, res0 := mark c.res0 x.slot0, res1 := mark c.res1 x.slot1 }
  else { c with sp := { y with retired := addOnce y.retired row } }

/-- SP_ROW_REPAIR (R152): between passes only; a core with more than 8 retired rows has failed. -/
def execSpRowRepair (p : PCore) (bank : Fin 12) (row : Fin 256) (s : State) : Host.Outcome State Fault Refusal :=
  let k := bank.val * 256 + row.val
  .next (if s.ledger.state = .idle ∧ (s.core p.val).sp.spall.contains k then
    let t := s.modCore p.val fun c => c.repairRow k
    let t := { t with nv := { t.nv with spRetired := addOnce t.nv.spRetired (p.val, k) } }
    if 8 < (t.core p.val).sp.retired.length then t.confirmLost [p.val] else t
    else s)

/-- CORE_READY (R380): an ungated core is READY, and a launch that waited for it is tried again. -/
def execCoreReady (p : PCore) (s : State) : Host.Outcome State Fault Refusal :=
  let b := s.gateBit p.val
  .next (if bit (s.sett (siteOf p.val)).gate b then s
    else (s.modSett (siteOf p.val) fun x => { x with coreReady := setBit x.coreReady b true }).tryLaunch)

end Sys2Proof.Machine
end

