-- ==== Sys2Proof/Machine/Boot.lean ====
section
/-! DEFINITION. Panel reset, the start sequence, benches, retention soaks, recovery and the firmware image (R395 to R418). -/

namespace Sys2Proof.Machine

/-! ### The firmware image (R414 to R416, R431) -/

/-- OFFSET and LENGTH of part i of an image: 0 GALLERY, 1 SCTL, 2 SUPPORT. -/
def partAt (img : List Byte) (i : Nat) : Nat × Nat := (leAt img (0x20 + 48 * i) 4, leAt img (0x24 + 48 * i) 4)

/-- The bytes of part i. -/
def partOf (img : List Byte) (i : Nat) : List Byte := (img.drop (partAt img i).1).take (partAt img i).2

/-- VERSION of an image. -/
def imageVersion (img : List Byte) : BitVec 64 := BitVec.ofNat 64 (leAt img 8 8)

/-- SVN of an image. -/
def imageSvn (img : List Byte) : BitVec 32 := BitVec.ofNat 32 (leAt img 0x10 4)

/-- Whether n bytes at an offset are 0. -/
def zeros (img : List Byte) (off n : Nat) : Bool := leAt img off n = 0

/-- MAGIC, FORMAT, reserved bytes and the parts' places (R414 to R416). -/
def imageFormOk (img : List Byte) : Bool :=
  let parts := [partAt img 0, partAt img 1, partAt img 2]
  let apart := fun (a b : Nat × Nat) => decide (a.1 + a.2 ≤ b.1) || decide (b.1 + b.2 ≤ a.1)
  4096 ≤ img.length && leAt img 0 4 = 0x53564546 && leAt img 4 4 = 1 && zeros img 0x14 12
    && zeros img 0x28 8 && zeros img 0x58 8 && zeros img 0x88 8 && zeros img 0xB0 3856
    && parts.all (fun p => p.1 % 4096 = 0 && decide (p.1 + p.2 ≤ img.length))
    && apart (partAt img 0) (partAt img 1) && apart (partAt img 0) (partAt img 2) && apart (partAt img 1) (partAt img 2)
    && (partAt img 0).2 ≤ 0x800000 && (partAt img 1).2 ≤ 0x100000 && (partAt img 2).2 = 4096

/-- The firmware keys that a lifecycle accepts (R431). -/
def firmwareKeys (lc : BitVec 2) : List (BitVec 512) :=
  if lc = 0 ∨ lc = 3 then [Config.fusedKey 0, Config.fusedKey 1] else [Config.fusedKey 1]

/-- What is wrong with an image (R416), as GAL_REC_CTRL.ERR numbers it: 1 format, 2 signature, 3 digest, 4 SVN. -/
def imageError (nv : NonVol) (img : List Byte) : Option Nat :=
  if !imageFormOk img then some 1
  else if !(firmwareKeys nv.lifecycle).any (fun k => Config.verifies k (img.take 0xFC0) (BitVec.ofNat 512 (leAt img 0xFC0 64))) then some 2
  else if !(List.range 3).all (fun i => Config.sha256 (partOf img i) = BitVec.ofNat 256 (leAt img (0x30 + 48 * i) 32)) then some 3
  else if (imageSvn img).toNat < nv.minSvn.toNat then some 4
  else none

/-! ### Status registers -/

/-- PHASE of GAL_BOOT_STATUS. -/
def State.phase (s : State) : Nat := fld s.boot.status 63 60

/-- The state with a boot status changed. -/
def State.modBoot (s : State) (f : BitVec 64 → BitVec 64) : State := { s with boot := { s.boot with status := f s.boot.status } }

/-- Milliseconds since rim power good. -/
def State.bootMs (s : State) : Nat := (s.tclk - s.boot.started) / 1000000

/-- GAL_BOOT_STATUS as it reads: ELAPSED_MS runs until DONE or FAILED. -/
def State.bootStatus (s : State) : BitVec 64 :=
  if s.phase < 6 then setFld s.boot.status 31 0 (min (2 ^ 32 - 1) s.bootMs) else s.boot.status

/-- Bring-up ends in a phase, and ELAPSED_MS stops. -/
def State.endBoot (s : State) (phase : Nat) : State :=
  let v := setFld (setFld s.bootStatus 63 60 phase) 42 40 0
  { s with boot := { s.boot with status := v, running := false } }

/-- Bring-up fails (R407). -/
def State.failBoot (s : State) : State := let t := s.endBoot 7; { t with nv := { t.nv with lastReady := false } }

/-! ### Reset and power (R395, R396, R473) -/

/-- The pin PANEL_RESET_n (R395): held low it resets the panel; its release begins bring-up. -/
def execPanelResetPin (level : Bool) (s : State) : Host.Outcome State Fault Refusal :=
  .next (if level then
      (if s.pins.panelResetN then s
       else { s with pins := { s.pins with panelResetN := true }, boot := { s.boot with running := s.pins.rimGood, started := s.tclk } })
    else s.resetPanel s.pins.rimGood false false)

/-- RIM_POWER_GOOD (R395, R473). -/
def execRimPowerGood (s : State) : Host.Outcome State Fault Refusal :=
  .next (if s.pins.rimGood then s
    else { s with pins := { s.pins with rimGood := true }, boot := { s.boot with running := s.pins.panelResetN, started := s.tclk } })

/-- A PANEL_RESET command takes effect 1 ms after its record (R330, R395). -/
def State.dueReset (s : State) : Option State :=
  match s.boot.resetAt with
  | some a => if a ≤ s.tclk then some (s.resetPanel s.pins.rimGood s.pins.panelResetN (s.pins.rimGood && s.pins.panelResetN)) else none
  | none => none

/-! ### The phases (R397, R404 to R407) -/

/-- The image is verified: firmware starts on the management cores; else the ROM waits in recovery (R417). -/
def State.verified (s : State) : State :=
  if !s.nv.imageOk then { s with boot := { s.boot with recovery := true } }
  else
    let img := s.nv.image
    let t := { s with fw := { s.fw with version := imageVersion img, svn := imageSvn img, running := img } }
    let t := (List.range 4).foldl (fun t g => t.modGal g fun x =>
      { x with mcStat := (List.range 4).foldl (fun m b => Tab.set 0 m b 0x10000000) x.mcStat }) t
    t.modBoot fun v => setFld v 63 60 2

/-- Why a standard start is forced, 0 when it is not: the first case of R404 that holds. -/
def NonVol.forced (v : NonVol) (version : BitVec 64) : Nat :=
  if v.clearLists || (!v.mapStored && !v.copiesBad) then 1
  else if v.copiesBad then 2
  else if !v.lastReady then 3
  else if fld v.bootCfg 7 0 ≤ v.quickRuns then 4
  else if v.stdVersion ≠ version then 5
  else 0

/-- The lists of the structural map and the spall list, emptied. -/
def NonVol.emptied (v : NonVol) : NonVol :=
  { v with deadSites := [], deadCores := [], deadLanes := [], deadLinks := [], spRetired := [], hbmRetired := [], hbmSpall := [] }

/-- An island's generator locks to its first listed input. -/
def State.lockNode (s : State) (n : Node) : State :=
  let input := ((refList (s.refCfg n)).head?).getD 15
  s.modIsland n fun x => ({ x with status := setFld x.status 27 24 input }.setState 1).lock s.tclk (isSett n)

/-- The delays of a node's links are measured as they train: free values (R351; log entry 38). -/
def State.measureLinks (s : State) (n : Node) : State := s.fresh.2.modIsland n fun x => { x with linkDly := word64 s.fresh.1 0 }

/-- The RIM phase ends: references lock and the lists are read from flash (R397, R404, R408, R433). -/
def State.rimDone (s : State) (galFails : List Gal) : State :=
  let forced := s.nv.forced s.fw.version
  let quick := bit s.nv.bootCfg 31 && forced = 0
  let lost := s.nv.copiesBad && !s.nv.clearLists
  let nv := if s.nv.clearLists then { s.nv.emptied with clearLists := false, mapStored := false, copiesBad := false, mapWrites := 0 }
    else if s.nv.copiesBad then { s.nv.emptied with mapStored := false, copiesBad := false, mapWrites := 0 } else s.nv
  let t := { s with nv := nv, boot := { s.boot with mapLost := lost }, map := { s.map with deadLanes := nv.deadLanes } }
  let t := if lost then t.alertBit 8 else t
  let t := galFails.foldl (fun t g => if g = 0 then t else t.galleryDies g.val) t
  let t := (((List.finRange 4).map Node.gal) ++ (List.finRange 32).map Node.sump).foldl (fun t n => (t.lockNode n).measureLinks n) t
  let t := (List.range 32).foldl (fun t k => t.modSump k fun x =>
    { x with status := setFld x.status 31 28 1, retired := (nv.hbmRetired.filter fun e => e.1 = k).map Prod.snd,
             repaired := (nv.hbmSpall.filter fun e => e.1 = k).map Prod.snd }) t
  t.modBoot fun v => setFld (setBit (setFld v 63 60 3) 59 quick) 58 56 forced

/-- The meadows of a bench (R397). -/
def benchMeadows (b : Nat) : List Nat := [b, 7 - b]

/-- The bench that runs: the first that is neither done nor skipped. -/
def State.bench (s : State) : Option Nat := (List.range 4).find? fun b => !bit s.boot.status (52 + b) && !bit s.boot.status (48 + b)

/-- The next bench begins with its in-rush requests; after a hardware trip every remaining bench is skipped (R398, R407). -/
def State.startBench (s : State) : State :=
  match s.bench with
  | none => s.modBoot fun v => setFld v 42 40 0
  | some b =>
    if bit s.thermal.status 63 then
      s.modBoot fun v => setFld (setFld v 42 40 0) 51 48 (fld v 51 48 ||| (15 - fld v 55 52))
    else
      let reqs := (benchMeadows b).map fun m => ({ meadow := m, cmd := none, deferred := false, since := s.tclk } : InrushReq)
      let t := s.modBoot fun v => setFld v 42 40 1
      { t with power := { t.power with requests := t.power.requests ++ reqs } }

/-- Rows of stacks that failed a test enter the spall list of their sumps (R402). -/
def State.spallRows (s : State) (rows : List (Nat × Nat)) : State :=
  rows.foldl (fun t e => t.modSump e.1 fun x => { x with spall := addOnce x.spall (e.2 % 2 ^ 21) }) s

/-- The pause bits of a soak at every stack that is READY (R282, R402). -/
def State.pauseGroup (s : State) (mask : Nat) : State :=
  (List.range 32).foldl (fun t k => if (t.sump k).ready then t.modSump k fun x => { x with ref := setFld x.ref 3 0 mask } else t) s

/-- The HBM test ends: every stack is READY or FAILED; memory reads zero, and a standard start begins its soaks (R402). -/
def State.hbmTested (s : State) (rows : List (Nat × Nat)) : State :=
  if (List.range 32).any fun k => (s.sump k).state = 1 then s
  else
    let t := (List.range 32).foldl (fun t k => t.modSump k fun x => { x with mem := [] }) s
    let t := t.spallRows rows
    let quick := bit t.boot.status 59
    let t := if quick then t else (t.pauseGroup 1)
    ({ t with boot := { t.boot with soaking := !quick } }.modBoot fun v => setFld v 63 60 4).startBench

/-- Route tables, folds and lines written for the panel as it is (R258, R397). -/
def State.writeTables (s : State) : State :=
  let t := s.net []
  (allNodes.filter t.up).foldl (fun u n => u.modRouter n fun x =>
    let y := x.writeBank 0 (s.bankTable t n)
    { y with fold := setFld y.fold 15 0 (t.folds n), ctrl := setFld y.ctrl 7 0 (t.lines n) }) s

/-- Publication (R406): the map changes once, to GAL_SHAPE_GEN 1, and the panel is READY. -/
def State.publish (s : State) : State :=
  let lit := (List.range 8).map fun m => if s.meadowState m = 3 then MapItem.meadowLit m else MapItem.meadowDark m
  let t := { s.writeTables with map := { s.map with published := true, waiting := s.map.waiting ++ lit } }
  let t := t.changeMap.endBoot 6
  let quick := bit t.boot.status 59
  { t with nv := { t.nv with lastReady := true, quickRuns := if quick then t.nv.quickRuns + 1 else 0,
                             stdVersion := if quick then t.nv.stdVersion else t.fw.version } }

/-- The phase that runs ends. -/
def State.phaseEnds (s : State) (f : PhaseFindings) : State :=
  if f.g0Fails then s.failBoot
  else match s.phase with
    | 0 => if s.nv.part = 3 then s.failBoot else s.modBoot fun v => setFld v 63 60 1
    | 1 => s.verified
    | 2 => s.rimDone f.galFails
    | 3 => s.hbmTested (f.hbmRows.map fun e => (e.1.val, e.2))
    | 4 => if s.bench.isNone then s.modBoot fun v => setFld v 63 60 5 else s
    | 5 => if s.boot.soaking then s else s.publish
    | _ => s

/-- BRINGUP_PHASE (R397, R404 to R407); it also begins the bring-up that a PANEL_RESET command asked for (R395). -/
def execBringupPhase (f : PhaseFindings) (dt : Nat) (s : State) : Host.Outcome State Fault Refusal :=
  let t := s.pass dt
  .next (match t.dueReset with
    | some u => u
    | none => if t.boot.running && !t.boot.recovery then t.phaseEnds f else t)

/-! ### Benches (R399 to R403, R409) -/

/-- SETT_BIST with a field raised to at least a RESULT. -/
def bistResult (v : BitVec 32) (r : Nat) : BitVec 32 := setFld v 31 28 (max r (fld v 31 28))

/-- A site is found dead with a cause (R400, R401). -/
def State.findDeadSite (s : State) (i cause : Nat) : State :=
  let t := s.modSett i fun x => { x with bist := setFld (bistResult x.bist 3) 27 24 cause, pwrStat := setFld x.pwrStat 23 20 3 }
  { t with boot := { t.boot with found := addOnce t.boot.found (MapItem.deadSite i) } }

/-- A core is found dead (R400, R403). -/
def State.findDeadCore (s : State) (p : Nat) : State :=
  if s.nv.deadCores.contains p || s.boot.found.contains (MapItem.deadCore p) then s
  else
    let t := s.modSett (siteOf p) fun x => { x with bist := setFld (bistResult x.bist 2) 6 0 (fld x.bist 6 0 + 1) }
    { t with boot := { t.boot with found := t.boot.found ++ [MapItem.deadCore p] } }

/-- The dead lanes of a site, in the lists and among the findings. -/
def State.lanesOf (s : State) (i : Nat) : List Nat :=
  (List.range 10).filter fun l => s.nv.deadLanes.contains (i, l) || s.boot.found.contains (MapItem.deadLane i l)

/-- A lane is found dead; a site with two dead orthogonal lanes is retired (R218, R401). -/
def State.findDeadLane (s : State) (i lane : Nat) : State :=
  let t := s.modSett i fun x => { x with bist := setBit x.bist (8 + lane) true, meshDead := setBit x.meshDead lane true }
  let t := { t with boot := { t.boot with found := addOnce t.boot.found (MapItem.deadLane i lane) } }
  if 2 ≤ ((t.lanesOf i).filter fun l => l < 4).length then t.findDeadSite i 6 else t

/-- What a step of a test finds in the meadows `ms`. -/
def State.noteFindings (s : State) (f : Findings) (ms : List Nat) : State :=
  let here := fun i => ms.contains (meadowOf i)
  let t := (f.deadCores.filter fun p => here (siteOf p.val)).foldl (fun t p => t.findDeadCore p.val) s
  let t := (f.deadLanes.filter fun e => here e.1.val).foldl (fun t e => t.findDeadLane e.1.val e.2.val) t
  let t := (f.deadSites.filter fun e => here e.1.val).foldl (fun t e => t.findDeadSite e.1.val e.2.toNat) t
  let links := f.deadLinks.map fun e => MapItem.deadLink e.1 e.2.val
  let rows := (f.spRows.filter fun e => here (siteOf e.1.val)).map fun e => (e.1.val, 256 * e.2.1.val + e.2.2.val)
  { t with boot := { t.boot with found := links.foldl addOnce t.boot.found, spFound := rows.foldl addOnce t.boot.spFound } }

/-- Support code and sett firmware reach the controllers and cores of the meadows, and the rows of the spall list are repaired again (R399,
R403). -/
def State.startControllers (s : State) (ms : List Nat) : State :=
  let sites := (ms.flatMap sitesOf).filter fun i => !s.nv.deadSites.contains i
  let code := partOf s.nv.image 2
  let t := sites.foldl (fun t i => t.modSett i fun x => { x with bist := 0 }) s
  let t := (sites.flatMap fun i => List.range' (72 * i) 72).foldl (fun t p => t.modCore p fun c => { c with support := Memory.write [] 0 code }) t
  (t.nv.spRetired.filter fun e => sites.contains (siteOf e.1)).foldl (fun t e => t.modCore e.1 fun c => c.repairRow e.2) t

/-- Every tested site that failed nothing has passed (SETT_BIST). -/
def State.bistPass (s : State) (ms : List Nat) : State :=
  ((ms.flatMap sitesOf).filter fun i => !s.nv.deadSites.contains i).foldl (fun t i => t.modSett i fun x => { x with bist := bistResult x.bist 1 }) s

/-- New rows are repaired or retired (R152, R403); a core with more than 8 retired rows is dead. -/
def State.repairFound (s : State) : State :=
  let t := s.boot.spFound.foldl (fun t e =>
    let u := t.modCore e.1 fun c => c.repairRow e.2
    let u := { u with nv := { u.nv with spRetired := addOnce u.nv.spRetired e } }
    if 8 < (u.core e.1).sp.retired.length then u.findDeadCore e.1 else u) s
  { t with boot := { t.boot with spFound := [] } }

/-- The lists are written to the older copy in flash (R408). -/
def State.storeMap (s : State) : State :=
  { s with nv := { s.nv with mapStored := true, mapWrites := s.nv.mapWrites + 1, mapCopy := !s.nv.mapCopy } }

/-- The map update of a bench: the findings enter the lists before publication (R399, R408). -/
def State.mapUpdate (s : State) : State :=
  let t := s.repairFound
  let m := t.boot.found.foldl MapSum.add
    { sites := t.nv.deadSites, cores := t.nv.deadCores, lanes := t.nv.deadLanes, lit := 0, dark := t.map.darkRows }
  ({ t with nv := t.nv.note m (deadLinksOf t.boot.found), boot := { t.boot with found := [] },
            map := { t.map with deadLanes := m.lanes } }).storeMap

/-- The step after a step of R399; 0 after the last. -/
def stepAfter (quick : Bool) (c : Nat) : Nat := if c = 5 then (if quick then 7 else 6) else if c = 7 then 0 else c + 1

/-- The tests of a step over the meadows `ms`. -/
def State.testStep (s : State) (f : Findings) (ms : List Nat) (c : Nat) : State :=
  let t := if c = 2 then s.startControllers ms else s
  let t := t.noteFindings f ms
  let t := if c = 4 then (ms.flatMap sitesOf).foldl (fun t i => t.measureLinks (settNode i)) t else t
  if c = 3 then t.bistPass ms else t

/-- In-rush requests of bring-up that have waited 60 s are given up, and their meadows stay dark (R407). -/
def State.dropLateRequests (s : State) : State :=
  let late := s.power.requests.filter fun r => r.cmd.isNone && decide (r.since + 60000000000 ≤ s.tclk)
  let t := { s with power := { s.power with requests := s.power.requests.filter fun r => !late.contains r } }
  late.foldl (fun t r => if t.meadowState r.meadow = 1 then t.setMeadow r.meadow 0 else t) t

/-- A step of the bench that runs ends (R399); a bench with no lit meadow is skipped (R407). -/
def State.benchStep (s : State) (f : Findings) (b : Nat) : State :=
  let s := s.dropLateRequests
  let ms := benchMeadows b
  let lit := ms.filter fun m => s.meadowState m = 3
  let busy := ms.any fun m => s.meadowState m = 2 || s.power.requests.any fun r => r.meadow = m
  let c := fld s.boot.status 42 40
  if c = 1 && busy then s
  else if lit.isEmpty then
    let t := if s.boot.found.isEmpty && s.boot.spFound.isEmpty then s else s.mapUpdate
    (t.modBoot fun v => setBit v (48 + b) true).startBench
  else
    let t := s.testStep f lit c
    let n := stepAfter (bit s.boot.status 59) c
    if n = 0 then (t.mapUpdate.modBoot fun v => setBit v (52 + b) true).startBench
    else t.modBoot fun v => setFld v 42 40 n

/-- A step of the tests of a meadow turned on after READY, in the quick form, and one map change at their end (R409, R377, R330). -/
def State.meadowTest (s : State) (f : Findings) (m c : Nat) (rest : List (Nat × Nat)) : State :=
  let t := s.testStep f [m] c
  let n := stepAfter true c
  if n ≠ 0 then { t with power := { t.power with tests := (m, n) :: rest } }
  else
    let t := t.repairFound.storeMap
    let items := t.boot.found ++ [MapItem.meadowLit m]
    let w := (t.map.waiting.erase (MapItem.meadowDark m))
    ({ t with power := { t.power with tests := rest }, boot := { t.boot with found := [] },
              map := { t.map with waiting := items.foldl addOnce w } }).mapIfIdle

/-- BENCH_STEP (R399, R407, R409). -/
def execBenchStep (f : Findings) (dt : Nat) (s : State) : Host.Outcome State Fault Refusal :=
  let t := s.pass dt
  .next (if t.phase = 4 then
      match t.bench with
      | some b => t.benchStep f b
      | none => t
    else match t.power.tests with
      | (m, c) :: rest => if t.phase = 6 then t.meadowTest f m c rest else t
      | [] => t)

/-- RETENTION_SOAK (R402): a group's 16 s pause ends, with a pattern and then its complement; after the last the soaks are done. -/
def execRetentionSoak (group : Fin 4) (rows : List (Stack × BitVec 21)) (s : State) : Host.Outcome State Fault Refusal :=
  .next (if s.boot.soaking && s.boot.soakDone / 2 = group.val then
    let n := s.boot.soakDone + 1
    let t := (s.spallRows (rows.map fun e => (e.1.val, e.2.toNat))).pauseGroup (if n = 8 then 0 else 2 ^ (n / 2))
    let t := { t with boot := { t.boot with soakDone := n, soaking := decide (n < 8) } }
    if n = 8 then t.modBoot fun v => setBit v 47 true else t
    else s)

/-! ### Recovery (R417, R418) -/

/-- A write of GAL_REC_CTRL's fields. -/
def recWrite (old v : BitVec 32) : BitVec 32 := setFld old 14 0 (fld v 14 0)

/-- GO (R418): the ROM fetches, checks and writes an image, and resets the panel; else it reports what failed. -/
def execGo (image : HostRead) (s : State) : Host.Outcome State Fault Refusal :=
  let err := fun (e : Nat) => { s with boot := { s.boot with recCtrl := setFld s.boot.recCtrl 27 24 e } }
  let len := fld s.boot.recCtrl 14 0
  .next (if ¬ s.boot.recovery ∨ fld s.boot.recCtrl 30 28 ≠ 0 then s
    else if len < 8 ∨ 16384 < len then err 1
    else match image with
      | .fail _ => err 5
      | .ok data =>
        let img := data.take (1024 * len)
        if img.length < 1024 * len then err 5
        else match imageError s.nv img with
          | some e => err e
          | none => ({ s with nv := { s.nv with image := img, imageOk := true } }).resetPanel s.pins.rimGood s.pins.panelResetN true)

end Sys2Proof.Machine
end

