-- ==== Sys2Proof/Machine/Auth.lean ====
section
/-! DEFINITION. Authorised operations, the lifecycle, fleet keys and the debug level (R429 to R437). -/

namespace Sys2Proof.Machine

/-! ### The registers of an authorised operation (R432) -/

/-- STATE of SEC_AUTH_CTRL: 0 IDLE, 1 READY, 2 VERIFYING, 3 APPLYING, 4 DONE, 5 FAILED. -/
def Sec.state (x : Sec) : Nat := fld x.authCtrl 29 27

/-- SEC_AUTH_CTRL with a STATE and an ERR. -/
def Sec.setState (x : Sec) (st err : Nat) : Sec := { x with authCtrl := setFld (setFld x.authCtrl 29 27 st) 23 20 err }

/-- SEC_AUTH_CTRL with an OP. -/
def Sec.setOp (x : Sec) (op : Nat) : Sec := { x with authCtrl := setFld x.authCtrl 7 0 op }

/-- An operation ends FAILED with an error (R432). -/
def State.authFail (s : State) (err : Nat) : State := { s with sec := s.sec.setState 5 err }

/-- An operation is DONE. -/
def State.authDone (s : State) : State := { s with sec := s.sec.setState 4 0 }

/-- A write of 1 to NEW: a nonce is drawn and STATE becomes READY (R432); while an operation is APPLYING it has no effect (DEDUCED from R437). -/
def State.authNew (s : State) : State :=
  if s.sec.state = 3 then s
  else { s.fresh.2 with sec := { s.sec.setState 1 0 with nonce := s.fresh.1, nonceAt := s.tclk } }

/-- NEW (R432). -/
def execNew (s : State) : Host.Outcome State Fault Refusal := .next s.authNew

/-- The 112-byte message of an operation (R432). -/
def State.authMessage (s : State) (op : Nat) : List Byte :=
  leBytes 1 op ++ leBytes 1 s.nv.lifecycle.toNat ++ leBytes 6 0 ++ leBytes 8 s.nv.serial.toNat ++ leBytes 32 s.sec.nonce.toNat
    ++ leBytes 64 s.sec.arg.toNat

/-! ### Keys (R430, R431) -/

/-- The fleet slots that are active: they hold a key that verified, and are not revoked. -/
def State.activeSlots (s : State) : List Nat :=
  (List.range 4).filter fun n => bit s.nv.fleetUsed n && bit s.sec.slotsOk n && !bit s.nv.fleetRevoked n

/-- The public key of a fleet slot. -/
def State.fleetKey (s : State) (n : Nat) : BitVec 512 := Tab.get 0 s.nv.fleetKey n

/-- The keys that may sign an operation (R431, R433). -/
def State.authKeys (s : State) (op : Nat) : List (BitVec 512) :=
  if op = 3 then [s.sec.arg]
  else if s.nv.lifecycle = 2 then
    (s.activeSlots.filter fun n => op ≠ 5 || n ≠ s.sec.arg.toNat % 256).map s.fleetKey
  else [Config.fusedKey 2]

/-- Whether SIG verifies over the message of an operation. -/
def State.authSigned (s : State) (op : Nat) : Bool :=
  (s.authKeys op).any fun k => Config.verifies k (s.authMessage op) s.sec.sig

/-! ### The operations (R433) -/

/-- Whether the table of R433 lists an operation for a lifecycle. -/
def opAllowed (op : Nat) (lc : BitVec 2) : Bool :=
  match op with
  | 1 => lc ≠ 0
  | 2 => lc = 0
  | 3 => lc = 1
  | 4 | 5 => lc = 2
  | 6 | 7 => lc = 1 || lc = 2
  | 8 => lc = 0 || lc = 3
  | _ => false

/-- The lowest empty fleet slot. -/
def State.emptySlot (s : State) : Option Nat := (List.range 4).find? fun n => !bit s.nv.fleetUsed n && !bit s.nv.fleetRevoked n

/-- Whether the argument of an operation is bad (ERR 4). -/
def State.argBad (s : State) (op : Nat) : Bool :=
  match op with
  | 2 => s.sec.arg ≠ 0 || !s.nv.identCert
  | 3 => false
  | 4 => s.emptySlot.isNone
  | 5 => 3 < s.sec.arg.toNat || (s.activeSlots.filter fun n => n ≠ s.sec.arg.toNat).isEmpty
  | _ => s.sec.arg ≠ 0

/-- Whether something bars an operation for now (R434): a firmware update, or a planned meadow power action. -/
def State.authBusy (s : State) : Bool := s.fw.cmd.isSome || !s.power.jobs.isEmpty || !s.power.turnOff.isEmpty

/-- A fleet key enters a slot; it is active at once (DEDUCED from R433 and R443). -/
def State.putKey (s : State) (n : Nat) : State :=
  { s with nv := { s.nv with fleetKey := Tab.set 0 s.nv.fleetKey n s.sec.arg, fleetUsed := setBit s.nv.fleetUsed n true },
           sec := { s.sec with slotsOk := setBit s.sec.slotsOk n true } }

/-- The lifecycle steps on (R429). -/
def State.stepLife (s : State) (lc : BitVec 2) : State := { s with nv := { s.nv with lifecycle := lc } }

/-- A core whose residencies are gone and whose memories are zero-filled (R437). -/
def Core.wiped (c : Core) : Core :=
  { c with res0 := .reset, res1 := .reset, istore := [], sp := { c.sp with slot0 := 0, slot1 := 0, mem := [], errs := [] } }

/-- Steps 4 to 6 of an unlock to FULL (R437). -/
def State.unlockEnd (s : State) : State :=
  let t := s.mapCores fun p c => if (s.logicalOf p).isSome then c.wiped else c
  let t := t.mapSetts fun _ x => { x with meshH0 := none, meshH1 := none }
  let t := { t with nv := { t.nv with fullCount := t.nv.fullCount + 1 }, sched := { t.sched with held := false } }
  State.authDone { t with sec := { t.sec with fullSince := true, level := 2 } }

/-- The end of an operation that closes every context first, once none is open: UNLOCK_FULL or RETIRE. -/
def State.authEnd (s : State) (op : Nat) : State :=
  if s.sec.state = 3 ∧ fld s.sec.authCtrl 7 0 = op ∧ s.openCtxs.isEmpty then
    (if op = 1 then s.unlockEnd else (s.stepLife 3).authDone)
  else s

/-- The start of such an operation: every context closes (R306), and for an unlock launches and loads are held. -/
def State.authClose (s : State) (op : Nat) : State :=
  let t := { s with sec := s.sec.setState 3 0, sched := { s.sched with held := s.sched.held || op = 1 } }
  let t := (t.openCtxs.filter fun n => (t.ctx n).any fun c => !c.closing).foldl State.startClose t
  t.closeStep.authEnd op

/-- What a verified operation does (R433). -/
def State.authApply (s : State) (op : Nat) : State :=
  match op with
  | 1 | 7 => s.authClose op
  | 2 => (s.stepLife 1).authDone
  | 3 => ((s.putKey 0).stepLife 2).authDone
  | 4 => (match s.emptySlot with
    | some n => s.putKey n
    | none => s).authDone
  | 5 => State.authDone { s with nv := { s.nv with fleetRevoked := setBit s.nv.fleetRevoked (s.sec.arg.toNat % 4) true } }
  | 6 => State.authDone { s with nv := { s.nv with minSvn := BitVec.ofNat 8 (max s.nv.minSvn.toNat (min 64 s.fw.svn.toNat)) } }
  | _ => State.authDone { s with nv := { s.nv with clearLists := true } }

/-- GO with an OP (R432 to R434): ignored unless STATE is READY; the errors are judged in the order busy, lifecycle, nonce, signature, argument
(DESIGN CHOICE, log entry 24). -/
def State.authGo (s : State) (op : Nat) : State :=
  if s.sec.state ≠ 1 then s
  else
    let t := { s with sec := s.sec.setOp op }
    if t.authBusy then t.authFail 5
    else if !opAllowed op t.nv.lifecycle then t.authFail 1
    else if t.sec.nonceAt + 600000000000 < t.tclk then t.authFail 3
    else if !t.authSigned op then t.authFail 2
    else if t.argBad op then t.authFail 4
    else t.authApply op

/-- UNLOCK_FULL (R433, R437): submitted, or finished once every context has closed. -/
def execUnlockFull (s : State) : Host.Outcome State Fault Refusal := .next (if s.sec.state = 3 then s.authEnd 1 else s.authGo 1)

/-- PROVISION (R433). -/
def execProvision (s : State) : Host.Outcome State Fault Refusal := .next (s.authGo 2)

/-- CLAIM (R433). -/
def execClaim (s : State) : Host.Outcome State Fault Refusal := .next (s.authGo 3)

/-- KEY_ADD (R433). -/
def execKeyAdd (s : State) : Host.Outcome State Fault Refusal := .next (s.authGo 4)

/-- KEY_REVOKE (R433). -/
def execKeyRevoke (s : State) : Host.Outcome State Fault Refusal := .next (s.authGo 5)

/-- SVN_COMMIT (R433). -/
def execSvnCommit (s : State) : Host.Outcome State Fault Refusal := .next (s.authGo 6)

/-- RETIRE (R433): submitted, or finished once every context has closed. -/
def execRetire (s : State) : Host.Outcome State Fault Refusal := .next (if s.sec.state = 3 then s.authEnd 7 else s.authGo 7)

/-- LISTS_CLEAR (R408, R433). -/
def execListsClear (s : State) : Host.Outcome State Fault Refusal := .next (s.authGo 8)

/-! ### The debug level (R435) -/

/-- A write of SEC_DBG_CTRL. -/
def Sec.dbgWrite (x : Sec) (v : BitVec 32) : Sec :=
  if x.level = 2 || 2 ≤ fld v 1 0 then x else { x with level := BitVec.ofNat 2 (fld v 1 0) }

/-- SEC_DBG_CTRL_WRITE (R435). -/
def execSecDbgCtrlWrite (v : BitVec 32) (s : State) : Host.Outcome State Fault Refusal := .next { s with sec := s.sec.dbgWrite v }

/-! ### Security registers -/

/-- SEC_STATUS. -/
def State.secStatus (s : State) : BitVec 64 :=
  BitVec.ofNat 64 (s.nv.lifecycle.toNat * 2 ^ 62 + s.sec.level.toNat * 2 ^ 60 + b2n s.sec.fullSince * 2 ^ 59
    + maskOf s.activeSlots * 2 ^ 52 + s.nv.fleetRevoked.toNat * 2 ^ 48 + s.nv.minSvn.toNat * 2 ^ 40 + s.nv.fullCount.toNat)

end Sys2Proof.Machine
end

