-- ==== Sys2Proof/Machine/Firmware.lean ====
section
/-! DEFINITION. Management cores, sett controllers, the update of firmware, and the interrupt controllers (R411 to R428). -/

namespace Sys2Proof.Machine

/-! ### Management cores and sett controllers (R412, R413) -/

/-- STATE of GAL_MC_STATUS_b. -/
def State.mcState (s : State) (g b : Nat) : Nat := fld (Tab.get 0 (s.gal g).mcStat b) 31 28

/-- MC_WATCHDOG_EXPIRY (R413): a restart, or FAILED on a second expiry within 10 minutes. -/
def execMcWatchdogExpiry (g : Gal) (b : Fin 4) (dt : Nat) (s : State) : Host.Outcome State Fault Refusal :=
  let t := s.pass dt
  let last := Tab.get 0 (t.gal g.val).mcExpAt b.val
  .next (if t.mcState g.val b.val ≠ 1 ∧ t.mcState g.val b.val ≠ 2 then t
    else
      let again := last ≠ 0 && t.tclk + 1 ≤ last + 600000000000
      let u := t.modGal g.val fun x =>
        { x with mcExpAt := Tab.set 0 x.mcExpAt b.val (t.tclk + 1),
                 mcStat := Tab.mod 0 x.mcStat b.val fun v => if again then setFld v 31 28 4 else setFld (satFld v 23 16 1) 31 28 3 }
      let u := u.edge g.val 600
      if !again then u else if g = 0 then u.alertBit 7 else (u.alertBit 7).galleryDies g.val)

/-- RESTART_COMPLETE (R413). -/
def execRestartComplete (g : Gal) (b : Fin 4) (s : State) : Host.Outcome State Fault Refusal :=
  .next (if s.mcState g.val b.val = 3 then
    s.modGal g.val fun x => { x with mcStat := Tab.mod 0 x.mcStat b.val fun v => setFld v 31 28 1 } else s)

/-- Whether a site is dead, in the lists or among the changes that wait. -/
def State.siteGone (s : State) (i : Nat) : Bool := s.nv.deadSites.contains i || s.map.waiting.contains (MapItem.deadSite i)

/-- SETT_CONTROLLER_PROBE (R413): three probes in a row without an answer confirm the site dead. -/
def execSettControllerProbe (site : Site) (answered : Bool) (s : State) : Host.Outcome State Fault Refusal :=
  let i := site.val
  .next (if ¬ (s.sett i).powered ∨ s.siteGone i then s
    else if answered then s.modSett i fun x => { x with missed := 0 }
    else
      let t := s.modSett i fun x => { x with missed := x.missed + 1 }
      if 3 ≤ (t.sett i).missed then t.siteDies i else t)

/-! ### The update (R419 to R423) -/

/-- PHASE of GAL_FW_STATE. -/
def Fw.phase (x : Fw) : Nat := fld x.state 63 60

/-- The number that marks an announcement (R420). -/
def announceNo : Nat := 0xFFFFFFFFFFFF

/-- The data of a chunk (R420): SUPPORT, then SCTL, in pieces of 2,048 B, and for the announcement header bytes 0x000 to 0x0BF. -/
def chunkData (img : List Byte) (n : Nat) : List Byte :=
  if n = announceNo then img.take 0xC0 else ((partOf img 2 ++ partOf img 1).drop (2048 * n)).take 2048

/-- The number of chunks of an image. -/
def chunkCount (img : List Byte) : Nat := ((partAt img 2).2 + (partAt img 1).2 + 2047) / 2048

/-- The payload of a chunk: its header, then its data. -/
def chunkPayload (img : List Byte) (n : Nat) : List Byte :=
  let d := chunkData img n
  leBytes 8 (imageVersion img).toNat ++ leBytes 4 (crc32 d) ++ leBytes 4 (chunkCount img) ++ leBytes 2 d.length ++ List.replicate 14 0 ++ d

/-- The FWCHUNK packet of a chunk to a mask of sites, from a gallery; stream 1 marks a repair (R249, R263, R420). -/
def chunkPacket (img : List Byte) (n g : Nat) (sites : List Nat) (repair : Bool) : Packet :=
  let d := chunkPayload img n
  { Packet.empty with opc := 15, tc := 3, sclass := 4, src := srcGal g 2, stream := BitVec.ofNat 8 (b2n repair), seq := BitVec.ofNat 16 n,
                      daddr := BitVec.ofNat 48 (2048 * n), aux := BitVec.ofNat 48 n, len := BitVec.ofNat 14 d.length, data := d,
                      didx := BitVec.ofNat 10 (320 + sites.headD 0),
                      mcx := some { sites := BitVec.ofNat 272 (maskOf sites), root := BitVec.ofNat 10 (320 + sites.headD 0), sctl := true, cores := 0 } }

/-- The chunk that a controller holds under a number. -/
def FwRecv.chunk (x : FwRecv) (n : Nat) : Option (List Byte) := (x.chunks.find? fun e => e.1 = n).map Prod.snd

/-- Whether a controller's SUPPORT matches the announced DIGEST (R421). -/
def FwRecv.supportOk (x : FwRecv) : Bool :=
  match x.chunk announceNo, x.chunk 0, x.chunk 1 with
  | some hdr, some a, some b => Config.sha256 (a ++ b) = BitVec.ofNat 256 (leAt hdr (0x30 + 96) 32)
  | _, _, _ => false

/-- The chunks 2 onward that a controller holds, in order: its SCTL data. -/
def FwRecv.sctlChunks (x : FwRecv) : List (List Byte) := (List.range' 2 (x.total - 2)).filterMap x.chunk

/-- Whether a controller's SCTL matches the announced DIGEST (R421). -/
def FwRecv.sctlOk (x : FwRecv) : Bool :=
  decide (2 ≤ x.total) && x.sctlChunks.length = x.total - 2
    && (match x.chunk announceNo with
      | some hdr => Config.sha256 x.sctlChunks.flatten = BitVec.ofNat 256 (leAt hdr (0x30 + 48) 32)
      | none => false)

/-- The check of the assembled parts after a round: a part with all its chunks whose DIGEST differs clears every one of its bits (R421). -/
def FwRecv.checked (x : FwRecv) : FwRecv :=
  let badSup := (x.chunk 0).isSome && (x.chunk 1).isSome && !x.supportOk
  let badSctl := decide (2 ≤ x.total) && x.sctlChunks.length = x.total - 2 && !x.sctlOk
  { x with chunks := x.chunks.filter fun e => e.1 = announceNo || !(if e.1 < 2 then badSup else badSctl) }

/-- Whether a controller holds every chunk with matching digests (R421). -/
def FwRecv.complete (x : FwRecv) : Bool := x.supportOk && x.sctlOk

/-- The chunks that a controller still needs. -/
def FwRecv.missing (x : FwRecv) (total : Nat) : List Nat :=
  (if (x.chunk announceNo).isNone then [announceNo] else []) ++ (List.range total).filter fun n => (x.chunk n).isNone

/-- A chunk or announcement enters a controller's store (R420). -/
def FwRecv.take (x : FwRecv) (k : Packet) : FwRecv :=
  let version := BitVec.ofNat 64 (leAt k.data 0 8)
  let d := (k.data.drop 32).take (leAt k.data 16 2)
  let good := leAt k.data 8 4 = crc32 d
  let n := k.aux.toNat
  if !good then x
  else if n = announceNo then
    (if x.version = version && (x.chunk announceNo).isSome then x
     else { version := version, total := leAt k.data 12 4, chunks := [(announceNo, d)] })
  else if x.version ≠ version || (x.chunk announceNo).isNone || (x.chunk n).isSome then x
  else { x with chunks := x.chunks ++ [(n, d)] }

/-- The live physical cores of a site (R421). -/
def State.physCores (s : State) (i : Nat) : List Nat := (List.range' (72 * i) 72).filter fun p => !s.nv.deadCores.contains p

/-- The inactive support region of a core holds the new support code (R420). -/
def Core.stageSupport (c : Core) (code : List Byte) : Core :=
  let base := if c.supHalf then 0 else 4096
  { c with support := Memory.write (Memory.zero c.support base 4096) base code }

/-- With both SUPPORT chunks held the controller writes them to its cores (R420). -/
def State.stageSite (s : State) (i : Nat) : State :=
  let x := (s.sett i).fw
  match x.chunk 0, x.chunk 1 with
  | some a, some b => (s.physCores i).foldl (fun t p => t.modCore p fun c => c.stageSupport (a ++ b)) s
  | _, _ => s

/-- COMPLETE of GAL_FW_STATE: controllers with the whole image and cores with its support code. -/
def State.fwComplete (s : State) : Nat :=
  sumN (s.fw.sites.map fun i => b2n (s.sett i).fw.complete + if (s.sett i).fw.supportOk then (s.physCores i).length else 0)

/-- The sites whose controller is not complete. -/
def State.fwLate (s : State) : List Nat := s.fw.sites.filter fun i => !(s.sett i).fw.complete

/-- A copy of a multicast has been delivered at a site: the packet goes on without it, or is answered (R249, R263). -/
def State.multicastTaken (s : State) (k : Packet) (i : Nat) : State :=
  match k.mcx with
  | some m =>
    let rest := m.sites &&& ~~~(BitVec.ofNat 272 (2 ^ i))
    if rest = 0 then
      let n := if k.stream = 0 then s.fw.sites.length else 1
      let a : Packet := { Packet.empty with opc := 4, sclass := 4, src := srcSett i, seq := k.seq, stream := k.stream, didx := didxOf k.src,
                                            aux := BitVec.ofNat 48 (2 ^ 32 + n * 2 ^ 15) }
      (s.take k).send [a]
    else { s with flight := s.flight.map fun x => if x = k then { x with mcx := some { m with sites := rest } } else x }
  | none => s.take k

/-- FWCHUNK (R420, R441): only SYS may send it. -/
def execFwchunk (site : Site) (k : Packet) (s : State) : Host.Outcome State Fault Refusal :=
  let i := site.val
  .next (if k.sclass ≠ 4 ∨ k.opc ≠ 15 ∨ ¬ (s.sett i).powered then s
    else
      let old := (s.sett i).fw
      let new := old.take k
      let t := (s.multicastTaken k i).modSett i fun x => { x with fw := new }
      let t := if k.aux.toNat < 2 && old ≠ new then t.stageSite i else t
      { t with fw := { t.fw with state := if 3 ≤ t.fw.phase && t.fw.phase ≤ 4 then setFld t.fw.state 31 16 t.fwComplete else t.fw.state } })

/-- The gallery of a site's quadrant (R412). -/
def quadrant (i : Nat) : Nat := (if i / 17 < 8 then 0 else 2) + if i % 17 ≤ 8 then 0 else 1

/-- The distribution begins (R419, R420): the flash is erased and written, and every chunk is multicast once to every live site. -/
def State.distribute (s : State) : State :=
  let img := s.fw.newImage
  let sites := (List.range 272).filter fun i => (s.sett i).powered && !s.siteGone i
  let n := sumN (sites.map fun i => 1 + (s.physCores i).length)
  let t := { s with nv := { s.nv with imageOk := false },
                    fw := { s.fw with state := setFld (setFld (setBit s.fw.state 57 true) 63 60 3) 47 32 n, sites := sites, tries := 0 } }
  t.send ((announceNo :: List.range (chunkCount img)).map fun n => chunkPacket img n 0 sites false)

/-- A repair round begins: each gallery sends the chunks that its quadrant's controllers lack (R421). -/
def State.repairRound (s : State) (round : Nat) : State :=
  let img := s.fw.newImage
  let ks := s.fwLate.flatMap fun i => ((s.sett i).fw.missing (chunkCount img)).map fun n => chunkPacket img n (quadrant i) [i] true
  ({ s with fw := { s.fw with state := setFld (setFld s.fw.state 63 60 4) 59 58 round } }).send ks

/-- Repair ends: the controllers still incomplete are to be fenced with their cores (R421). -/
def State.endRepair (s : State) : State :=
  let n := sumN (s.fwLate.map fun i => 1 + (s.physCores i).length)
  { s with fw := { s.fw with repaired := true, state := setFld (setFld s.fw.state 63 60 4) 15 0 n } }

/-- Every controller of the count checks its parts (R421). -/
def State.checkParts (s : State) : State := s.fw.sites.foldl (fun t i => t.modSett i fun x => { x with fw := x.fw.checked }) s

/-- REPAIR_ROUND_END (R421): receivers check and report after the multicast and after each round; three rounds at most. -/
def execRepairRoundEnd (dt : Nat) (s : State) : Host.Outcome State Fault Refusal :=
  let t := s.pass dt
  let t := if 3 ≤ t.fw.phase ∧ t.fw.phase ≤ 4 then t.checkParts else t
  let t := { t with fw := { t.fw with state := if 3 ≤ t.fw.phase && t.fw.phase ≤ 4 then setFld t.fw.state 31 16 t.fwComplete else t.fw.state } }
  .next (if t.fw.cmd.isNone ∨ bit t.fw.state 56 ∨ t.fw.repaired then t
    else if t.fw.phase = 3 then (if t.fwLate.isEmpty then t.endRepair else t.repairRound 1)
    else if t.fw.phase = 4 then
      (if t.fwLate.isEmpty ∨ fld t.fw.state 59 58 = 3 then t.endRepair else t.repairRound (fld t.fw.state 59 58 + 1))
    else t)

/-- The update ends in a phase, with a record for its command. -/
def State.endUpdate (s : State) (phase status receivers : Nat) (at_ : BitVec 64) : State :=
  match s.fw.cmd with
  | none => s
  | some c =>
    let t := { s with fw := { s.fw with cmd := none, state := setFld s.fw.state 63 60 phase, tAct := none, restarting := false, repaired := false },
                      sched := { s.sched with held := false } }
    t.complete c { cmdAnswer c status with result := BitVec.ofNat 32 receivers, dataA := at_ }

/-- FLASH_WRITE_DONE (R419, R423): the read-back passes, or the attempt fails; three failures end the update. -/
def execFlashWriteDone (ok : Bool) (s : State) : Host.Outcome State Fault Refusal :=
  let t := s.edge 0 599
  .next (if ¬ bit s.fw.state 57 then s
    else if ok then
      let u := { t with nv := { t.nv with image := t.fw.newImage, imageOk := true }, fw := { t.fw with state := setBit t.fw.state 57 false } }
      if bit u.fw.state 56 then u.endUpdate 6 0 0 0 else u
    else
      let u := { t with fw := { t.fw with tries := t.fw.tries + 1 } }
      if 3 ≤ u.fw.tries then
        ({ u with fw := { u.fw with state := setBit u.fw.state 57 false } }).endUpdate 7 0x15 0 0
      else u)

/-- HOLD_BEGIN (R422): launches and loads stop; with the ledger IDLE and no load running T_act is multicast. -/
def execHoldBegin (dt : Nat) (s : State) : Host.Outcome State Fault Refusal :=
  let t := s.pass dt
  let now := t.g0Time.toNat
  let ready := t.fw.cmd.isSome && t.fw.phase = 4 && t.fw.repaired && !bit t.fw.state 57 && t.fw.actTime.toNat ≤ now + 1000000
  let u := if ready then { t with fw := { t.fw with state := setFld t.fw.state 63 60 5 }, sched := { t.sched with held := true } } else t
  .next (if u.fw.phase = 5 ∧ u.fw.tAct.isNone ∧ u.ledger.state = .idle ∧ u.fill.running.isNone then
    let a := BitVec.ofNat 64 (max u.fw.actTime.toNat (now + 1000000))
    { u with fw := { u.fw with tAct := some a, act := a } }
    else u)

/-- Every non-fenced receiver switches to the new image, and the fences are one map change (R421, R422). -/
def State.activate (s : State) : State :=
  let late := s.fwLate
  let good := s.fw.sites.filter fun i => !late.contains i
  let img := s.fw.newImage
  let t := (good.flatMap s.physCores).foldl (fun t p => t.modCore p fun c => { c with supHalf := !c.supHalf }) s
  let n := sumN (late.map fun i => 1 + (s.physCores i).length)
  let t := late.foldl State.siteDies t
  let t := { t with fw := { t.fw with running := img, version := imageVersion img, svn := imageSvn img, restarting := true,
                                      state := setFld t.fw.state 15 0 n } }
  if late.isEmpty then t else t.mapIfIdle

/-- ACTIVATION (R422): at T_act the receivers switch and restart; when all have reported, launches, loads and fetch resume and the update
completes. -/
def execActivation (dt : Nat) (s : State) : Host.Outcome State Fault Refusal :=
  let t := s.pass dt
  .next (match t.fw.tAct with
    | none => t
    | some a =>
      if t.g0Time.toNat < a.toNat then t
      else if !t.fw.restarting then t.activate
      else
        let n := fld t.fw.state 15 0
        (t.endUpdate 6 0 n a).panelEvent (event 0x8A n a.toNat))

/-! ### Interrupt controllers (R424 to R427) -/

/-- Whether core b may claim source n (R425). -/
def Gallery.claimable (x : Gallery) (b n : Nat) : Bool :=
  let v := x.icu n
  bit v 0 && bit v 31 && !bit v 30 && fld v 25 24 = b && !bit x.icuCtrl 31

/-- The claimable source of the highest PRIO, the lowest number on ties (R425). -/
def Gallery.best (x : Gallery) (b : Nat) : Option Nat :=
  ((List.range 1024).filter (x.claimable b)).foldl (fun a n => match a with
    | none => some n
    | some m => if fld (x.icu m) 29 27 < fld (x.icu n) 29 27 then some n else a) none

/-- The gallery after a claim by core b, and what ICU_CLAIM_b reads. -/
def Gallery.claim (x : Gallery) (b : Nat) : Gallery × BitVec 32 :=
  match x.best b with
  | none => (x, 0)
  | some n =>
    let v := setBit (x.icu n) 30 true
    let y := x.setIcu n (if levelSource n then v else setBit v 0 false)
    let keep := n = 595 || n = 597
    ({ y with claims := Tab.set 0 y.claims n (b + 1), levels := if keep then y.levels else y.levels.filter fun k => k ≠ n },
     BitVec.ofNat 32 (2 ^ 31 + n))

/-- ICU_CLAIM (R425): a read of ICU_CLAIM_b. -/
def execIcuClaim (g : Gal) (b : Fin 4) (s : State) : Host.Outcome State Fault Refusal :=
  let r := (s.gal g.val).claim b.val
  .next { s.setGal g.val r.1 with access := { status := 0, data := leBytes 4 r.2.toNat } }

/-- Whether the condition of a level source holds (R424, R425). -/
def State.levelHolds (s : State) (g n : Nat) : Bool :=
  if n = 597 then s.pins.thermtrip
  else if n = 595 then (List.range 8).any fun m => 5 ≤ s.meadowState m
  else (s.gal g).levels.contains n

/-- A completion by core b (R425). -/
def State.icuComplete (s : State) (g b n : Nat) : State :=
  if Tab.get 0 (s.gal g).claims n ≠ b + 1 then s
  else
    let hold := s.levelHolds g n
    s.modGal g fun x =>
      let v := setBit (x.icu n) 30 false
      let y := x.setIcu n (if levelSource n then setBit v 0 hold else v)
      { y with claims := Tab.set 0 y.claims n 0, levels := if hold then y.levels else y.levels.filter fun k => k ≠ n }

/-- ICU_COMPLETE (R425). -/
def execIcuComplete (g : Gal) (b : Fin 4) (v : BitVec 32) (s : State) : Host.Outcome State Fault Refusal :=
  .next (s.icuComplete g.val b.val (fld v 9 0))

/-- ICU_SGI (R424): a software interrupt of the private bank of a core. -/
def execIcuSgi (g : Gal) (v : BitVec 32) (s : State) : Host.Outcome State Fault Refusal :=
  .next (s.edge g.val (64 * fld v 5 4 + fld v 3 0))

/-- A write of ICU_CTRL (R426): cleared GDIS delivers what is pending, and wakes cores that wait. -/
def Gallery.writeGdis (x : Gallery) (v : BitVec 32) : Gallery :=
  let y := { x with icuCtrl := setBit 0 31 (bit v 31) }
  (List.range 1024).foldl (fun y n => if bit (y.icu n) 0 && !bit (y.icu n) 30 then y.wakeMc n else y) y

/-- GDIS (R426). -/
def execGdis (g : Gal) (v : BitVec 32) (s : State) : Host.Outcome State Fault Refusal := .next (s.modGal g.val fun x => x.writeGdis v)

/-- INTERRUPT_EDGE (R425, R427). -/
def execInterruptEdge (g : Gal) (n : Fin 1024) (s : State) : Host.Outcome State Fault Refusal := .next (s.edge g.val n.val)

end Sys2Proof.Machine
end

