-- ==== Sys2Proof/Machine/HostRows.lean ====
section
/-! DEFINITION. Ports, functions, doorbells, fetching and posting, MSI-X, host memory, and the checks of a command (R290 to R323, R332, R336
to R338). -/

namespace Sys2Proof

/-- Whether a path is an I/O queue. -/
def Src.io : Src → Bool
  | .queue _ _ qp => qp.val ≠ 0
  | .mctp => false

/-- Whether a path is the management path: the admin queue of PF0 of P0, or MCTP. -/
def Src.mgmt : Src → Bool
  | .queue port vf qp => port.val = 0 && vf.val = 0 && qp.val = 0
  | .mctp => true

/-- Whether a path is the admin queue of a function. -/
def Src.admin : Src → Bool
  | .queue _ _ qp => qp.val = 0
  | .mctp => false

/-- The function of a path, PF0 of P0 for MCTP. -/
def Src.fn : Src → Nat
  | .queue port vf _ => fnIndex port vf
  | .mctp => 0

/-- The command has a recovery pair. -/
def Cmd.paired (c : Cmd) : Bool := c.epoch ≠ 0 || c.stepId ≠ 0

end Sys2Proof

namespace Sys2Proof.Machine

/-! ### Functions -/

/-- GAL_FN_STATUS.STATE: 0 INITIALISING, 1 READY, 2 FAILED (R292, R406, R407, R413). -/
def State.fnState (s : State) : Nat :=
  if s.phase = 7 || (List.range 4).any (fun b => s.mcState 0 b = 4) then 2 else if s.phase = 6 then 1 else 0

/-- Whether firmware serves the ports: from the end of VERIFY on, with the rim powered (R291, R317, R445). -/
def State.served (s : State) : Bool := 2 ≤ s.phase && !s.boot.recovery && s.pins.rimGood

/-- Whether a function exists: PF0, or a VF while they are enabled; none on a failed gallery. -/
def State.fnExists (s : State) (port vf : Nat) : Bool := !(s.gal port).failed && (vf = 0 || (s.gal port).vfsOn)

/-- GAL_FN_STATUS of a function. -/
def State.fnStatus (s : State) (port vf : Nat) : BitVec 32 :=
  BitVec.ofNat 32 (s.fnState * 2 ^ 28 + port * 2 ^ 26 + b2n (vf = 0) * 2 ^ 24 + vf * 2 ^ 18)

/-- Whether a function's queues may fetch and post: it exists, is in D0, and its link is up (R298, R312). -/
def State.fnLive (s : State) (f : Nat) : Bool :=
  s.fnExists (f / 64) (f % 64) && !(s.fn f).d3hot && (s.gal (f / 64)).linkUp && s.served

/-! ### MSI-X (R315, R316) -/

/-- The message of a vector is sent, or its pending bit set while it is masked; a table entry is masked at reset (PRESUMED, log entry 18). -/
def State.signal (s : State) (f vector : Nat) : State :=
  let x := s.fn f
  if x.fnMask || Tab.get true x.mask vector then s.modFn f fun x => { x with pendBit := Tab.set false x.pendBit vector true }
  else { s with host := { s.host with out := s.host.out ++ [HostOut.msix (f / 64) (f % 64) vector] } }

/-- A vector's mask bit is written; unmasking sends what is pending. -/
def State.maskVector (s : State) (f vector : Nat) (masked : Bool) : State :=
  let t := s.modFn f fun x => { x with mask := Tab.set true x.mask vector masked }
  if !masked && !(t.fn f).fnMask && Tab.get false (t.fn f).pendBit vector then
    (t.modFn f fun x => { x with pendBit := Tab.set false x.pendBit vector false }).signal f vector
  else t

/-- MSIX_UNMASK (R316). -/
def execMsixUnmask (port : Gal) (vf : Fin 64) (vector : Fin 2048) (s : State) : Host.Outcome State Fault Refusal :=
  .next (if s.fnExists port.val vf.val then s.maskVector (fnIndex port vf) vector.val false else s)

/-- A record has been posted: the vector's message goes out once THRESH records are unsignalled (R315). -/
def State.coalesce (s : State) (k : Nat) : State :=
  match s.qp k with
  | none => s
  | some q =>
    if !q.ien then s
    else
      let n := q.unsig + 1
      if max 1 q.thresh.toNat ≤ n then (s.setQp k (some { q with unsig := 0 })).signal (k / 1024) q.vector
      else s.setQp k (some { q with unsig := n, unsigAt := if q.unsig = 0 then s.tclk else q.unsigAt })

/-- MSIX_COALESCE_TIMEOUT (R315). -/
def execMsixCoalesceTimeout (port : Gal) (vf : Fin 64) (qp : Fin 1024) (dt : Nat) (s : State) : Host.Outcome State Fault Refusal :=
  let t := s.pass dt
  let k := qpKey (fnIndex port vf) qp.val
  .next (match t.qp k with
    | none => t
    | some q =>
      if q.unsig ≠ 0 ∧ q.time ≠ 0 ∧ q.unsigAt + 100 * q.time.toNat ≤ t.tclk ∧ ¬ (t.fn (k / 1024)).d3hot then
        (t.setQp k (some { q with unsig := 0 })).signal (k / 1024) q.vector
      else t)

/-! ### Doorbells and queue errors (R308, R311) -/

/-- A queue pair enters ERROR (R311). -/
def State.queueError (s : State) (k kind : Nat) : State :=
  let f := k / 1024
  let t := s.modQp k fun q => { q with error := true }
  let t := t.modFn f fun x => { x with err := setFld (setFld (setBit x.err 31 true) 30 29 kind) 25 16 (k % 1024) }
  t.fnEvent f (event 0x82 (k % 1024 * 2 ^ 16 + kind) 0)

/-- A doorbell write for an absent queue pair is counted (R308). -/
def State.strayBell (s : State) (f : Nat) : State := s.modFn f fun x => { x with err := satFld x.err 15 0 1 }

/-- A write of an SQ tail doorbell. -/
def State.sqBell (s : State) (k tail : Nat) : State :=
  let t := s.edge (k / 1024 / 64) 256
  match t.qp k with
  | none => t.strayBell (k / 1024)
  | some q => if tail = q.sqTail then t else if q.sqDepth ≤ tail then t.queueError k 0 else t.setQp k (some { q with sqTail := tail })

/-- SQ_DOORBELL (R308). -/
def execSqDoorbell (port : Gal) (vf : Fin 64) (qp : Fin 1024) (v : BitVec 32) (s : State) : Host.Outcome State Fault Refusal :=
  .next (if s.fnExists port.val vf.val then s.sqBell (qpKey (fnIndex port vf) qp.val) (fld v 15 0) else s)

/-- Freed completion entries let waiting events in. -/
def State.pumpQp (s : State) (k : Nat) : State :=
  if k % 1024 = 0 then s.pumpFn (k / 1024)
  else (s.openCtxs.filter fun n => (s.ctx n).any fun c => c.evq = some k).foldl State.pumpCtx s

/-- A write of a CQ head doorbell. -/
def State.cqBell (s : State) (k head : Nat) : State :=
  let t := s.edge (k / 1024 / 64) 257
  match t.qp k with
  | none => t.strayBell (k / 1024)
  | some q =>
    if head = q.cqHead then t
    else if q.cqDepth ≤ head ∨ ringUsed q.cqDepth q.cqHead q.cqTail < ringUsed q.cqDepth q.cqHead head then t.queueError k 1
    else (t.setQp k (some { q with cqHead := head })).pumpQp k

/-- CQ_DOORBELL (R308). -/
def execCqDoorbell (port : Gal) (vf : Fin 64) (qp : Fin 1024) (v : BitVec 32) (s : State) : Host.Outcome State Fault Refusal :=
  .next (if s.fnExists port.val vf.val then s.cqBell (qpKey (fnIndex port vf) qp.val) (fld v 15 0) else s)

/-! ### The admin queue (R307) -/

/-- Whether a function has an I/O queue pair. -/
def State.hasIo (s : State) (f : Nat) : Bool := s.host.qps.any fun e => e.1 / 1024 = f && e.1 % 1024 ≠ 0

/-- The admin queue of a function is enabled, with both indices 0. -/
def State.enableAq (s : State) (f : Nat) : State :=
  let x := s.fn f
  let sd := fld x.aqCfg 11 0
  let cd := fld x.aqCfg 27 16
  if s.hasIo f || bit x.aqCfg 31 || sd = 0 || cd = 0 then s
  else
    let q : Qp := { ctx := 0, sqBase := x.asqBase.setWidth 48, cqBase := x.acqBase.setWidth 48, sqDepth := sd + 1, cqDepth := cd + 1, sqHead := 0,
                    sqTail := 0, cqHead := 0, cqTail := 0, phase := true, vector := 0, ien := true, thresh := 0, time := 0, unsig := 0, unsigAt := 0,
                    error := false, reserved := 0, deleting := false, due := [], deleter := [] }
    ((s.modFn f fun x => { x with aqCfg := setFld x.aqCfg 31 30 3 }).setQp (qpKey f 0) (some q)).pumpFn f

/-- The admin queue of a function is disabled. -/
def State.disableAq (s : State) (f : Nat) : State := (s.modFn f fun x => { x with aqCfg := setFld x.aqCfg 31 30 0 }).setQp (qpKey f 0) none

/-- AQ_ENABLE (R307). -/
def execAqEnable (port : Gal) (vf : Fin 64) (s : State) : Host.Outcome State Fault Refusal :=
  .next (if s.fnExists port.val vf.val then s.enableAq (fnIndex port vf) else s)

/-! ### Host memory (R299 to R301) -/

/-- The read response to a request with a status and data (R134, R249). -/
def readAnswer (k : Packet) (src : BitVec 15) (cls : BitVec 3) (st : BitVec 4) (data : List Byte) : Packet :=
  { Packet.empty with opc := 2, tc := 2, sclass := cls, daddr := k.aux, seq := k.seq, stream := k.stream, src := src, status := st,
                      len := BitVec.ofNat 14 (if st = 0 then data.length else 0), didx := didxOf k.src, data := if st = 0 then data else [] }

/-- The acknowledgement of one packet with a status (R253). -/
def ackOf (k : Packet) (src : BitVec 15) (cls : BitVec 3) (st : BitVec 4) : Packet :=
  { Packet.empty with opc := 4, sclass := cls, seq := k.seq, stream := k.stream, src := src, status := st, aux := BitVec.ofNat 48 (2 ^ 32),
                      didx := didxOf k.src }

/-- The function of context n on a port: SYS traffic uses PF0 (R299). -/
def State.fnOnPort (s : State) (port : Nat) (cls : BitVec 3) (n : Nat) : Option Nat :=
  if cls = 4 then some (64 * port) else (s.ctx n).bind fun c => c.bound.find? fun f => f / 64 = port

/-- A command's record waits until zero-byte reads through the ports that carried its writes have completed (R301). -/
def State.completeAfter (s : State) (c : Cmd) (r : Rec) (fns : List Nat) : State :=
  if fns.isEmpty then s.complete c r
  else
    let ids := (List.range' s.host.nextReq fns.length).zip fns
    let reqs := ids.map fun e => ({ id := e.1, port := e.2 / 64, packet := { Packet.empty with ctx := BitVec.ofNat 10 c.ctx } } : HostReq)
    let outs := fns.map fun f => HostOut.flush (f / 64) (f % 64)
    let fl : Flush := { ids := ids.map fun e => (e.2 / 64, e.1), cmd := c, answer := r }
    let h := { s.host with reqs := s.host.reqs ++ reqs, out := s.host.out ++ outs }
    { s with host := { h with nextReq := h.nextReq + fns.length, flushes := h.flushes ++ [fl] } }

/-- A zero-byte read has ended; records that wait for nothing more complete. -/
def State.flushed (s : State) (port id : Nat) : State :=
  let fs := s.host.flushes.map fun x => { x with ids := x.ids.erase (port, id) }
  let t := { s with host := { s.host with flushes := fs.filter fun x => !x.ids.isEmpty } }
  (fs.filter fun x => x.ids.isEmpty).foldl (fun t x => t.complete x.cmd x.answer) t

/-- A request to host memory ends with a status and data. -/
def State.endRequest (s : State) (r : HostReq) (st : BitVec 4) (data : List Byte) : State :=
  let t := { s with host := { s.host with reqs := s.host.reqs.erase r } }
  if r.packet.opc = 1 then t.send [readAnswer r.packet (srcGal r.port 0) 4 st data]
  else t.flushed r.port r.id

/-- HOST_COMPLETION (R300). -/
def execHostCompletion (port : Gal) (id : Nat) (o : LinkOutcome) (s : State) : Host.Outcome State Fault Refusal :=
  .next (match s.host.reqs.find? fun r => r.port = port.val && r.id = id with
    | none => s
    | some r => (match o with
      | .success data => s.endRequest r stOk (data.take r.packet.len.toNat)
      | .unsupported | .completerAbort => s.endRequest r stDenied []
      | .poisoned => s.endRequest r stUe []).closeStep)

/-- COMPLETION_TIMEOUT (R300). -/
def execCompletionTimeout (port : Gal) (id : Nat) (s : State) : Host.Outcome State Fault Refusal :=
  .next (match s.host.reqs.find? fun r => r.port = port.val && r.id = id with
    | none => s
    | some r => (s.endRequest r stTimeout []).closeStep)

/-- Every request of a port that `p` selects ends with a status. -/
def State.endRequests (s : State) (port : Nat) (p : HostReq → Bool) (st : BitVec 4) : State :=
  (s.host.reqs.filter fun r => r.port = port && p r).foldl (fun t r => t.endRequest r st []) s

/-! ### Resets of functions and ports (R291, R298, R305, R312) -/

/-- Passes still queued from a queue pair end without launching; the pair is gone at once. -/
def State.killQp (s : State) (k : Nat) : State :=
  let mine := s.sched.queue.filter fun q => q.cmd.src.key = some k
  let t := mine.foldl (fun t q => t.endUnlaunched q 0x0C) s
  let t := { t with sched := { t.sched with chains := t.sched.chains.filter fun e => e.1.key ≠ some k } }
  let t := t.openCtxs.foldl (fun t n => t.modCtx n fun c => if c.evq = some k then { c with evq := none } else c) t
  t.setQp k none

/-- A function is unbound from context n: its queue pairs of that context go, and host requests of the context on that port end with
ACCESS_DENIED (R305). -/
def State.detach (s : State) (n f : Nat) : State :=
  let ks := (s.host.qps.map Prod.fst).filter fun k => k / 1024 = f && k % 1024 ≠ 0 && (s.qp k).any fun q => q.ctx.toNat = n
  let t := ks.foldl State.killQp s
  (t.endRequests (f / 64) (fun r => r.packet.ctx.toNat = n && r.packet.opc = 1) stDenied).modCtx n fun c => { c with bound := c.bound.erase f }

/-- An FLR of one function (R298). -/
def State.flr1 (s : State) (f : Nat) : State :=
  let homes := s.openCtxs.filter fun n => (s.ctx n).any fun c => c.home = f && !c.closing
  let t := homes.foldl State.startClose s
  let others := t.openCtxs.filter fun n => (t.ctx n).any fun c => c.home ≠ f && c.bound.contains f
  let t := others.foldl (fun t n => t.detach n f) t
  let t := ((t.host.qps.map Prod.fst).filter fun k => k / 1024 = f).foldl State.killQp t
  (t.disableAq f).modFn f fun x => { x with mask := [], pendBit := [], msgAddr := [], msgData := [], fnMask := false, d3hot := false }

/-- An FLR of a function; of PF0, also of every VF of its port. -/
def State.flr (s : State) (port vf : Nat) : State :=
  if vf = 0 then ((List.range 64).foldl (fun t v => t.flr1 (64 * port + v)) s).closeStep else (s.flr1 (64 * port + vf)).closeStep

/-- FLR (R298). -/
def execFlr (port : Gal) (vf : Fin 64) (s : State) : Host.Outcome State Fault Refusal :=
  .next (if s.fnExists port.val vf.val then (s.flr port.val vf.val).edge port.val 259 else s)

/-- VF_ENABLE (R293, R298). -/
def execVfEnable (port : Gal) (enable : Bool) (s : State) : Host.Outcome State Fault Refusal :=
  .next (if (s.gal port.val).vfsOn = enable then s
    else
      let t := if enable then s else (List.range' 1 63).foldl (fun t v => t.flr1 (64 * port.val + v)) s
      ((t.modGal port.val fun x => { x with vfsOn := enable }).closeStep).edge port.val 259)

/-- D_STATE_CHANGE (R298). -/
def execDStateChange (port : Gal) (vf : Fin 64) (d3hot : Bool) (s : State) : Host.Outcome State Fault Refusal :=
  .next (if s.fnExists port.val vf.val then (s.modFn (fnIndex port vf) fun x => { x with d3hot := d3hot }).edge port.val 259 else s)

/-- A port's link goes down: requests through it end with DEST_ABSENT (R27, R312). -/
def State.linkDown (s : State) (port : Nat) : State :=
  (s.modGal port fun x => { x with linkUp := false }).endRequests port (fun _ => true) stAbsent

/-- PORT_LINK_DOWN (R312): the link goes down, or comes up where the port is not held in Detect (R292). -/
def execPortLinkDown (port : Gal) (up : Bool) (s : State) : Host.Outcome State Fault Refusal :=
  .next (if (s.gal port.val).linkUp = up then s
    else if ¬ up then ((s.linkDown port.val).closeStep).edge port.val 258
    else if (s.gal port.val).failed ∨ ¬ s.pins.rimGood ∨ ¬ s.pins.panelResetN ∨ (s.boot.recovery ∧ port.val ≠ 0) then s
    else (s.modGal port.val fun x => { x with linkUp := true }).edge port.val 258)

/-- PERST (R291). -/
def execPerst (port : Gal) (kind : PortReset) (s : State) : Host.Outcome State Fault Refusal :=
  let t := ((s.linkDown port.val).flr port.val 0).edge port.val 258
  .next (if kind = .perst then t.edge port.val 260 else t)

/-! ### The checks of a command (R318 to R320, R323) -/

/-- The assigned opcodes (R323). -/
def opcodes : List Nat :=
  [0x01, 0x02, 0x03, 0x04, 0x05, 0x06, 0x07, 0x08, 0x10, 0x11, 0x18, 0x19, 0x1A, 0x1B, 0x1C, 0x1D, 0x1E, 0x20, 0x21, 0x22, 0x30, 0x31, 0x32,
   0x33, 0x34, 0x35, 0x36, 0x40, 0x48]

/-- Whether an opcode acts on a context. -/
def opCtx (op : Nat) : Bool := (2 ≤ op && op ≤ 6) || (0x10 ≤ op && op ≤ 0x22) || op = 0x33 || op = 0x34

/-- Whether the path and the function may carry the command (R323); with the lifecycle RETIRED and the level below FULL nothing that needs
a context may (R445). -/
def State.permitted (s : State) (c : Cmd) : Bool :=
  let op := c.op
  let x := s.ctx c.ctx
  let path :=
    if op = 0x01 then c.src.admin
    else if op = 0x02 || op = 0x05 then
      c.src.mgmt || (c.src.admin && !(x.any fun x => x.bound.contains c.src.fn && x.home ≠ c.src.fn))
    else if op = 0x03 then c.src.admin && !(x.any fun x => x.home / 64 = c.src.fn / 64)
    else if op = 0x04 || op = 0x06 || op = 0x07 then c.src.admin
    else if op = 0x08 then c.src.admin && c.src.fn % 64 = 0
    else if op = 0x21 then c.src.io || c.src.mgmt
    else if op < 0x30 then c.src.io
    else if op = 0x40 then true
    else c.src.mgmt
  path && !(s.nv.lifecycle = 3 && s.sec.level ≠ 2 && (op = 1 || opCtx op))

/-- The bits that an opcode uses of w2, w3, w4 and w5. -/
def usedBits (op : Nat) : Nat × Nat × Nat × Nat :=
  let all := 2 ^ 64 - 1
  let a48 := 2 ^ 48 - 1
  let bus := 2 ^ 45 - 1
  if op = 0x01 then (0xFFFF01FF, 0, 0, 0)
  else if op = 0x03 then (all, 0, 0, 0)
  else if op = 0x05 then (0xE0000000FFFF01FF, all, 0, 0)
  else if op = 0x06 then (bus - 4095, bus - 4095, 2 ^ 64 - 2 ^ 19 + 0xFFFF, 0)
  else if op = 0x07 then (0x3FF, 0, 0, 0)
  else if op = 0x08 then (0xFFFFFFFF003F, 0, 0, 0)
  else if op = 0x10 then (a48, all, 3, 0)
  else if op = 0x11 then (a48, all, 0, 0)
  else if op = 0x18 then (a48, 0, 0, 0)
  else if op = 0x19 || op = 0x1A || op = 0x1C then (0x7FFFF, 0, 0, 0)
  else if op = 0x1B then (bus - 4095, a48, 0, 0)
  else if op = 0x1D || op = 0x1E then (2 ^ 63 + 0x7FFFF, 0, 0, 0)
  else if op = 0x20 then (2 ^ 64 - 2 ^ 41, all, 0, 0)
  else if op = 0x21 then (2 ^ 63 + 0x3FF, 0xFFFFFFFF, 0, 0)
  else if op = 0x22 then (a48, a48, 0xFFFFFFFF, 0)
  else if op = 0x30 then (15, 0, 0, 0)
  else if op = 0x31 || op = 0x32 then (all, all, all, 0)
  else if op = 0x33 then (0x3FF013F, all, 0, 0)
  else if op = 0x34 then (1, a48, 0xFFFF, 0)
  else if op = 0x35 then (0x1FF, 0, 0, 0)
  else if op = 0x40 then (0xFF, bus, 0xFFFFFFFF, all)
  else if op = 0x48 then (bus, 0xFFFFFFFF, all, 0)
  else (0, 0, 0, 0)

/-- Whether a word uses no bit outside a mask. -/
def onlyBits (w : BitVec 64) (mask : Nat) : Bool := w.toNat &&& mask == w.toNat

/-- Whether a TLIMIT_MS is in range. -/
def limitOk (w2 : BitVec 64) : Bool := fld w2 31 16 ≤ 60000

/-- The range rules of the opcodes' parameters (R324 to R330). -/
def State.paramsOk (s : State) (c : Cmd) : Bool :=
  let d := c.desc
  let op := c.op
  if op = 0x01 then limitOk d.w2
  else if op = 0x05 then !bit d.w2 62 || limitOk d.w2
  else if op = 0x06 then fld d.w4 63 48 ≠ 0 && fld d.w4 47 32 ≠ 0
  else if op = 0x07 then d.w2 ≠ 0
  else if op = 0x08 then fld d.w2 5 0 ≠ 0
  else if op = 0x10 then (createParts c).isSome
  else if op = 0x20 then
    (bit d.w2 44 || (!bit d.w2 43 && !bit d.w2 41 && d.w3 = 0)) && (!bit d.w2 41 || d.w3 = 0)
      && (!bit d.w2 42 || s.sched.chains.any fun e => e.1 = c.src)
  else if op = 0x22 then d.w4.toNat % 8 = 0 && d.w4 ≠ 0 && !(bit d.w2 47 && bit d.w3 47)
  else if op = 0x40 then d.w2.toNat ≤ 5 && (c.src ≠ .mctp || d.w3 = 0)
  else if op = 0x48 then d.w4.toNat ≤ s.g0Time.toNat + 3600000000000
  else true

/-- Check 5 of R320: reserved fields, EXT and parameters. A recovery pair that the opcode does not accept is an invalid field too (R336). -/
def State.fieldsOk (s : State) (c : Cmd) : Bool :=
  let d := c.desc
  let op := c.op
  let m := usedBits op
  let ext := bit d.w0 48
  fld d.w0 55 49 = 0 && fld d.w0 37 32 = 0 && (ext = (op = 0x31 || op = 0x32) || (ext && op = 0x20)) && d.ext.isSome = ext
    && onlyBits d.w2 m.1 && onlyBits d.w3 m.2.1 && onlyBits d.w4 m.2.2.1 && onlyBits d.w5 m.2.2.2 && d.w6 = 0 && d.w7 = 0
    && (c.src.io || opCtx op || op = 0x40 || c.ctx = 0) && s.paramsOk c

/-- Whether an opcode accepts a recovery pair (R323). -/
def recoverable (op : Nat) : Bool := !(op = 0x21 || op = 0x36 || op = 0x40 || op = 0x48)

/-- Check 6 of R320: the context is open and the submitter may act for it; a close of a CLOSING context goes on (R306). -/
def State.ctxOk (s : State) (c : Cmd) : Bool :=
  let op := c.op
  match c.src.key with
  | some k =>
    if c.src.io then
      (s.qp k).any (fun q => q.ctx.toNat = c.ctx) && (s.ctx c.ctx).any fun x => !x.closing
    else if opCtx op && op ≠ 0x21 then
      (s.ctx c.ctx).any fun x => (!x.closing || op = 0x02) && (op = 0x03 || (c.src.mgmt && op ≠ 0x04 && op ≠ 0x06) || x.bound.contains c.src.fn)
    else if op = 0x40 && (c.desc.w2 = 2 || c.desc.w2 = 4) then (s.ctx c.ctx).any fun x => x.bound.contains c.src.fn || c.src.mgmt
    else true
  | none =>
    if opCtx op && op ≠ 0x21 then (s.ctx c.ctx).any fun x => !x.closing || op = 0x02
    else if op = 0x40 && (c.desc.w2 = 2 || c.desc.w2 = 4) then (s.ctx c.ctx).isSome
    else true

/-- Check 7 of R320: a fenced context answers only to CTX_CLOSE, QUERY and ABORT (R332). -/
def State.unfenced (s : State) (c : Cmd) : Bool :=
  c.op = 0x02 || c.op = 0x40 || c.op = 0x21 || !((c.src.io || opCtx c.op) && s.ctxFenced c.ctx)

/-! ### Recovery (R336 to R338) -/

/-- Whether two commands ask for the same under one pair (R337). -/
def sameStep (a b : Cmd) : Bool :=
  a.op = b.op && a.ctx = b.ctx && a.desc.w2 = b.desc.w2 && a.desc.w3 = b.desc.w3 && a.desc.w4 = b.desc.w4 && a.desc.w5 = b.desc.w5
    && a.desc.w6 = b.desc.w6 && a.desc.w7 = b.desc.w7 && a.desc.ext = b.desc.ext

/-- An accepted pair enters the log; an epoch above E discards what is older than the previous E (R338). -/
def State.logStep (s : State) (c : Cmd) : State :=
  if !c.paired then s
  else
    let e := s.host.recEpoch
    let log := if e.toNat < c.epoch.toNat then s.host.recLog.filter fun x => e.toNat ≤ x.epoch.toNat else s.host.recLog
    let x : RecEntry := { epoch := c.epoch, step := c.stepId, cmd := c, final := none, waiters := [] }
    { s with host := { s.host with recLog := log ++ [x], recEpoch := if e.toNat < c.epoch.toNat then c.epoch else e } }

/-- What the recovery log says of a command with a pair: the state that answers it, or none to go on. -/
def State.recovery (s : State) (c : Cmd) : Option State :=
  if !c.paired then none
  else if !recoverable c.op then some (s.completeSt c 0x04)
  else match s.host.recLog.find? fun x => x.of c with
    | some x =>
      if !sameStep x.cmd c then some (s.completeSt c 0x35)
      else match x.final with
        | some r => some (s.complete c (r.replay c))
        | none => some { s with host := { s.host with recLog := s.host.recLog.map fun y => if y = x then { y with waiters := y.waiters ++ [c] } else y } }
    | none =>
      if c.epoch.toNat + 1 < s.host.recEpoch.toNat then some (s.completeSt c 0x36)
      else
        let kept := if s.host.recEpoch.toNat < c.epoch.toNat then s.host.recLog.filter fun x => s.host.recEpoch.toNat ≤ x.epoch.toNat
          else s.host.recLog
        if 4096 ≤ kept.length then some (s.completeSt c 0x37) else none

/-- A PASS_LAUNCH has been fetched from a queue (R326). -/
def State.noteLaunch (s : State) (c : Cmd) : State :=
  if c.op = 0x20 && c.src.key.isSome && !(s.sched.chains.any fun e => e.1 = c.src) then s.setChain c.src false else s

/-- The checks of R320 in their order; a command that passes them is in progress and waits to be carried out. -/
def State.checkCmd (s : State) (c : Cmd) : State :=
  let t := { s with host := { s.host with inProg := s.host.inProg ++ [c] } }
  if !opcodes.contains c.op then t.completeSt c 0x03
  else if !t.permitted c then t.completeSt c 0x05
  else if t.fnState ≠ 1 && c.op ≠ 0x40 && c.op ≠ 0x48 then t.completeSt c 0x02
  else match t.recovery c with
    | some u => u
    | none =>
      if !t.fieldsOk c then t.completeSt c 0x04
      else if !t.ctxOk c then t.completeSt c 0x06
      else if !t.unfenced c then t.completeSt c 0x30
      else
        let u := t.logStep c
        { u with host := { u.host with toDo := u.host.toDo ++ [c] } }

/-- A command has been fetched. -/
def State.acceptCmd (s : State) (c : Cmd) : State := (s.checkCmd c).noteLaunch c

/-! ### Fetch and post (R309, R310, R319, R322) -/

/-- The descriptor that 64 bytes spell, with an extension. -/
def descOf (bs : List Byte) (ext : Option (List Byte)) : Desc :=
  let w := fun (i : Nat) => BitVec.ofNat 64 (leAt bs (8 * i) 8)
  { w0 := w 0, w1 := w 1, w2 := w 2, w3 := w 3, w4 := w 4, w5 := w 5, w6 := w 6, w7 := w 7, ext := ext.map fun b => BitVec.ofNat 512 (leNat b) }

/-- Commands in progress of a queue pair. -/
def State.inFlight (s : State) (k : Nat) : Nat := (s.host.inProg.filter fun c => c.src.key = some k).length

/-- Whether a queue pair may fetch. -/
def State.mayFetch (s : State) (k : Nat) (q : Qp) : Bool :=
  s.fnLive (k / 1024) && !q.error && !q.deleting && q.sqHead ≠ q.sqTail && 1 ≤ q.free && s.inFlight k < 64 && !s.fw.restarting
    && (k % 1024 = 0 || (s.ctx q.ctx.toNat).any fun c => !c.closing)

/-- SQ_FETCH (R309, R319, R320): the bytes at the SQ head, and behind them those of the extension. -/
def execSqFetch (port : Gal) (vf : Fin 64) (qp : Fin 1024) (r : HostRead) (s : State) : Host.Outcome State Fault Refusal :=
  let k := qpKey (fnIndex port vf) qp.val
  .next (match s.qp k with
    | none => s
    | some q =>
      if !s.mayFetch k q then s
      else match r with
        | .fail _ => s.queueError k 2
        | .ok data =>
          let ext := bit (descOf data none).w0 48
          let n := if ext then 2 else 1
          if ringUsed q.sqDepth q.sqHead q.sqTail < n then s
          else
            let d := descOf (data.take 64) (if ext then some ((data.drop 64).take 64) else none)
            let t := s.setQp k (some { q with sqHead := (q.sqHead + n) % q.sqDepth, reserved := q.reserved + 1 })
            t.acceptCmd { src := .queue port vf qp, desc := d })

/-- Whether the record of an ABORT's target has been posted, or never will be (R329). -/
def State.abortFree (s : State) (w : AbortWait) : Bool :=
  !s.host.inProg.contains w.target && match w.target.src.key with
    | some k => !((s.qp k).any fun q => q.due.any fun r => r.tag = w.target.tag && r.opcode.toNat = w.target.op)
    | none => true

/-- The ABORT commands whose target's record has been posted are answered (R329). -/
def State.answerAborts (s : State) : State :=
  let now := s.host.aborts.filter s.abortFree
  let t := { s with host := { s.host with aborts := s.host.aborts.filter fun w => !s.abortFree w } }
  now.foldl (fun t w => t.complete w.cmd { cmdAnswer w.cmd 0 with result := BitVec.ofNat 32 w.result }) t

/-- CQ_POST (R310, R311, R315, R322): the oldest record due is written, `ok` telling whether the write succeeds. -/
def execCqPost (port : Gal) (vf : Fin 64) (qp : Fin 1024) (ok : Bool) (s : State) : Host.Outcome State Fault Refusal :=
  let k := qpKey (fnIndex port vf) qp.val
  .next (match s.qp k with
    | none => s
    | some q =>
      match q.due with
      | [] => s
      | r :: rest =>
        if !s.fnLive (k / 1024) then s
        else if !ok then s.queueError k 3
        else
          let w := HostOut.write port.val vf.val (q.cqBase + BitVec.ofNat 48 (32 * q.cqTail)) (r.bytes q.sqHead qp.val q.phase)
          let tail := (q.cqTail + 1) % q.cqDepth
          let q' := { q with due := rest, reserved := q.reserved - 1, cqTail := tail, phase := if tail = 0 then !q.phase else q.phase }
          let t := { s.setQp k (some q') with host := { (s.setQp k (some q')).host with out := s.host.out ++ [w] } }
          let t := if r.opcode = 0x36 && r.status = 0 then { t with boot := { t.boot with resetAt := some (t.tclk + 1000000) } } else t
          ((t.coalesce k).answerAborts).closeStep)

end Sys2Proof.Machine
end

