-- ==== Sys2Proof/Machine/Mesh.lean ====
section
/-! DEFINITION. The scheduled neighbour mesh: the path that slot tables give a message, its landing, lane replays and dead lanes (R213 to
R224). -/

namespace Sys2Proof.Machine

/-! ### The path of a message (R219 to R221) -/

/-- Where a message stands: an input queue of a core (logical address, input port, queue), or of an edge switch (logical sett, input
code, queue). -/
inductive MeshAt where
  | core (logical port q : Nat)
  | switch (sid code q : Nat)
  deriving DecidableEq, Repr

/-- Whether a slot entry takes queue `q` of input `port`. -/
def slotTakes (e : BitVec 32) (port q : Nat) : Bool := bit e 31 && fld e 30 25 = port && fld e 24 22 = q

/-- The receiving queue that the first slot of a frame names for an input queue, if one serves it. -/
def frameOut (t : Tab (BitVec 32)) (base len port q : Nat) : Option Nat :=
  ((List.range len).find? fun k => slotTakes (Tab.get 0 t (base + k)) port q).map fun k => fld (Tab.get 0 t (base + k)) 21 19

/-- The output port of a core that serves an input queue, with the receiving queue, from the front bank (R225). -/
def Core.meshOut (c : Core) (port q : Nat) : Option (Nat × Nat) :=
  let b := b2n c.sp.front
  let len := fun d => fld (Tab.get 0 c.mesh.frame b) (8 * d + 7) (8 * d) + 1
  (List.range 4).findSome? fun d => (frameOut c.mesh.slots (b * 1024 + d * 256) (len d) port q).map fun o => (d, o)

/-- The output codes of an edge switch. -/
def switchOuts : List Nat := List.range 4 ++ List.range' 16 32

/-- The output of an edge switch that serves an input queue; a front bank without a placement leaves every slot idle (R226). -/
def Sett.meshOut (x : Sett) (code q : Nat) : Option (Nat × Nat) :=
  let b := b2n x.meshFront
  if x.frontHandle.isNone then none
  else switchOuts.findSome? fun n =>
    (frameOut x.meshSlots (b * 16384 + n * 256) (fld (Tab.get 0 x.meshFrame n) (16 * b + 7) (16 * b) + 1) code q).map fun o => (n, o)

/-- Whether queue q of an input port of a core is terminal (R221). -/
def Core.terminal (c : Core) (port q : Nat) : Bool := bit (Tab.get 0 c.mesh.term (b2n c.sp.front)) (8 * port + q)

/-- The opposite direction. -/
def backDir (d : Nat) : Nat := (d + 2) % 4

/-- Where output d of a core leads: its on-die neighbour, or its edge switch (R213, R215). -/
def State.fromCore (s : State) (logical d q : Nat) : Option MeshAt :=
  let sid := logical / 64
  let i := logical % 64 / 8
  let j := logical % 8
  if !s.joinOk logical d then none
  else match d with
    | 0 => if i = 0 then some (.switch sid (16 + j) q) else some (.core (logical - 8) 2 q)
    | 1 => if j = 7 then some (.switch sid (24 + i) q) else some (.core (logical + 1) 3 q)
    | 2 => if i = 7 then some (.switch sid (32 + j) q) else some (.core (logical + 8) 0 q)
    | _ => if j = 0 then some (.switch sid (40 + i) q) else some (.core (logical - 1) 1 q)

/-- The edge core of a side: 0 north, 1 east, 2 south, 3 west (R213). -/
def edgeCore (sid side k : Nat) : Nat :=
  64 * sid + match side with
    | 0 => k
    | 1 => 8 * k + 7
    | 2 => 56 + k
    | _ => 8 * k

/-- Whether the lane that a logical direction of a sett uses works now: it is reachable and neither end has declared it dead (R217). -/
def State.laneWorks (s : State) (sid d : Nat) : Bool :=
  let x := s.meshPair sid d
  x.2.1 && match s.siteOfSett sid, (s.neighbour sid d).bind s.siteOfSett with
    | some a, some b => !bit (s.sett a).meshDead x.2.2 && !bit (s.sett b).meshDead (laneBack x.2.2)
    | _, _ => false

/-- Where output n of an edge switch leads. -/
def State.fromSwitch (s : State) (sid n q : Nat) : Option MeshAt :=
  if n < 4 then
    (if s.laneWorks sid n then (s.neighbour sid n).map fun k => .switch k (backDir n) q else none)
  else some (.core (edgeCore sid ((n - 16) / 8) ((n - 16) % 8)) ((n - 16) / 8) q)

/-- Where a message's path leads: into the terminal queue of a core, over lanes named by sett and direction; into a fenced core, which
drops it (R224); or to a queue that nothing serves, where it waits. -/
inductive MeshEnd where
  | lands (logical : Nat) (lanes : List (Nat × Nat))
  | lost
  | waits
  deriving DecidableEq, Repr

/-- The path of a message from a queue. -/
def State.meshWalk (s : State) : Nat → MeshAt → List (Nat × Nat) → MeshEnd
  | 0, _, _ => .waits
  | fuel + 1, .core logical port q, lanes =>
    match s.coreAt logical with
    | none => .waits
    | some p =>
      let c := s.core p
      if c.fenced then .lost
      else if port < 4 && c.terminal port q then .lands logical lanes
      else match (c.meshOut port q).bind fun e => s.fromCore logical e.1 e.2 with
        | none => .waits
        | some a => s.meshWalk fuel a lanes
  | fuel + 1, .switch sid code q, lanes =>
    match (s.siteOfSett sid).bind fun site => (s.sett site).meshOut code q with
    | none => .waits
    | some (n, o) =>
      match s.fromSwitch sid n o with
      | none => .waits
      | some a => s.meshWalk fuel a (if n < 4 then lanes ++ [(sid, n)] else lanes)

/-- The path of a message from its flow's injection queue. -/
def State.meshPath (s : State) (m : MeshMsg) : MeshEnd :=
  match s.logicalOf m.src with
  | none => .waits
  | some a => s.meshWalk 4096 (.core a 4 (fld ((s.core m.src).flow m.flow) 48 46)) []

/-! ### Landing (R222, R223) -/

/-- The payload lands as remote writes of 128 B: the first status other than OK. -/
def landMesh (src : Nat) : Nat → Core × BitVec 4 → Nat → List Byte → Core × BitVec 4
  | 0, a, _, _ => a
  | fuel + 1, (c, st), off, bs =>
    if bs.isEmpty then (c, st)
    else
      let (d, r) := c.remoteWrite 0 src off (bs.take 128)
      landMesh src fuel (d, firstBad st r) (off + 128) (bs.drop 128)

/-- The acknowledgement of a mesh message. -/
def meshAck (m : MeshMsg) (src dest : Nat) (st : BitVec 4) : Packet :=
  { Packet.empty with opc := 4, sclass := 1, seq := BitVec.ofNat 16 m.tid, stream := BitVec.ofNat 8 (248 + m.grp),
                      src := srcCore dest, status := st, aux := BitVec.ofNat 48 (2 ^ 32), didx := didxOf (srcCore src) }

/-- A lane has carried a message: it has no failed replays in a row, and its output's slots used and left idle count on by free values, for the
model has no slots in time (log entry 38). -/
def State.laneGood (s : State) (e : Nat × Nat) : State :=
  match s.siteOfSett e.1 with
  | some site => s.fresh.2.modSett site fun x =>
      { x with laneFails := Tab.set 0 x.laneFails (s.meshPair e.1 e.2).2.2 0,
               meshUsed := Tab.mod 0 x.meshUsed e.2 (· + word64 s.fresh.1 0), meshBp := Tab.mod 0 x.meshBp e.2 (· + word64 s.fresh.1 1) }
  | none => s

/-- The message reaches the terminal queue at the end of its path (R222); a wrong pass tag drops it (R223), and so do a fenced core on
its way (R224) and a terminal queue of another core (MISROUTE). -/
def State.meshLand (s : State) (id : Nat) : State :=
  match s.mesh.find? (fun m => m.id = id) with
  | none => s
  | some m =>
    let gone := { s with mesh := s.mesh.filter fun x => x.id ≠ id }
    if m.tag ≠ s.ledger.passNum.setWidth 4 then
      gone.modCore m.src fun c => { c with mesh := { c.mesh with stat := satFld c.mesh.stat 15 0 1 } }
    else match s.meshPath m with
      | .waits => s
      | .lost => gone
      | .lands a lanes =>
        let t := lanes.foldl State.laneGood gone
        match t.coreAt a with
        | none => t
        | some p =>
          if a ≠ m.dest.toNat then t.modCore p fun c => { c with mesh := { c.mesh with stat := satFld c.mesh.stat 31 16 1 } }
          else
            let src := (t.logicalOf m.src).getD 0
            let (c, st) := landMesh src (m.data.length / 128 + 1) (t.core p, stOk) m.off m.data
            (t.setCore p c).send [meshAck m src a st]

/-- MESH_MESSAGE_LAND (R222). -/
def execMeshMessageLand (id : Nat) (s : State) : Host.Outcome State Fault Refusal := .next (s.meshLand id)

/-- HOP_QUEUE_FLUSH (R223): after a pass has ended, the messages that wait in a sett's hop queues are gone. -/
def execHopQueueFlush (site : Site) (s : State) : Host.Outcome State Fault Refusal :=
  .next (if s.ledger.state = .ended ∨ s.ledger.state = .idle then
    { s with mesh := s.mesh.filter fun m => siteOf m.src ≠ site.val } else s)

/-! ### Lanes (R217) -/

/-- MESH_LANE_REPLAY (R217): a failed unit is replayed, and counted. -/
def execMeshLaneReplay (site : Site) (lane : Fin 10) (s : State) : Host.Outcome State Fault Refusal :=
  .next (s.modSett site.val fun x =>
    { x with meshErr := satFld x.meshErr 31 16 1, laneFails := Tab.mod 0 x.laneFails lane.val (· + 1) })

/-- MESH_LANE_DEAD (R217): 16 failed replays in a row; the map records the lane once the pass has ended. -/
def execMeshLaneDead (site : Site) (lane : Fin 10) (s : State) : Host.Outcome State Fault Refusal :=
  .next (if 16 ≤ Tab.get 0 (s.sett site.val).laneFails lane.val then
    let t := s.modSett site.val fun x => { x with meshDead := setBit x.meshDead lane.val true }
    { t with map := { t.map with waiting := addOnce t.map.waiting (MapItem.deadLane site.val lane.val) } }
    else s)

end Sys2Proof.Machine
end

