-- ==== Sys2Proof/Machine/Registers.lean ====
section
/-! DEFINITION. The registers of every block outside the cores, what a write of any register does under its access codes (R7), and which source
reaches which register (R26, R440). -/

namespace Sys2Proof.Machine

/-- What a read of a register gives: its width in bits, its value, and the state after the read has cleared its RC fields. -/
abbrev RegRead := Option (Nat × BitVec 64 × State)

/-- A 32-bit register. -/
def State.reg32 (s : State) (v : BitVec 32) : RegRead := some (32, v.setWidth 64, s)

/-- A 64-bit register. -/
def State.reg64 (s : State) (v : BitVec 64) : RegRead := some (64, v, s)

/-- The first of several decodings that finds a register. -/
def firstReg : List (Unit → RegRead) → RegRead
  | [] => none
  | f :: t => match f () with
    | some r => some r
    | none => firstReg t

/-! ### Reads: routers and clocks -/

/-- The indexed registers of a router. -/
def State.readRouterIdx (s : State) (n : Node) (x : Router) (off : Nat) : RegRead :=
  let p := (off - 0x41000) / 0x100
  let r := (off - 0x41000) % 0x100
  match arrayIdx 0x50000 4 2048 off with
  | some k => if k % 1024 < 592 then s.reg32 (Tab.get 0 x.routes k) else none
  | none =>
    if off < 0x41000 ∨ 12 ≤ p then none
    else if r = 0 then s.reg64 (Tab.get 0 x.flits p)
    else if r = 8 then s.reg64 (Tab.get 0 x.pkts p)
    else if r = 0x80 then s.reg32 (Tab.get 0 x.links p)
    else match arrayIdx 0x10 4 8 r with
    | some q => some (32, (Tab.get 0 x.queues (8 * p + q)).setWidth 64,
        s.modRouter n fun y => { y with queues := Tab.mod 0 y.queues (8 * p + q) fun v => setFld v 19 16 0 })
    | none => match arrayIdx 0x40 8 8 r with
    | some q => s.reg64 (Tab.get 0 x.stalls (8 * p + q))
    | none => none

/-- The RTR_ registers of a node. -/
def State.readRouter (s : State) (n : Node) (off : Nat) : RegRead :=
  let x := s.router n
  match off with
  | 0x40000 => s.reg32 x.ctrl
  | 0x40008 => s.reg64 x.fold
  | 0x40010 => some (64, x.err, s.modRouter n fun y => { y with err := 0 })
  | 0x40018 => some (32, x.mcImage.setWidth 64, s.modRouter n fun y => { y with mc := setFld y.mc 14 8 0 })
  | _ => s.readRouterIdx n x off

/-- The CLK_ and TIME_ registers of an island, by their offset in the group. -/
def State.readClk (s : State) (n : Node) (off : Nat) : RegRead :=
  let x := s.island n
  match off with
  | 0x00 => s.reg32 x.status
  | 0x08 => s.reg64 (if isSett n then x.aclk else 0)
  | 0x10 => some (32, x.events.setWidth 64, s.modIsland n fun y => { y with events := 0 })
  | 0x18 => s.reg32 (s.refCfg n)
  | 0x40 => s.reg64 (s.timeNow n)
  | 0x48 => some (32, x.timeStat.setWidth 64, s.modIsland n fun y => { y with timeStat := setFld y.timeStat 23 8 0 })
  | 0x4C => s.reg32 x.timePath
  | 0x50 => s.reg64 x.linkDly
  | 0x80 => if n = .gal 0 then s.reg64 s.timeCtrl else none
  | 0x88 => if n = .gal 0 then s.reg64 s.timeSvc.stepVal else none
  | _ => none

/-! ### Reads: setts -/

/-- The site of an index. -/
def nodeOfSite (i : Nat) : Node := settNode i

/-- SETT_MESH_BANK. -/
def Sett.bankImage (x : Sett) : BitVec 64 :=
  BitVec.ofNat 64 (b2n x.meshFront * 2 ^ 63 + b2n x.meshH1.isSome * 2 ^ 62 + b2n x.meshH0.isSome * 2 ^ 61
    + ((x.meshH1.getD 0).toNat) * 2 ^ 32 + (x.meshH0.getD 0).toNat)

/-- The single registers of a sett block. -/
def State.readSettOne (s : State) (i : Nat) (off : Nat) : RegRead :=
  let x := s.sett i
  match off with
  | 0x0000 => s.reg32 (s.siteId i)
  | 0x3000 => s.reg32 (s.meshNbr i)
  | 0x3004 => s.reg32 (x.meshDead.setWidth 32)
  | 0x3008 => s.reg64 (s.coreGap i 1)
  | 0x3010 => s.reg64 (s.coreGap i 2)
  | 0x3018 => s.reg64 x.bankImage
  | 0x3200 => some (32, x.meshErr.setWidth 64, s.modSett i fun y => { y with meshErr := 0 })
  | 0x6000 => s.reg32 x.cap
  | 0x6008 => s.reg64 x.pwrStat
  | 0x6010 => s.reg64 x.gate
  | 0x6018 => s.reg64 x.coreReady
  | 0x7040 => some (64, x.therm, s.modSett i fun y => { y with therm := setFld y.therm 15 8 0 })
  | 0x8000 => s.reg32 x.bist
  | _ => none

/-- The mesh slot entry that an offset of a sett block names, by its key: bank, output code, slot. -/
def settSlot (off : Nat) : Option Nat :=
  match arrayIdx 0x80000 4 32768 off with
  | some k => if switchOuts.contains (k % 16384 / 256) then some k else none
  | none => none

/-- The indexed registers of a sett block. -/
def State.readSettIdx (s : State) (i : Nat) (off : Nat) : RegRead :=
  let x := s.sett i
  match arrayIdx 0x2000 4 8 off with
  | some k => s.reg32 (s.coreRowMap (fld x.pwrStat 23 20 == 2) i k)
  | none => match arrayIdx 0x3100 4 64 off with
  | some n => if switchOuts.contains n then s.reg32 (Tab.get 0 x.meshFrame n) else none
  | none => match arrayIdx 0x3300 16 4 off with
  | some n => s.reg64 (Tab.get 0 x.meshUsed n)
  | none => match arrayIdx 0x3308 16 4 off with
  | some n => s.reg64 (Tab.get 0 x.meshBp n)
  | none => match arrayIdx 0x7000 4 16 off with
  | some k => s.reg32 (Tab.get 0 x.temps k)
  | none => match settSlot off with
  | some k => s.reg32 (Tab.get 0 x.meshSlots k)
  | none => none

/-- The sett registers of site i. -/
def State.readSett (s : State) (i off : Nat) : RegRead :=
  if 0x5000 ≤ off ∧ off < 0x5100 then s.readClk (settNode i) (off - 0x5000)
  else if 0x40000 ≤ off ∧ off < 0x80000 then s.readRouter (settNode i) off
  else firstReg [fun _ => s.readSettOne i off, fun _ => s.readSettIdx i off]

/-! ### Reads: sumps -/

/-- The SUMP_ registers of stack k. -/
def State.readSumpOne (s : State) (k off : Nat) : RegRead :=
  let x := s.sump k
  match off with
  | 0x00 => s.reg32 x.status
  | 0x10 => some (64, x.ecc, s.modSump k fun y => { y with ecc := setFld y.ecc 63 32 0 })
  | 0x20 => some (32, x.deny.setWidth 64, s.modSump k fun y => { y with deny := setFld y.deny 31 16 0 })
  | 0x30 => s.reg32 x.ref
  | 0x38 => s.reg32 x.scrub
  | 0x40 => some (64, setFld x.hintStat 8 0 x.hints.length, s.modSump k fun y => { y with hintStat := setFld y.hintStat 63 16 0 })
  | _ => none

/-- SUMP_LOST_k. -/
def Sump.lostImage (x : Sump) (k : Nat) : BitVec 64 :=
  match x.lost[k]? with
  | some w => BitVec.ofNat 64 (2 ^ 63 + w)
  | none => 0

/-- SUMP_RETIRED_k. -/
def Sump.retiredImage (x : Sump) (k : Nat) : BitVec 32 :=
  match x.retired[k]? with
  | some u => BitVec.ofNat 32 (2 ^ 31 + u)
  | none => 0

/-- The indexed registers of a sump block. -/
def State.readSumpIdx (s : State) (k off : Nat) : RegRead :=
  let x := s.sump k
  match arrayIdx 0x100 8 64 off with
  | some i => s.reg64 (x.lostImage i)
  | none => match arrayIdx 0x400 4 256 off with
  | some i => s.reg32 (x.retiredImage i)
  | none => match arrayIdx 0x10000 8 4096 off with
  | some i => s.reg64 (Tab.get 0 x.regions i)
  | none => none

/-- The index of a stack's node. -/
def stackNode (k : Nat) : Node := .sump (Fin.ofNat 32 k)

/-- The registers of a sump block. -/
def State.readSump (s : State) (k off : Nat) : RegRead :=
  if 0x5000 ≤ off ∧ off < 0x5100 then s.readClk (stackNode k) (off - 0x5000)
  else if 0x40000 ≤ off ∧ off < 0x80000 then s.readRouter (stackNode k) off
  else firstReg [fun _ => s.readSumpOne k off, fun _ => s.readSumpIdx k off]

/-! ### Reads: the pass ledger, residency and the other services of G0 -/

/-- Code of a pass state. -/
def LedgerState.code : LedgerState → Nat
  | .idle => 0
  | .launching => 1
  | .running => 2
  | .quiescing => 3
  | .ended => 4

/-- Code of an outcome. -/
def PassOutcome.code : PassOutcome → Nat
  | .none => 0
  | .completed => 1
  | .aborted => 2

/-- GAL_LEDGER_STATE. -/
def Ledger.stateImage (l : Ledger) : BitVec 32 :=
  BitVec.ofNat 32 (l.state.code * 2 ^ 28 + l.outcome.code * 2 ^ 26 + b2n l.abortLate * 2 ^ 25 + b2n l.lateStart * 2 ^ 24
    + l.reason.toNat * 2 ^ 16 + b2n l.timed * 2 ^ 15 + b2n l.flip * 2 ^ 14 + l.lateCount.toNat)

/-- GAL_LEDGER_COUNT. -/
def Ledger.countImage (l : Ledger) : BitVec 32 := BitVec.ofNat 32 (l.expect.toNat * 2 ^ 16 + l.doneSet.length)

/-- GAL_LEDGER_LOST. -/
def Ledger.lostImage (l : Ledger) : BitVec 32 := BitVec.ofNat 32 (l.lost.length * 2 ^ 17 + l.firstLost.toNat)

/-- GAL_LEDGER_STRAY. -/
def Ledger.strayImage (l : Ledger) : BitVec 32 := BitVec.ofNat 32 (l.lateAborts.toNat * 2 ^ 16 + l.strayDone.toNat)

/-- The ledger registers. -/
def State.readLedger (s : State) (off : Nat) : RegRead :=
  let l := s.ledger
  match off with
  | 0x2000 => s.reg32 l.passNum
  | 0x2004 => s.reg32 l.stateImage
  | 0x2008 => s.reg32 l.countImage
  | 0x200C => s.reg32 l.lostImage
  | 0x2010 => some (32, l.strayImage.setWidth 64, { s with ledger := { l with lateAborts := 0, strayDone := 0 } })
  | 0x2018 => s.reg64 l.tLaunch
  | 0x2020 => s.reg64 l.tOutcome
  | _ => match arrayIdx 0x2100 4 64 off with
    | some k => s.reg32 (l.lostList[k]?.getD 0)
    | none => none

/-- GAL_RES_FILL. -/
def Fill.image (f : Fill) : BitVec 64 :=
  BitVec.ofNat 64 (b2n f.running.isSome * 2 ^ 63 + b2n f.lastSrc * 2 ^ 62 + min 7 f.queue.length * 2 ^ 57 + f.lastHandle.toNat * 2 ^ 38
    + f.rowsDone.toNat * 2 ^ 22 + f.ready.toNat)

/-- GAL_RES_COUNTS. -/
def Fill.counts (f : Fill) : BitVec 64 := BitVec.ofNat 64 (f.fills.toNat * 2 ^ 32 + f.failed.toNat * 2 ^ 16 + f.standalone.toNat)

/-- GAL_FUSE (R410). -/
def fuseImage (part : BitVec 2) : BitVec 32 :=
  BitVec.ofNat 32 (part.toNat * 2 ^ 30 + fuseMax part * 2 ^ 23 + fld (panelReset0 part) 47 32)

/-- GAL_DEFECT_SUM. -/
def State.defectSum (s : State) : BitVec 64 :=
  let cores := s.nv.deadCores.filter fun p => !s.nv.deadSites.contains (siteOf p)
  BitVec.ofNat 64 (s.nv.deadSites.length * 2 ^ 55 + cores.length * 2 ^ 40 + min 65535 s.nv.spRetired.length * 2 ^ 24
    + min 65535 s.nv.hbmRetired.length * 2 ^ 8 + (s.sumps.filter fun e => e.2.state == 3).length)

/-- GAL_MAP_STORE. -/
def State.mapStore (s : State) : BitVec 32 :=
  BitVec.ofNat 32 (b2n s.boot.mapLost * 2 ^ 31 + b2n s.nv.mapCopy * 2 ^ 30 + s.nv.mapWrites.toNat)

/-- The SEC_ registers. -/
def State.readSec (s : State) (off : Nat) : RegRead :=
  match off with
  | 0xD000 => s.reg64 s.secStatus
  | 0xD008 => s.reg32 (s.sec.level.setWidth 32)
  | 0xD010 => s.reg32 s.sec.authCtrl
  | _ => match arrayIdx 0xD040 8 4 off with
    | some k => s.reg64 (word64 s.sec.nonce k)
    | none => match arrayIdx 0xD080 8 8 off with
    | some k => s.reg64 (word64 s.sec.arg k)
    | none => match arrayIdx 0xD0C0 8 8 off with
    | some k => s.reg64 (word64 s.sec.sig k)
    | none => none

/-- The power and thermal registers of G0. -/
def State.readPower (s : State) (off : Nat) : RegRead :=
  match off with
  | 0x7000 => some (64, s.power.panel, { s with power := { s.power with panel := setFld s.power.panel 7 0 0 } })
  | 0x8000 => some (64, s.thermal.coolant, { s with thermal := { s.thermal with coolant := setFld s.thermal.coolant 7 0 0 } })
  | 0x8008 => s.reg32 s.thermal.cfg
  | 0x8010 => some (64, s.thermal.status, { s with thermal := { s.thermal with status := setFld s.thermal.status 39 32 0 } })
  | _ => match arrayIdx 0x7040 8 8 off with
    | some m => s.reg64 (s.meadow m)
    | none => match arrayIdx 0x7100 8 36 off with
    | some n => s.reg64 (s.feed n)
    | none => none

/-- The span registers of G0. -/
def State.readSpan (s : State) (off : Nat) : RegRead :=
  match off with
  | 0xF000 => s.reg64 s.span.reg
  | 0xF008 => s.reg32 s.span.hbCfg
  | 0xF010 => some (64, s.span.stat, { s with span := { s.span with stat := 0 } })
  | _ => match arrayIdx 0xF100 4 64 off with
    | some k => s.reg32 (Tab.get 0 s.span.routes k)
    | none => match arrayIdx 0xF200 8 64 off with
    | some k => some (64, Tab.get 0 s.span.peers k,
        { s with span := { s.span with peers := Tab.mod 0 s.span.peers k fun v => setFld v 55 48 0 } })
    | none => none

/-- The single registers of G0 alone. -/
def State.readG0One (s : State) (off : Nat) : RegRead :=
  match off with
  | 0x3000 => s.reg64 s.fill.image
  | 0x3008 => s.reg64 s.fill.bytes
  | 0x3010 => s.reg64 s.fill.counts
  | 0x4000 => s.reg64 s.drain.reg
  | 0x4008 => s.reg64 s.drain.rpt
  | 0x5000 => s.reg64 s.sec.aperture
  | 0x9000 => s.reg64 s.bootStatus
  | 0x9008 => s.reg32 s.nv.bootCfg
  | 0x9018 => s.reg64 s.defectSum
  | 0x9020 => s.reg32 s.mapStore
  | 0xB000 => s.reg64 s.fw.state
  | 0xB008 => s.reg64 s.fw.version
  | 0xB010 => s.reg64 s.fw.act
  | 0x20000 => s.reg32 s.alert
  | _ => none

/-- The registers that only G0 has; in G1, G2 and G3 their offsets are unmapped. -/
def State.readG0 (s : State) (off : Nat) : RegRead :=
  firstReg [fun _ => s.readG0One off, fun _ => s.readLedger off, fun _ => s.readSec off, fun _ => s.readPower off, fun _ => s.readSpan off]

/-! ### Reads: galleries -/

/-- ICU_PEND_k. -/
def Gallery.pendWord (x : Gallery) (k : Nat) : BitVec 32 :=
  BitVec.ofNat 32 (maskOf ((List.range 32).filter fun j => bit (x.icu (32 * k + j)) 0))

/-- The interrupt registers of a gallery; a read of ICU_CLAIM_b performs the claim (R425). -/
def State.readIcu (s : State) (g off : Nat) : RegRead :=
  let x := s.gal g
  match off with
  | 0xA000 => s.reg32 x.icuCtrl
  | 0xA060 => s.reg32 0
  | _ => match arrayIdx 0xA040 8 4 off with
    | some b => some (32, (x.claim b).2.setWidth 64, s.setGal g (x.claim b).1)
    | none => match arrayIdx 0xA044 8 4 off with
    | some _ => s.reg32 0
    | none => match arrayIdx 0xA100 4 32 off with
    | some k => s.reg32 (x.pendWord k)
    | none => match arrayIdx 0x10000 4 1024 off with
    | some n => s.reg32 (x.icu n)
    | none => none

/-- The other registers of every gallery. -/
def State.readGalIdx (s : State) (g off : Nat) : RegRead :=
  let x := s.gal g
  match arrayIdx 0x1000 4 16 off with
  | some r => s.reg32 (s.rowShape r)
  | none => match arrayIdx 0xC000 4 4 off with
  | some b => some (32, (Tab.get 0 x.mcStat b).setWidth 64,
      s.modGal g fun y => { y with mcStat := Tab.mod 0 y.mcStat b fun v => setFld v 23 16 0 })
  | none => match arrayIdx 0xE000 8 4 off with
  | some k => some (64, Tab.get 0 x.penLink k,
      s.modGal g fun y => { y with penLink := Tab.mod 0 y.penLink k fun v => setFld v 31 0 0 })
  | none => match arrayIdx 0x800000 16 524288 off with
  | some h => s.reg64 (s.dirWord0 h)
  | none => match arrayIdx 0x800008 16 524288 off with
  | some h => s.reg64 (s.dirWord1 h)
  | none => none

/-- The registers of a gallery block. -/
def State.readGal (s : State) (g off : Nat) : RegRead :=
  if 0x6000 ≤ off ∧ off < 0x6100 then s.readClk (.gal (Fin.ofNat 4 g)) (off - 0x6000)
  else if 0x40000 ≤ off ∧ off < 0x80000 then s.readRouter (.gal (Fin.ofNat 4 g)) off
  else if off = 0x1040 then s.reg32 s.map.gen
  else if off = 0x9010 then s.reg32 (fuseImage s.nv.part)
  else firstReg [fun _ => s.readIcu g off, fun _ => s.readGalIdx g off, fun _ => if g = 0 then s.readG0 off else none]

/-- A register of core p. -/
def State.readCore (s : State) (p off : Nat) : RegRead :=
  ((s.core p).readReg s.full off).map fun r => (r.1, r.2.1, s.setCore p r.2.2)

/-- The register at a fabric target, none where no register starts. -/
def State.readTarget (s : State) : Target → RegRead
  | .settReg sid off => (s.siteOfSett sid).bind fun i => s.readSett i off
  | .coreReg l off => (s.coreAt l).bind fun p => s.readCore p off
  | .siteReg i off => s.readSett i off
  | .physReg p off => s.readCore p off
  | .sumpReg k off => s.readSump k off
  | .galReg g off => s.readGal g off
  | _ => none

/-! ### Writes: cores -/

/-- A write of CORE_DBG_CTRL (R179): below FULL it has no effect; PC is written while the sequencer is halted. -/
def State.dbgWrite (s : State) (p : Nat) (v : BitVec 32) : State :=
  if !s.full then s
  else
    let s := s.modCore p fun c => if c.seq.dbgHalted then { c with seq := { c.seq with pc := BitVec.ofNat 12 (fld v 11 0) } } else c
    if bit v 31 then s.modCore p Core.resume else if bit v 30 then s.stepCore p else if bit v 29 then s.modCore p Core.halt else s

/-- The counters' image after a write: OVF is W1C. -/
def countWrite (old v : BitVec 64) (hi : Nat) : BitVec 64 :=
  let keep := if bit v 63 then setBit old 63 false else old
  setFld (setFld keep 55 42 (fld v 55 42)) hi 0 (fld v hi 0)

/-- A write of a single register of a core that lies in the core's own state. -/
def Core.writeOne (c : Core) (off : Nat) (v : BitVec 64) : Option Core :=
  let w : BitVec 32 := v.setWidth 32
  match off with
  | 0x0C00 => some { c with num := { c.num with ctrl := w &&& 0xF } }
  | 0x0C04 => some { c with num := { c.num with status := c.num.status &&& ~~~w } }
  | 0x0C08 => some (c.seedWrite w)
  | 0x0D20 => some { c with units := { c.units with accEcc := if bit v 15 then setBit c.units.accEcc 15 false else c.units.accEcc } }
  | 0x1004 => some { c with sp := c.sp.power (v.setWidth 12) }
  | 0x1410 => some { c with sp := { c.sp with ecc := if bit v 47 then setBit c.sp.ecc 47 false else c.sp.ecc } }
  | 0x1418 => some { c with sp := { c.sp with scrub := w &&& 0x80FFFFFF } }
  | 0x2300 => some { c with seq := { c.seq with wdogCfg := w &&& 0x8000FFFF } }
  | 0x2340 => some { c with seq := { c.seq with raCfg := w &&& 0x8000007F } }
  | 0x2440 => some { c with units := { c.units with dmaCfg := w &&& 0xFFFF } }
  | 0x2900 => some (if c.seq.dbgHalted then { c with seq := { c.seq with preds := setBit (v.setWidth 8) 0 true } } else c)
  | 0x3000 => some { c with mesh := { c.mesh with term := Tab.set 0 c.mesh.term 0 w } }
  | 0x3004 => some { c with mesh := { c.mesh with term := Tab.set 0 c.mesh.term 1 w } }
  | 0x3010 => some { c with mesh := { c.mesh with frame := Tab.set 0 c.mesh.frame 0 w } }
  | 0x3014 => some { c with mesh := { c.mesh with frame := Tab.set 0 c.mesh.frame 1 w } }
  | _ => none

/-- The mask of CORE_WIN_FILTER's fields. -/
def filterMask : Nat := 0x1F0FFFFFFF

/-- A write of an indexed register of a core. -/
def Core.writeIdx (c : Core) (full : Bool) (off : Nat) (v : BitVec 64) : Option Core :=
  match arrayIdx 0x1100 16 16 off with
  | some n => some { c with sp := { c.sp with cbCfg := Tab.set 0 c.sp.cbCfg n v } }
  | none => match arrayIdx 0x1108 16 16 off with
  | some n => some (if bit (Tab.get 0 c.sp.cbCfg n) 63 then c else { c with sp := { c.sp with cbPtr := Tab.set 0 c.sp.cbPtr n (v.setWidth 32) } })
  | none => match arrayIdx 0x110C 16 16 off with
  | some n => some (if bit v 31 then { c with sp := { c.sp with cbOvf := setBit c.sp.cbOvf n false } } else c)
  | none => match arrayIdx 0x1208 32 16 off with
  | some n => some { c with sp := { c.sp with winFilt := Tab.set 0 c.sp.winFilt n (v &&& BitVec.ofNat 64 filterMask) } }
  | none => match arrayIdx 0x2100 8 32 off with
  | some n => some { c with seq := { c.seq with tok := Tab.mod 0 c.seq.tok n fun x => countWrite x v 15 } }
  | none => match arrayIdx 0x2200 8 32 off with
  | some n => some { c with seq := { c.seq with crd := Tab.mod 0 c.seq.crd n fun x => countWrite x v 31 } }
  | none => match arrayIdx 0x2808 8 31 off with
  | some n => some (if full && c.seq.dbgHalted then c.setSreg (n + 1) v else c)
  | none => match arrayIdx 0x3400 8 128 off with
  | some n => some { c with mesh := { c.mesh with flow := Tab.set 0 c.mesh.flow n (setFld v 45 0 0) } }
  | none => match arrayIdx 0x4000 4 2048 off with
  | some n => some { c with mesh := { c.mesh with slots := Tab.set 0 c.mesh.slots n (setFld (v.setWidth 32) 18 0 0) } }
  | none => none

/-- A write of a register of core p; a register without writable fields keeps its value. -/
def State.writeCore (s : State) (p off : Nat) (v : BitVec 64) : Option State :=
  match arrayIdx 0x1200 32 16 off with
  | some n => some (s.settle p ((s.core p).winCfgWrite n v))
  | none =>
    if off = 0x2390 then some (s.dbgWrite p (v.setWidth 32))
    else match (s.core p).writeOne off v with
    | some c => some (s.settle p (c, []))
    | none => match (s.core p).writeIdx s.full off v with
    | some c => some (s.settle p (c, []))
    | none => if ((s.core p).readReg s.full off).isSome then some s else none

/-! ### Writes: routers, clocks, setts, sumps -/

/-- A write of a route entry: ignored in a bank in use. -/
def Router.writeRoute (x : Router) (k : Nat) (v : BitVec 32) : Router :=
  let used := (List.range 4).any fun t => b2n (bit x.ctrl (24 + t)) = k / 1024
  if used then x else { x with routes := Tab.set 0 x.routes k (v &&& 0xC000FFFF) }

/-- A write of an RTR_ register; none where no register has writable fields. -/
def Router.writeReg (x : Router) (off : Nat) (v : BitVec 64) : Option Router :=
  match off with
  | 0x40000 => some { x with ctrl := setBit x.ctrl 8 (bit v 8) }
  | 0x40008 => some { x with fold := setFld (setFld x.fold 63 56 (fld v 63 56)) 47 32 (fld v 47 32) }
  | 0x40018 => some { x with mc := setFld x.mc 31 16 (fld v 31 16) }
  | _ => match arrayIdx 0x50000 4 2048 off with
    | some k => if k % 1024 < 592 then some (x.writeRoute k (v.setWidth 32)) else none
    | none => none

/-- A write of an RTR_ register of a node. -/
def State.writeRouter (s : State) (n : Node) (off : Nat) (v : BitVec 64) : Option State :=
  match (s.router n).writeReg off v with
  | some y => some (s.modRouter n fun _ => y)
  | none => if (s.readRouter n off).isSome then some s else none

/-- A write of CLK_ACLK: THERM and PWR (R345). -/
def State.writeAclk (s : State) (n : Node) (v : BitVec 64) : State :=
  match n with
  | .sett i => s.modSett i.val fun x => (x.setTherm (fld v 46 40)).setPwr (fld v 38 32)
  | _ => s

/-- A write of a CLK_ or TIME_ register. -/
def State.writeClk (s : State) (n : Node) (off : Nat) (v : BitVec 64) : Option State :=
  match off with
  | 0x00 => some (if bit v 23 && isSett n then s.modIsland n fun x => x.safeClear s.tclk else s)
  | 0x08 => some (s.writeAclk n v)
  | 0x18 => some (s.writeRefCfg n (v.setWidth 32))
  | 0x80 => if n = .gal 0 then some { s with timeSvc := s.timeSvc.write v } else none
  | 0x88 => if n = .gal 0 then some { s with timeSvc := { s.timeSvc with stepVal := setFld v 9 0 0 } } else none
  | _ => if (s.readClk n off).isSome then some s else none

/-- A write of a sett register of site i. -/
def State.writeSett (s : State) (i off : Nat) (v : BitVec 64) : Option State :=
  if 0x5000 ≤ off ∧ off < 0x5100 then s.writeClk (settNode i) (off - 0x5000) v
  else if 0x40000 ≤ off ∧ off < 0x80000 then s.writeRouter (settNode i) off v
  else if off = 0x6000 then some (s.modSett i fun x => { x with cap := setFld x.cap 15 0 (fld v 15 0) })
  else if off = 0x6010 then some (s.gateWrite i v)
  else match arrayIdx 0x3100 4 64 off with
  | some n =>
    if switchOuts.contains n then some (s.modSett i fun x => { x with meshFrame := Tab.set 0 x.meshFrame n (v.setWidth 32 &&& 0x00FF00FF) })
    else none
  | none => match settSlot off with
  | some k => some (s.modSett i fun x => { x with meshSlots := Tab.set 0 x.meshSlots k (setFld (v.setWidth 32) 18 0 0) })
  | none => if (s.readSett i off).isSome then some s else none

/-- A write of a register of a sump block; SUMP_REGION_k is read-only from every source. -/
def State.writeSump (s : State) (k off : Nat) (v : BitVec 64) : Option State :=
  if 0x5000 ≤ off ∧ off < 0x5100 then s.writeClk (stackNode k) (off - 0x5000) v
  else if 0x40000 ≤ off ∧ off < 0x80000 then s.writeRouter (stackNode k) off v
  else match off with
  | 0x10 => some (s.modSump k fun x => { x with ecc := if bit v 31 then setBit x.ecc 31 false else x.ecc })
  | 0x30 => some (s.modSump k fun x => x.writeRef (v.setWidth 32))
  | 0x38 => some (s.modSump k fun x => { x with scrub := v.setWidth 32 &&& 0x80FFFFFF })
  | _ => if (s.readSump k off).isSome then some s else none

/-! ### Writes: galleries -/

/-- A write of ICU_SRC_n: TARGET of a private source is fixed, and a change acts on delivery at once (R425, R427). -/
def Gallery.writeSrc (x : Gallery) (n : Nat) (v : BitVec 32) : Gallery :=
  let old := x.icu n
  let w := setFld (setBit old 31 (bit v 31)) 29 27 (fld v 29 27)
  let y := x.setIcu n (if n < 256 then w else setFld w 25 24 (fld v 25 24))
  if bit w 0 && !bit w 30 then y.wakeMc n else y

/-- A write of an interrupt register. -/
def State.writeIcu (s : State) (g off : Nat) (v : BitVec 64) : Option State :=
  match off with
  | 0xA000 => some (s.modGal g fun x => x.writeGdis (v.setWidth 32))
  | 0xA060 => some (s.edge g (64 * fld v 5 4 + fld v 3 0))
  | _ => match arrayIdx 0xA044 8 4 off with
    | some b => some (s.icuComplete g b (fld v 9 0))
    | none => match arrayIdx 0x10000 4 1024 off with
    | some n => some (s.modGal g fun x => x.writeSrc n (v.setWidth 32))
    | none => none

/-- The cause bits of GAL_ALERT whose condition holds (R471). -/
def State.alertHolds (s : State) : Nat :=
  b2n (bit s.thermal.status 63) + 2 * b2n (bit s.thermal.status 62) + 4 * b2n (bit s.thermal.status 61) + 8 * b2n (bit s.thermal.coolant 15)

/-- A write of GAL_ALERT: a condition cause is set again at once while its condition holds (R471). -/
def State.alertWrite (s : State) (v : BitVec 32) : State :=
  let cause := fld (s.alert &&& ~~~v) 8 0 ||| (fld s.alert 8 0 &&& s.alertHolds)
  { s with alert := setFld (setFld s.alert 24 16 (fld v 24 16)) 8 0 cause }

/-- A write of SEC_AUTH_CTRL: OP is written, NEW draws a nonce, GO submits (R432). -/
def State.authWrite (s : State) (v : BitVec 32) : State :=
  let s := if s.sec.state = 3 then s else { s with sec := s.sec.setOp (fld v 7 0) }
  let s := if bit v 30 then s.authNew else s
  if bit v 31 then s.authGo (fld v 7 0) else s

/-- A wider number with a 64-bit word replaced. -/
def putWord {n : Nat} (x : BitVec n) (k : Nat) (v : BitVec 64) : BitVec n := setFld x (64 * k + 63) (64 * k) v.toNat

/-- The registers of G0 alone with writable fields: services. -/
def State.writeG0One (s : State) (off : Nat) (v : BitVec 64) : Option State :=
  let w : BitVec 32 := v.setWidth 32
  match off with
  | 0x4000 => some (({ s with drain := s.drain.write v }).drainEdge s.drain.state)
  | 0x4008 => some { s with drain := { s.drain with rpt := setFld s.drain.rpt 63 32 (fld v 63 32) } }
  | 0x5000 => some { s with sec := { s.sec with aperture := v &&& 0xFFFFF000000 } }
  | 0x7000 => some { s with power := { s.power with panel := setFld s.power.panel 15 8 (fld v 15 8) } }
  | 0x8008 => some { s with thermal := { s.thermal with cfg := setFld s.thermal.cfg 31 16 (fld v 31 16) } }
  | 0x9008 => some { s with nv := { s.nv with bootCfg := w &&& 0x800000FF } }
  | 0x9020 => some (if bit v 31 then { s with boot := { s.boot with mapLost := false } } else s)
  | 0xD008 => some { s with sec := s.sec.dbgWrite w }
  | 0xD010 => some (s.authWrite w)
  | 0xF008 => some { s with span := { s.span with hbCfg := w &&& 0xFFFF00FF } }
  | 0x20000 => some (s.alertWrite w)
  | _ => none

/-- The indexed registers of G0 alone with writable fields. -/
def State.writeG0Idx (s : State) (off : Nat) (v : BitVec 64) : Option State :=
  match arrayIdx 0xD080 8 8 off with
  | some k => some { s with sec := { s.sec with arg := putWord s.sec.arg k v } }
  | none => match arrayIdx 0xD0C0 8 8 off with
  | some k => some { s with sec := { s.sec with sig := putWord s.sec.sig k v } }
  | none => match arrayIdx 0xF100 4 64 off with
  | some k => some { s with span := { s.span with routes := Tab.set 0 s.span.routes k (v.setWidth 32 &&& 0x80FF803F) } }
  | none => none

/-- A write of a register of a gallery block. -/
def State.writeGal (s : State) (g off : Nat) (v : BitVec 64) : Option State :=
  if 0x6000 ≤ off ∧ off < 0x6100 then s.writeClk (.gal (Fin.ofNat 4 g)) (off - 0x6000) v
  else if 0x40000 ≤ off ∧ off < 0x80000 then s.writeRouter (.gal (Fin.ofNat 4 g)) off v
  else match s.writeIcu g off v with
  | some t => some t
  | none => match (if g = 0 then s.writeG0One off v else none) with
  | some t => some t
  | none => match (if g = 0 then s.writeG0Idx off v else none) with
  | some t => some t
  | none => if (s.readGal g off).isSome then some s else none

/-- A write of the register at a fabric target; none where no register starts. -/
def State.writeTarget (s : State) (v : BitVec 64) : Target → Option State
  | .settReg sid off => (s.siteOfSett sid).bind fun i => s.writeSett i off v
  | .coreReg l off => (s.coreAt l).bind fun p => s.writeCore p off v
  | .siteReg i off => s.writeSett i off v
  | .physReg p off => s.writeCore p off v
  | .sumpReg k off => s.writeSump k off v
  | .galReg g off => s.writeGal g off v
  | _ => none

/-! ### Accesses of 4 or more bytes -/

/-- The W1C and W1S bits of a register: a partial write leaves them alone where it does not write. -/
def oneBits : Target → Nat
  | .coreReg _ off | .physReg _ off =>
    if off = 0x0C04 then 0x7F else if off = 0x0D20 then 2 ^ 15 else if off = 0x1410 then 2 ^ 47 else if off = 0x2390 then 7 * 2 ^ 29
    else if (arrayIdx 0x110C 16 16 off).isSome then 2 ^ 31
    else if (arrayIdx 0x2100 8 64 off).isSome then 2 ^ 63 else 0
  | .settReg _ off | .siteReg _ off => if off = 0x5000 then 2 ^ 23 else 0
  | .sumpReg _ off => if off = 0x10 ∨ off = 0x30 then 2 ^ 31 else if off = 0x5000 then 2 ^ 23 else 0
  | .galReg _ off =>
    if off = 0x4000 then 2 ^ 42 else if off = 0x6000 then 2 ^ 23 else if off = 0x6080 then 2 ^ 63 else if off = 0x9020 then 2 ^ 31
    else if off = 0xD010 then 3 * 2 ^ 30 else if off = 0x20000 then 0x1FF else 0
  | _ => 0

/-- The registers that the `n` bytes from fabric address `a` touch, by the address where each starts. -/
def State.regsIn (s : State) (a n : Nat) : List Nat :=
  let isReg := fun (b : Nat) => (s.readTarget (decodeAddr b)).isSome
  let wide := fun (b : Nat) => (s.readTarget (decodeAddr b)).any fun r => r.1 = 64
  let first := if !isReg a && 4 ≤ a && wide (a - 4) then [a - 4] else []
  first ++ ((List.range ((n + 3) / 4)).map fun i => a + 4 * i).filter isReg

/-- Reads the registers of `n` bytes from address `a`; words that hold none read as 0 (log entry 25). -/
def State.readBytes (s : State) (a n : Nat) : State × List Byte :=
  let r := (s.regsIn a n).foldl (fun (acc : State × Tab Byte) b =>
    match acc.1.readTarget (decodeAddr b) with
    | some (w, v, t) => (t, Memory.write acc.2 b (leBytes (w / 8) v.toNat))
    | none => acc) (s, [])
  (r.1, Memory.read r.2 a n)

/-- Writes bytes over the registers from address `a`; a part of a register that they do not cover keeps its value (log entry 25). -/
def State.writeBytes (s : State) (a : Nat) (bs : List Byte) : State :=
  (s.regsIn a bs.length).foldl (fun t b =>
    match t.readTarget (decodeAddr b) with
    | some (w, v, _) =>
      let old := leBytes (w / 8) (v.toNat - (v.toNat &&& oneBits (decodeAddr b)))
      let new := (List.range (w / 8)).map fun i => if a ≤ b + i then (bs[b + i - a]?).getD (old[i]?.getD 0) else old[i]?.getD 0
      (t.writeTarget (BitVec.ofNat 64 (leNat new)) (decodeAddr b)).getD t
    | none => t) s

/-! ### Which source reaches which register (R26, R440) -/

/-- Whether a register of G0 may be read at reach R0. -/
def r0Read (off : Nat) : Bool :=
  (0x1000 ≤ off && off ≤ 0x1040) || (0x2000 ≤ off && off < 0x2200) || off = 0x9000 || off = 0x9008 || off = 0x9010 || off = 0x9018 || off = 0x9020
    || off = 0xB000 || off = 0xB008 || off = 0xB010 || off = 0x7000 || (0x7040 ≤ off && off < 0x7080) || (0x7100 ≤ off && off < 0x7220)
    || off = 0x8000 || off = 0x8010 || off = 0x5000 || (0xD000 ≤ off && off < 0xD100)

/-- Whether a register of G0 may be written at reach R0 and R1. -/
def r0Write (off : Nat) : Bool := off = 0x5000 || off = 0x9008 || off = 0xD008 || off = 0xD010 || (0xD080 ≤ off && off < 0xD100)

/-- The tenant registers (R440). -/
def tenantReg : Target → Bool
  | .galReg _ off => 0x800000 ≤ off
  | .sumpReg _ off => 0x10000 ≤ off && off < 0x18000
  | .coreReg _ off | .physReg _ off =>
    (0x1100 ≤ off && off < 0x1400) || (0x2100 ≤ off && off < 0x2300) || off = 0x0C08 || off = 0x6000 || off = 0x6008
      || (0x3400 ≤ off && off < 0x3800) || off = 0x3000 || off = 0x3004 || off = 0x3010 || off = 0x3014 || (0x4000 ≤ off && off < 0x6000)
  | .settReg _ off | .siteReg _ off => (0x3100 ≤ off && off < 0x3200) || 0x80000 ≤ off
  | _ => false

/-- Whether a target lies in the physical sett view. -/
def physView : Target → Bool
  | .siteReg _ _ | .physReg _ _ => true
  | _ => false

/-- Whether a register is the TIME_NOW, or also the TIME_STATUS, of an island. -/
def timeReg : Target → Bool
  | .settReg _ off | .sumpReg _ off => off = 0x5040 || off = 0x5048
  | .galReg _ off => off = 0x6040 || off = 0x6048
  | _ => false

/-- The reach of the management aperture at a debug level: R0 at OFF, R1 at OBSERVE, R2 at FULL (R440, R445). -/
def reaches (level : BitVec 2) (write : Bool) (t : Target) : Bool :=
  if level = 2 then true
  else if write then (match t with
    | .galReg 0 off => r0Write off
    | _ => false)
  else if level = 1 then !tenantReg t
  else match t with
    | .galReg 0 off => r0Read off
    | _ => false

/-- Whether a source class may access a register (R26, R440). -/
def mayAccess (cls : BitVec 3) (level : BitVec 2) (write : Bool) (t : Target) : Bool :=
  match cls.toNat with
  | 4 => true
  | 2 => !physView t && reaches level write t
  | 1 => !write && timeReg t
  | 3 => !write && (timeReg t || (match t with
    | .galReg 0 off => off = 0xF000 || (0xF200 ≤ off && off < 0xF400)
    | _ => false))
  | _ => false

/-- The status of an access of class `cls` to the registers of `n` bytes from address `a`: no register there, one that the class does not reach,
or OK. -/
def State.regStatus (s : State) (cls : BitVec 3) (write : Bool) (a n : Nat) : BitVec 4 :=
  let rs := s.regsIn a n
  if rs.isEmpty then stUnmapped
  else if rs.all fun b => mayAccess cls s.sec.level write (decodeAddr b) then stOk
  else stDenied

/-- A read of registers: the status, and the bytes, zeros unless it is OK (R27, R440). -/
def State.regRead (s : State) (cls : BitVec 3) (a n : Nat) : State × BitVec 4 × List Byte :=
  let st := s.regStatus cls false a n
  if st = 0 then
    let (t, bs) := s.readBytes a n
    (t, stOk, bs)
  else (s, st, List.replicate n 0)

/-- A write of registers and its status. -/
def State.regWrite (s : State) (cls : BitVec 3) (a : Nat) (bs : List Byte) : State × BitVec 4 :=
  let st := s.regStatus cls true a bs.length
  if st = 0 then (s.writeBytes a bs, stOk) else (s, st)

end Sys2Proof.Machine
end

