-- ==== Sys2Proof/Machine/CtxCmds.lean ====
section
/-! DEFINITION. The commands of contexts, queue pairs and regions (R302 to R306, R324, R325). -/

namespace Sys2Proof.Machine

/-! ### Carrying out a command -/

/-- Whether an authorised operation is APPLYING (R434, R437). -/
def State.applying (s : State) : Bool := fld s.sec.authCtrl 29 27 = 3

/-- Whether a command with an opcode is the next that its path starts (R309); none starts during a firmware activation, and no CTX_OPEN during an
unlock (R422, R437). -/
def State.startable (s : State) (c : Cmd) (op : Nat) : Bool :=
  c.op = op && s.host.toDo.find? (fun d => d.src = c.src) = some c && !s.fw.restarting && !(op = 1 && s.applying)

/-- What G0 finds when the command's turn comes: its context has closed, or is fenced (R313, R320, R332). -/
def State.tooLate (s : State) (c : Cmd) : Option Nat := if !s.ctxOk c then some 0x06 else if !s.unfenced c then some 0x30 else none

/-- The command is no longer one of those that wait to be carried out. -/
def State.started (s : State) (c : Cmd) : State := { s with host := { s.host with toDo := s.host.toDo.erase c } }

/-- Carries a command out when its turn has come. -/
def State.run (s : State) (c : Cmd) (op : Nat) (f : State → State) : State :=
  if s.startable c op then
    match s.tooLate c with
    | some st => (s.started c).completeSt c st
    | none => f (s.started c)
  else s

/-- The record of a command that is done. -/
def okRec (c : Cmd) (result dataA dataB : Nat) : Rec :=
  { cmdAnswer c 0 with result := BitVec.ofNat 32 result, dataA := BitVec.ofNat 64 dataA, dataB := BitVec.ofNat 64 dataB }

/-! ### Contexts (R302 to R306) -/

/-- WEIGHT of w2: 16 with WDEF. -/
def weightOf (w2 : BitVec 64) : BitVec 8 := if bit w2 8 then 16 else w2.setWidth 8

/-- TLIMIT_MS of w2: 0 selects 100. -/
def limitOf (w2 : BitVec 64) : BitVec 16 := if fld w2 31 16 = 0 then 100 else BitVec.ofNat 16 (fld w2 31 16)

/-- A context as it is opened. -/
def Ctx.opened (home : Nat) (weight : BitVec 8) (limit : BitVec 16) (cookie : BitVec 64) : Ctx :=
  { closing := false, home := home, bound := [home], weight := weight, limitMs := limit, deficit := 0, jobId := 0, cookie := cookie, evq := none,
    events := [], reserve := [], regions := [], hint := none, pin := none, pinAt := 0, invalid := false, digest := 0, slots := 0,
    shadowOn := false, launched := 0, rrLast := none, closers := [], handoff := false }

/-- The lowest free context id (R302). -/
def State.freeCtx (s : State) : Option Nat := (List.range 1024).find? fun n => (s.ctx n).isNone

/-- Contexts homed on a function. -/
def State.homed (s : State) (f : Nat) : Nat := (s.openCtxs.filter fun n => (s.ctx n).any fun x => x.home = f).length

/-- The effect of CTX_OPEN: a quota comes before the pool (R303). -/
def State.ctxOpen (s : State) (c : Cmd) : State :=
  let f := c.src.fn
  let q := (s.fn f).maxCtx.toNat
  if q ≠ 0 ∧ q ≤ s.homed f then s.completeSt c 0x0A
  else match s.freeCtx with
    | none => s.completeSt c 0x07
    | some n =>
      let cookie := s.fresh.1.setWidth 64
      let t := s.fresh.2.setCtx n (some (Ctx.opened f (weightOf c.desc.w2) (limitOf c.desc.w2) cookie))
      t.complete c (okRec c n cookie.toNat 0)

/-- CTX_OPEN (R302 to R304, R324). -/
def execCtxOpen (c : Cmd) (s : State) : Host.Outcome State Fault Refusal := .next (s.run c 0x01 fun t => t.ctxOpen c)

/-- The effect of CTX_CLOSE: a second close joins the first (R306). -/
def State.ctxClose (s : State) (c : Cmd) : State :=
  let t := if (s.ctx c.ctx).any Ctx.closing then s else s.startClose c.ctx
  (t.modCtx c.ctx fun x => { x with closers := x.closers ++ [c] }).closeStep

/-- CTX_CLOSE (R306). -/
def execCtxClose (c : Cmd) (s : State) : Host.Outcome State Fault Refusal := .next (s.run c 0x02 fun t => t.ctxClose c)

/-- The effect of CTX_ATTACH: a port has at most one bound function; a second one on a port is NOT_PERMITTED (DESIGN CHOICE, log entry 20). -/
def State.ctxAttach (s : State) (c : Cmd) : State :=
  let f := c.src.fn
  match s.ctx c.ctx with
  | none => s.completeSt c 0x06
  | some x =>
    if x.cookie ≠ c.desc.w2 then s.completeSt c 0x13
    else if x.bound.contains f then s.completeSt c 0
    else if x.bound.any fun g => g / 64 = f / 64 then s.completeSt c 0x05
    else (s.setCtx c.ctx (some { x with bound := x.bound ++ [f] })).completeSt c 0

/-- CTX_ATTACH (R305). -/
def execCtxAttach (c : Cmd) (s : State) : Host.Outcome State Fault Refusal := .next (s.run c 0x03 fun t => t.ctxAttach c)

/-- The effect of CTX_DETACH: the home function cannot be detached. -/
def State.ctxDetach (s : State) (c : Cmd) : State :=
  if (s.ctx c.ctx).any fun x => x.home = c.src.fn then s.completeSt c 0x05 else (s.detach c.ctx c.src.fn).completeSt c 0

/-- CTX_DETACH (R305). -/
def execCtxDetach (c : Cmd) (s : State) : Host.Outcome State Fault Refusal := .next (s.run c 0x04 fun t => t.ctxDetach c)

/-- A context with the fields that CTX_SET names changed. -/
def Ctx.change (x : Ctx) (d : Desc) : Ctx :=
  { x with weight := if bit d.w2 63 then weightOf d.w2 else x.weight, limitMs := if bit d.w2 62 then limitOf d.w2 else x.limitMs,
           jobId := if bit d.w2 61 then d.w3 else x.jobId }

/-- CTX_SET (R324); a context that takes a job stands under this panel's epoch for it (R460). -/
def execCtxSet (c : Cmd) (s : State) : Host.Outcome State Fault Refusal :=
  .next (s.run c 0x05 fun t => (t.modCtx c.ctx fun x => x.change c.desc).completeSt c 0)

/-! ### Queue pairs (R302, R303, R307, R324) -/

/-- The I/O queue pairs of the panel that `p` selects. -/
def State.ioQps (s : State) (p : Nat → Bool) : Nat := ((s.host.qps.map Prod.fst).filter fun k => k % 1024 ≠ 0 && p k).length

/-- The lowest free I/O index of a function. -/
def State.freeQp (s : State) (f : Nat) : Option Nat := (List.range' 1 1023).find? fun i => (s.qp (qpKey f i)).isNone

/-- The queue pair that a QP_CREATE describes. -/
def Qp.created (d : Desc) (ctx : Nat) : Qp :=
  { ctx := BitVec.ofNat 10 ctx, sqBase := d.w2.setWidth 48, cqBase := d.w3.setWidth 48, sqDepth := fld d.w4 63 48 + 1, cqDepth := fld d.w4 47 32 + 1,
    sqHead := 0, sqTail := 0, cqHead := 0, cqTail := 0, phase := true, vector := fld d.w4 31 21, ien := bit d.w4 20,
    thresh := BitVec.ofNat 8 (fld d.w4 15 8), time := BitVec.ofNat 8 (fld d.w4 7 0), unsig := 0, unsigAt := 0, error := false, reserved := 0,
    deleting := false, due := [], deleter := [] }

/-- The effect of QP_CREATE. -/
def State.qpCreate (s : State) (c : Cmd) : State :=
  let f := c.src.fn
  let q := (s.fn f).maxQp.toNat
  if q ≠ 0 ∧ q ≤ s.ioQps (fun k => k / 1024 = f) then s.completeSt c 0x0A
  else if 4096 ≤ s.ioQps (fun _ => true) then s.completeSt c 0x08
  else match s.freeQp f with
    | none => s.completeSt c 0x08
    | some i =>
      let k := qpKey f i
      let t := s.setQp k (some (Qp.created c.desc c.ctx))
      let t := { t with sched := { t.sched with chains := t.sched.chains.filter fun e => e.1.key ≠ some k } }
      let t := if bit c.desc.w4 19 then (t.modCtx c.ctx fun x => { x with evq := some k }).pumpCtx c.ctx else t
      t.complete c (okRec c i 0 0)

/-- QP_CREATE (R307, R324). -/
def execQpCreate (c : Cmd) (s : State) : Host.Outcome State Fault Refusal := .next (s.run c 0x06 fun t => t.qpCreate c)

/-- Queued passes that a queue pair carried end without launching (R324). -/
def State.dropPasses (s : State) (k : Nat) : State :=
  let mine := s.sched.queue.filter fun q => q.cmd.src.key = some k
  let t := mine.foldl (fun t q => t.endUnlaunched q 0x0C) s
  match t.sched.picked with
  | some x => if x.pass.cmd.src.key = some k then t.endUnlaunched x.pass 0x0C else t
  | none => t

/-- The effect of QP_DELETE: fetch stops, no record is posted any more, and it completes when nothing fetched is left (R324). -/
def State.qpDelete (s : State) (c : Cmd) : State :=
  let k := qpKey c.src.fn (fld c.desc.w2 9 0)
  match s.qp k with
  | none => s.completeSt c 0x0D
  | some _ =>
    let t := s.modQp k fun q => { q with deleting := true, due := [], deleter := q.deleter ++ [c] }
    let t := t.openCtxs.foldl (fun t n => t.modCtx n fun x => if x.evq = some k then { x with evq := none } else x) t
    ((t.dropPasses k).finishDelete k).closeStep

/-- QP_DELETE (R324). -/
def execQpDelete (c : Cmd) (s : State) : Host.Outcome State Fault Refusal := .next (s.run c 0x07 fun t => t.qpDelete c)

/-- The effect of VF_QUOTA. -/
def State.vfQuota (s : State) (c : Cmd) : State :=
  let f := c.src.fn / 64 * 64 + fld c.desc.w2 5 0
  (s.modFn f fun x => { x with maxQp := BitVec.ofNat 16 (fld c.desc.w2 47 32), maxCtx := BitVec.ofNat 16 (fld c.desc.w2 31 16) }).completeSt c 0

/-- VF_QUOTA (R303, R324). -/
def execVfQuota (c : Cmd) (s : State) : Host.Outcome State Fault Refusal := .next (s.run c 0x08 fun t => t.vfQuota c)

/-! ### Regions (R275, R278, R325) -/

/-- The effect of REGION_CREATE: a pool that is empty in one sump refuses the region; a stack that is not READY holds no entry (DESIGN CHOICE, log
entry 21). -/
def State.regionCreate (s : State) (c : Cmd) : State :=
  let ps := ((createParts c).getD []).filter fun e => (s.sump e.1).ready
  if ps.isEmpty then s.completeSt c 0x12
  else if ps.any fun e => (s.sump e.1).freeRegion.isNone then s.completeSt c 0x09
  else ps.foldl (fun t e => t.modSump e.1 fun x => x.addFill e.2) s

/-- REGION_CREATE (R278, R325): it completes with the last zero-fill. -/
def execRegionCreate (c : Cmd) (s : State) : Host.Outcome State Fault Refusal := .next (s.run c 0x10 fun t => t.regionCreate c)

/-- One entry equal to `e` leaves a sump's table. -/
def Sump.dropEntry (x : Sump) (e : BitVec 64) : Sump :=
  match x.regions.find? fun r => r.2 = e with
  | some r => { x with regions := Tab.set 0 x.regions r.1 0 }
  | none => x

/-- The entries of a region of context n. -/
def Region.parts (r : Region) (n : Nat) : List (Nat × BitVec 64) := (regionParts n r.base.toNat r.size r.rd r.wr).getD []

/-- The effect of REGION_REMOVE. -/
def State.regionRemove (s : State) (c : Cmd) : State :=
  match (s.ctx c.ctx).bind fun x => x.regions.find? fun r => r.base.toNat = c.desc.w2.toNat && r.size = c.desc.w3.toNat with
  | none => s.completeSt c 0x0D
  | some r =>
    let t := (r.parts c.ctx).foldl (fun t e => t.modSump e.1 fun x => x.dropEntry e.2) s
    (t.modCtx c.ctx fun x => { x with regions := x.regions.erase r }).completeSt c 0

/-- REGION_REMOVE (R278, R325). -/
def execRegionRemove (c : Cmd) (s : State) : Host.Outcome State Fault Refusal := .next (s.run c 0x11 fun t => t.regionRemove c)

end Sys2Proof.Machine
end

