-- ==== Sys2Proof/Machine/ResCmds.lean ====
section
/-! DEFINITION. The commands of placements, residency, passes and copies (R228 to R245, R325 to R329). -/

namespace Sys2Proof.Machine

/-! ### The directory (R229, R231) -/

/-- HANDLE of a residency command. -/
def handleOf (c : Cmd) : Nat := fld c.desc.w2 18 0

/-- The effect of PLACE_REGISTER: RESULT is the handle and INVALID. -/
def State.placeRegister (s : State) (c : Cmd) : State :=
  match s.register c.ctx c.desc.w2.toNat with
  | (t, .error st) => t.completeSt c st
  | (t, .ok h) => t.complete c (okRec c (h + b2n (t.entry h).invalid * 2 ^ 31) 0 0)

/-- PLACE_REGISTER (R229). -/
def execPlaceRegister (c : Cmd) (s : State) : Host.Outcome State Fault Refusal := .next (s.run c 0x18 fun t => t.placeRegister c)

/-- Whether entry h is loading. -/
def State.isLoading (s : State) (h : Nat) : Bool := s.fill.running.any fun l => l.req.joins h

/-- Whether a queued or picked pass names entry h (R231). -/
def State.passNames (s : State) (h : Nat) : Bool :=
  s.sched.queue.any (fun q => q.handle.toNat = h) || s.sched.picked.any fun x => x.pass.handle.toNat = h

/-- A context lets go of its hint and pin of an entry. -/
def Ctx.forget (x : Ctx) (h : Nat) : Ctx :=
  { x with hint := x.hint.filter (fun k => k.toNat ≠ h), pin := x.pin.filter fun k => k.toNat ≠ h }

/-- The effect of PLACE_UNREGISTER. -/
def State.placeUnregister (s : State) (c : Cmd) : State :=
  let h := handleOf c
  if !s.owns c.ctx h then s.completeSt c 0x0D
  else if s.needed h || s.passNames h || s.isLoading h then s.completeSt c 0x2A
  else ((s.unregister h).modCtx c.ctx fun x => x.forget h).completeSt c 0

/-- PLACE_UNREGISTER (R231, R241). -/
def execPlaceUnregister (c : Cmd) (s : State) : Host.Outcome State Fault Refusal := .next (s.run c 0x19 fun t => t.placeUnregister c)

/-! ### Residency (R237 to R244) -/

/-- RES_LOAD (R237, R239, R241). -/
def execResLoad (c : Cmd) (s : State) : Host.Outcome State Fault Refusal :=
  .next (s.run c 0x1A fun t => if !t.owns c.ctx (handleOf c) then t.completeSt c 0x0D else t.requestLoad c (handleOf c) none)

/-- The effect of RES_LOAD_HOST: the first 4 KiB come through the port of the command and are written with the rights of the context; then the entry
is registered, and the load joins the fill queue (R240). -/
def State.resLoadHost (s : State) (c : Cmd) (page : HostRead) : State :=
  if !(s.gal (c.src.fn / 64)).linkUp then s.completeSt c 0x12
  else match page with
    | .fail st => s.completeSt c (fabricSt st)
    | .ok data =>
      let (t, st) := s.hbmWrite (some c.ctx) c.desc.w3.toNat (data.take 4096)
      if st ≠ 0 then t.completeSt c (fabricSt st)
      else match t.register c.ctx c.desc.w3.toNat with
        | (u, .error e) => u.completeSt c e
        | (u, .ok h) => u.requestLoad c h (some (c.desc.w2.setWidth 48))

/-- RES_LOAD_HOST (R240). -/
def execResLoadHost (c : Cmd) (page : HostRead) (s : State) : Host.Outcome State Fault Refusal := .next (s.run c 0x1B fun t => t.resLoadHost c page)

/-- The effect of RES_RELEASE. -/
def State.resRelease (s : State) (c : Cmd) : State :=
  let h := handleOf c
  if !s.owns c.ctx h then s.completeSt c 0x0D
  else if s.needed h || s.isLoading h then s.completeSt c 0x2A
  else (s.release h).completeSt c 0

/-- RES_RELEASE (R241, R244). -/
def execResRelease (c : Cmd) (s : State) : Host.Outcome State Fault Refusal := .next (s.run c 0x1C fun t => t.resRelease c)

/-- The effect of RES_HINT: a new hint replaces the old one; a withdrawal names the hint that it ends. -/
def State.resHint (s : State) (c : Cmd) : State :=
  let k := BitVec.ofNat 19 (handleOf c)
  if !s.owns c.ctx (handleOf c) then s.completeSt c 0x0D
  else (s.modCtx c.ctx fun x =>
    { x with hint := if bit c.desc.w2 63 then (if x.hint = some k then none else x.hint) else some k }).completeSt c 0

/-- RES_HINT (R243, R325). -/
def execResHint (c : Cmd) (s : State) : Host.Outcome State Fault Refusal := .next (s.run c 0x1D fun t => t.resHint c)

/-- A context's pin ends. -/
def State.unpin (s : State) (n : Nat) : State :=
  match (s.ctx n).bind Ctx.pin with
  | some k => (s.modCtx n fun x => { x with pin := none }).modEntry k.toNat fun e => { e with pinned := false }
  | none => s

/-- The effect of RES_PIN: a second pin replaces the first. -/
def State.resPin (s : State) (c : Cmd) : State :=
  let h := handleOf c
  let k := BitVec.ofNat 19 h
  if !s.owns c.ctx h then s.completeSt c 0x0D
  else if bit c.desc.w2 63 then (if (s.ctx c.ctx).bind Ctx.pin = some k then s.unpin c.ctx else s).completeSt c 0
  else
    let t := (s.unpin c.ctx).modCtx c.ctx fun x => { x with pin := some k, pinAt := s.tclk }
    (t.modEntry h fun e => { e with pinned := true }).completeSt c 0

/-- RES_PIN (R243). -/
def execResPin (c : Cmd) (s : State) : Host.Outcome State Fault Refusal := .next (s.run c 0x1E fun t => t.resPin c)

/-! ### Passes (R326) -/

/-- The pass that a PASS_LAUNCH describes. -/
def passOf (c : Cmd) : QPass :=
  let w := c.desc.w2
  { cmd := c, ctx := BitVec.ofNat 10 c.ctx, handle := BitVec.ofNat 19 (fld w 63 45), timed := bit w 44, flip := bit w 43, chain := bit w 42,
    tAuto := bit w 41, t := c.desc.w3, params := c.desc.ext.getD 0 }

/-- The effect of PASS_LAUNCH: the pass is queued, unless its handle names no entry or its chain is cancelled. -/
def State.passLaunch (s : State) (c : Cmd) : State :=
  let q := passOf c
  let cancelled := s.sched.chains.any fun e => e.1 = c.src && e.2
  let t := if q.chain then s else s.setChain c.src false
  if !s.owns c.ctx q.handle.toNat then t.completeSt c 0x0D
  else if q.chain && cancelled then t.complete c (t.unlaunchedRec q 0x24)
  else { t with sched := { t.sched with queue := t.sched.queue ++ [q] } }

/-- PASS_LAUNCH (R326). -/
def execPassLaunch (c : Cmd) (s : State) : Host.Outcome State Fault Refusal := .next (s.run c 0x20 fun t => t.passLaunch c)

/-! ### Abort (R328, R329) -/

/-- The context that a command in progress belongs to, through its queue pair. -/
def State.cmdCtx (s : State) (c : Cmd) : Option Nat :=
  match c.src.key with
  | some k => if k % 1024 = 0 then none else (s.qp k).map fun q => q.ctx.toNat
  | none => none

/-- Whether an ABORT may name a target: on an I/O queue, one of its context. -/
def State.mayAbort (s : State) (c t : Cmd) : Bool := !c.src.io || s.cmdCtx t = some c.ctx

/-- The target of an ABORT (R328): by queue pair of the submitting function and tag, the earliest fetched; or the pass with a number. -/
def State.abortTarget (s : State) (c : Cmd) : Option Cmd :=
  if bit c.desc.w2 63 then
    match s.ledger.pass with
    | some q =>
      if s.ledger.state ≠ .idle && s.ledger.passNum.toNat = c.desc.w3.toNat && (!c.src.io || q.ctx.toNat = c.ctx) then some q.cmd else none
    | none => none
  else
    (s.host.inProg.erase c).find? fun t =>
      t.src.key = some (qpKey c.src.fn (fld c.desc.w2 9 0)) && t.tag.toNat = c.desc.w3.toNat && s.mayAbort c t

/-- A waiting load of a command leaves the fill queue. -/
def State.dropWaitingLoad (s : State) (t : Cmd) : State :=
  let q := s.fill.queue.map fun r => { r with cmds := r.cmds.erase t }
  { s with fill := { s.fill with queue := q.filter fun r => !r.cmds.isEmpty || r.sched } }

/-- A MEADOW_POWER command that waits for a grant ends, and its waiting meadows stay dark. -/
def State.dropMeadowJob (s : State) (t : Cmd) : State :=
  let mine := s.power.requests.filter fun r => r.cmd = some t
  let u := { s with power := { s.power with requests := s.power.requests.filter (fun r => r.cmd ≠ some t),
                                            jobs := s.power.jobs.filter fun j => j.cmd ≠ t } }
  mine.foldl (fun u r => if u.meadowState r.meadow = 1 then u.setMeadow r.meadow 0 else u) u

/-- What an ABORT does to a target in progress: the state and RESULT (R328). -/
def State.abortCmd (s : State) (t : Cmd) : State × Nat :=
  if t.op = 0x20 then
    match (s.sched.queue ++ (s.sched.picked.map Picked.pass).toList).find? fun q => q.cmd = t with
    | some q => (s.endUnlaunched q 0x0C, 0)
    | none =>
      if s.host.toDo.contains t then
        let u := if s.host.toDo.find? (fun d => d.src = t.src && d.op = 0x20) = some t then s.setChain t.src true else s
        (u.complete t (s.unlaunchedRec (passOf t) 0x0C), 0)
      else
        let r := match s.ledger.state, s.ledger.outcome with
          | .launching, _ | .running, _ => 1
          | .ended, .completed => 2
          | _, _ => 4
        (s.recordAbort abHost [], r)
  else if (t.op = 0x1A || t.op = 0x1B) && s.fill.queue.any (fun r => r.cmds.contains t) then
    let h := ((s.fill.queue.find? fun r => r.cmds.contains t).map fun r => r.handle.toNat).getD 0
    ((s.dropWaitingLoad t).answerLoads [t] (t.op = 0x1B) h 0x0C 0 0, 0)
  else if t.op = 0x35 && s.power.requests.any (fun r => r.cmd = some t) then ((s.dropMeadowJob t).completeSt t 0x0C, 0)
  else if t.op = 0x22 then
    let u := { s with host := { s.host with memCopies := s.host.memCopies.filter fun e => e.1 ≠ t } }
    (u.completeSt t 0x0C, 0)
  else (s, 3)

/-- The effect of ABORT: its record follows that of its target (R329). -/
def State.abort (s : State) (c : Cmd) : State :=
  match s.abortTarget c with
  | none => s.completeSt c 0x0D
  | some t =>
    let (u, r) := s.abortCmd t
    let w : AbortWait := { target := t, cmd := c, result := r }
    State.answerAborts { u with host := { u.host with aborts := u.host.aborts ++ [w] } }

/-- ABORT (R328, R329). -/
def execAbort (c : Cmd) (s : State) : Host.Outcome State Fault Refusal := .next (s.run c 0x21 fun t => t.abort c)

/-! ### MEM_COPY (R299, R301, R325, R464) -/

/-- The function through which a context reaches host memory at an address, or the status of R299 and R300. -/
def State.hostPath (s : State) (n a : Nat) : Except (BitVec 4) Nat :=
  let port := nfld a 46 45
  if !(s.gal port).linkUp then .error stAbsent
  else match s.fnOnPort port 1 n with
    | some f => .ok f
    | none => .error stDenied

/-- The bytes of a piece of a copy's source. -/
def State.copyRead (s : State) (c : Cmd) (off n : Nat) (src : HostRead) : State × Except (BitVec 4) (List Byte) :=
  let a := c.desc.w2.toNat + off
  match decodeAddr a with
  | .hbm _ _ => s.hbmRead (some c.ctx) a n
  | .host _ _ =>
    match s.hostPath c.ctx a with
    | .error st => (s, .error st)
    | .ok _ => match src with
      | .ok data => (s, .ok (data.take n))
      | .fail st => (s, .error st)
  | .unmapped => (s, .error stUnmapped)
  | _ => (s, .error stDenied)

/-- A piece of a copy is written; a shadowed context writes nothing to host memory (R464). -/
def State.copyWrite (s : State) (c : Cmd) (off : Nat) (bs : List Byte) : State × BitVec 4 :=
  let a := c.desc.w3.toNat + off
  match decodeAddr a with
  | .hbm _ _ => s.hbmWrite (some c.ctx) a bs
  | .host _ addr =>
    if (s.ctx c.ctx).any Ctx.shadowOn then (s, stOk)
    else match s.hostPath c.ctx a with
      | .error st => (s, st)
      | .ok f =>
        let w := HostOut.write (f / 64) (f % 64) (BitVec.ofNat 48 addr) bs
        ({ s with host := { s.host with out := s.host.out ++ [w] } }, stOk)
  | .unmapped => (s, stUnmapped)
  | _ => (s, stDenied)

/-- The functions through which a copy has written host memory (R301). -/
def State.copyFns (s : State) (c : Cmd) (moved : Nat) : List Nat :=
  if moved = 0 || !bit c.desc.w3 47 || (s.ctx c.ctx).any Ctx.shadowOn then []
  else match s.hostPath c.ctx c.desc.w3.toNat with
    | .ok f => [f]
    | .error _ => []

/-- A copy ends with a status, after what it wrote is visible. -/
def State.copyEnd (s : State) (c : Cmd) (moved status : Nat) : State :=
  let t := { s with host := { s.host with memCopies := s.host.memCopies.filter fun e => e.1 ≠ c } }
  t.completeAfter c (cmdAnswer c status) (t.copyFns c moved)

/-- The next piece of a copy, up to the next 4 KiB of its length. -/
def State.copyPiece (s : State) (c : Cmd) (off : Nat) (src : HostRead) : State :=
  let n := min 4096 (c.desc.w4.toNat - off)
  match s.copyRead c off n src with
  | (t, .error st) => t.copyEnd c off (fabricSt st)
  | (t, .ok bs) =>
    let (u, st) := t.copyWrite c off bs
    if st ≠ 0 then u.copyEnd c off (fabricSt st)
    else if c.desc.w4.toNat ≤ off + n then u.copyEnd c (off + n) 0
    else
      let rest := u.host.memCopies.filter fun e => e.1 ≠ c
      { u with host := { u.host with memCopies := rest ++ [(c, off + n)] } }

/-- MEM_COPY (R325): one execution moves one piece, with what a read of host memory brings; the command is in progress until the last. -/
def execMemCopy (c : Cmd) (src : HostRead) (s : State) : Host.Outcome State Fault Refusal :=
  .next (match s.host.memCopies.find? fun e => e.1 = c with
    | some e => if s.fw.restarting then s else s.copyPiece c e.2 src
    | none => s.run c 0x22 fun t => t.copyPiece c 0 src)

end Sys2Proof.Machine
end

