-- ==== Sys2Proof/Machine/Spans.lean ====
section
/-! DEFINITION. Penlet links, the span record, the roster, span routes, span time and heartbeats (R446 to R455). -/

namespace Sys2Proof.Machine

/-! ### Links (R446, R447) -/

/-- PEN_LINK of engine e. -/
def State.pen (s : State) (e : Nat) : BitVec 64 := Tab.get 0 (s.gal (e / 4)).penLink (e % 4)

/-- STATE of an engine's link: 0 DARK, 1 TRAINING, 2 UP, 3 DEGRADED, 4 MISMATCH, 5 DOWN. -/
def State.penState (s : State) (e : Nat) : Nat := fld (s.pen e) 63 60

/-- Whether an engine's link carries traffic: UP, or DEGRADED at half capacity. -/
def State.engineUp (s : State) (e : Nat) : Bool := (s.penState e = 2 || s.penState e = 3) && !(s.gal (e / 4)).failed

/-- The engines whose links carry traffic, in rising order. -/
def State.upEngines (s : State) : List Nat := (List.range 16).filter s.engineUp

/-- PEN_LINK of engine e is set; a change of STATE reaches the gallery's interrupt controller (R424). -/
def State.setPen (s : State) (e : Nat) (v : BitVec 64) : State :=
  let old := s.penState e
  let t := s.modGal (e / 4) fun x => { x with penLink := Tab.set 0 x.penLink (e % 4) v }
  if fld v 63 60 = old then t else t.edge (e / 4) (262 + e % 4)

/-- Whether the panel belongs to a span (R449). -/
def State.inSpan (s : State) : Bool := s.span.record.spanId ≠ 0

/-- The panel's own index. -/
def State.ownIndex (s : State) : Nat := s.span.record.index.val

/-- Whether the panel is the lead of its span. -/
def State.isLead (s : State) : Bool := s.inSpan && s.span.record.lead

/-! ### Routes (R451) -/

/-- Hops to member k by engine e, as its heartbeats and IDENT frames show; 0 when none has come that way. -/
def State.hopsVia (s : State) (e k : Nat) : Nat := Tab.get 0 s.span.hops (64 * e + k)

/-- The engine with the fewest hops to member k among a list, the lowest number on ties. -/
def State.bestEngine (s : State) (k : Nat) (es : List Nat) : Option Nat :=
  es.foldl (fun (a : Option Nat) e =>
    match a with
    | none => some e
    | some b => if s.hopsVia e k < s.hopsVia b k then some e else some b) none

/-- PEN_ROUTE_k as G0 computes it: ALT is the engine with the next fewest hops, whose path starts on another link (DEDUCED, log entry 26). -/
def State.spanRouteEntry (s : State) (k : Nat) : BitVec 32 :=
  let es := if k = s.ownIndex then [] else s.upEngines.filter fun e => s.hopsVia e k ≠ 0
  match s.bestEngine k es with
  | none => 0
  | some p =>
    let base := 2 ^ 31 + p * 2 ^ 20 + s.hopsVia p k % 64
    match s.bestEngine k (es.erase p) with
    | none => BitVec.ofNat 32 base
    | some a => BitVec.ofNat 32 (base + a * 2 ^ 16 + 2 ^ 15)

/-- The span route table is computed anew. -/
def State.spanRoutes (s : State) : State :=
  { s with span := { s.span with routes := Tab.write 0 [] 0 ((List.range 64).map s.spanRouteEntry) } }

/-- The engine that frames to panel k take: PRIMARY, or ALT while the link of PRIMARY is not UP. -/
def State.spanRoute (s : State) (k : Nat) : Option Nat :=
  let r := Tab.get 0 s.span.routes k
  if !bit r 31 then none
  else if s.engineUp (fld r 23 20) then some (fld r 23 20)
  else if bit r 15 && s.engineUp (fld r 19 16) then some (fld r 19 16)
  else none

/-- What came by engine e says nothing any more. -/
def State.forgetHops (s : State) (e : Nat) : State := { s with span := { s.span with hops := Tab.clear s.span.hops (64 * e) 64 } }

/-! ### Frames that leave -/

/-- A frame leaves on engine e. -/
def State.sendFrame (s : State) (e : Nat) (f : PenFrame) : State := { s with span := { s.span with out := s.span.out ++ [(e, f)] } }

/-- A frame leaves on every UP link, but for one engine. -/
def State.sendAll (s : State) (but : Option Nat) (f : PenFrame) : State :=
  (s.upEngines.filter fun e => some e ≠ but).foldl (fun t e => t.sendFrame e f) s

/-- The panel's IDENT frame on engine e. -/
def State.ownIdent (s : State) (e : Nat) : IdentFrame :=
  { spanId := s.span.record.spanId, index := s.span.record.index, serial := s.nv.serial, lead := s.span.record.lead, engine := Fin.ofNat 16 e }

/-- An engine's link trains `lanes` lanes: with fewer than 4 it is DOWN, else both ends exchange IDENT frames (R447, R450). -/
def State.trainLink (s : State) (e lanes : Nat) : State :=
  if !s.inSpan || (s.gal (e / 4)).failed || !s.pins.rimGood then s
  else
    let v := setFld (setFld (s.pen e) 59 56 (min 8 lanes)) 63 60 (if lanes < 4 then 5 else 1)
    let t := ((s.setPen e v).forgetHops e).spanRoutes
    if lanes < 4 then t else t.sendFrame e (.ident (t.ownIdent e))

/-- PENLET_LINK_TRAIN (R446, R447): without a span the engine stays DARK. -/
def execPenletLinkTrain (e : Engine) (lanes : BitVec 4) (s : State) : Host.Outcome State Fault Refusal :=
  .next (s.trainLink e.val lanes.toNat)

/-- PENLET_LINK_LOSS (R447, R451): fewer than 4 good lanes drop the link, 4 to 7 degrade it; frames take ALT at once. -/
def execPenletLinkLoss (e : Engine) (lanes : BitVec 4) (s : State) : Host.Outcome State Fault Refusal :=
  .next (
    let old := s.penState e.val
    let v := setFld (s.pen e.val) 59 56 (min 8 lanes.toNat)
    if old = 0 then s
    else if lanes.toNat < 4 then ((s.setPen e.val (setFld v 63 60 5)).forgetHops e.val).spanRoutes
    else s.setPen e.val (if old = 2 && lanes.toNat < 8 then setFld v 63 60 3 else v))

/-! ### Members and the roster (R450) -/

/-- PEN_PEER of index k with a STATE: 0 ABSENT, 1 ALIVE, 2 UNRESPONSIVE, 3 CONFLICT. -/
def State.setPeer (s : State) (k v : Nat) : State :=
  { s with span := { s.span with peers := Tab.mod 0 s.span.peers k fun x => setFld x 63 61 v } }

/-- STATE of PEN_PEER_k. -/
def State.peerState (s : State) (k : Nat) : Nat := fld (Tab.get 0 s.span.peers k) 63 61

/-- LEADERLESS follows the claims to the lead in a span, none or several, and LEAD_INDEX a single one (R450, PEN_SPAN). -/
def Span.setLeads (x : Span) (l : List Nat) : Span :=
  let v := setBit x.reg 29 (x.record.spanId ≠ 0 && decide (l.length ≠ 1))
  { x with leads := l, reg := if x.record.lead then v else match l with | [k] => setFld v 21 16 k | _ => v }

/-- The roster changes, with MEMBERS. -/
def Span.setRoster (x : Span) (l : List (Nat × BitVec 64)) : Span := { x with roster := l, reg := setFld x.reg 6 0 (min 64 l.length) }

/-- Whether a panel that names itself k with a serial number conflicts with the roster, or with this panel's own lead. -/
def State.conflicts (s : State) (k : Nat) (serial : BitVec 64) : Bool :=
  (s.span.roster.any fun e => e.1 = k && e.2 ≠ serial) || (s.isLead && s.span.leads.contains k && k ≠ s.ownIndex)

/-- The jobs of the panel's own open contexts. -/
def State.ownJobs (s : State) : List (BitVec 64) :=
  ((s.openCtxs.filterMap fun n => (s.ctx n).bind fun c => if c.closing || c.jobId = 0 then none else some c.jobId)).dedup

/-- The roster's jobs with a panel added to one. -/
def addJob (l : List (BitVec 64 × BitVec 64)) (job : BitVec 64) (panel : Nat) : List (BitVec 64 × BitVec 64) :=
  if l.any fun e => e.1 = job then l.map fun e => if e.1 = job then (e.1, setBit e.2 panel true) else e
  else l ++ [(job, setBit 0 panel true)]

/-- The roster's jobs with this panel's own brought up to date. -/
def State.jobsNow (s : State) : List (BitVec 64 × BitVec 64) :=
  let l := (s.span.rosterJobs.map fun e => (e.1, setBit e.2 s.ownIndex false)).filter fun e => e.2 ≠ 0
  s.ownJobs.foldl (fun l j => addJob l j s.ownIndex) l

/-- The lead sends the roster to every member. -/
def State.sendRoster (s : State) : State :=
  s.sendAll none (.roster { lead := s.span.record.index, members := s.span.roster.map (fun e => (Fin.ofNat 64 e.1, e.2)), jobs := s.span.rosterJobs })

/-- The lead has heard of a member: one that the roster does not hold yet is admitted. -/
def State.enrol (s : State) (k : Nat) (serial : BitVec 64) : State :=
  if s.isLead && !(s.span.roster.any fun e => e.1 = k) then
    State.sendRoster { s with span := s.span.setRoster (s.span.roster ++ [(k, serial)]) }
  else s

/-- The lead has learnt that a panel holds a context of a job (log entry 27). -/
def State.noteJobs (s : State) (l : List (BitVec 64 × BitVec 64)) : State :=
  if s.isLead && l ≠ s.span.rosterJobs then State.sendRoster { s with span := { s.span with rosterJobs := l } } else s

/-- A panel names itself: a conflict is recorded, or the member is admitted. -/
def State.heard (s : State) (k : Nat) (serial : BitVec 64) : State :=
  if s.conflicts k serial then s.setPeer k 3
  else (if s.peerState k = 3 then s.setPeer k 0 else s).enrol k serial

/-- An IDENT frame on an engine whose link has trained. -/
def State.identified (s : State) (e : Nat) (f : IdentFrame) : State :=
  let v := setFld (setFld (s.pen e) 55 50 f.index.val) 49 46 f.engine.val
  if f.spanId ≠ s.span.record.spanId || f.index = s.span.record.index then
    ((s.setPen e (setFld v 63 60 4)).forgetHops e).spanRoutes
  else
    let t := s.setPen e (setFld v 63 60 (if fld v 59 56 = 8 then 2 else 3))
    let l := if f.lead then addOnce t.span.leads f.index.val else t.span.leads.erase f.index.val
    let x := { t.span with hops := Tab.set 0 t.span.hops (64 * e + f.index.val) 1 }
    (State.heard { t with span := x.setLeads l } f.index.val f.serial).spanRoutes

/-- IDENT (R450). -/
def execIdent (e : Engine) (f : IdentFrame) (s : State) : Host.Outcome State Fault Refusal :=
  .next (if s.inSpan ∧ 1 ≤ s.penState e.val ∧ s.penState e.val ≤ 4 then s.identified e.val f else s)

/-- A member takes a roster, and sends a new one on. -/
def State.takeRoster (s : State) (e : Nat) (f : RosterFrame) : State :=
  let x := s.span.setLeads (addOnce s.span.leads f.lead.val)
  let t := { s with span := x }
  let l := f.members.map fun m => (m.1.val, m.2)
  if bit x.reg 29 || (l = x.roster && f.jobs = x.rosterJobs) then t
  else State.sendAll { t with span := { (x.setRoster l) with rosterJobs := f.jobs } } (some e) (.roster f)

/-- ROSTER (R450): while the span is LEADERLESS the roster stays as last received (R466). -/
def execRoster (e : Engine) (f : RosterFrame) (s : State) : Host.Outcome State Fault Refusal :=
  .next (if s.inSpan ∧ ¬ s.isLead ∧ s.engineUp e.val then s.takeRoster e.val f else s)

/-! ### The span record (R449) -/

/-- Whether a changed record may take effect. -/
def State.recordFree (s : State) : Bool :=
  s.ledger.state = .idle && s.span.copies.isEmpty && s.span.handoffs.isEmpty && s.span.due.isEmpty

/-- A span as a record leaves it: the panel has heard of nobody yet; the lead is synchronised with itself (DEDUCED). -/
def Span.withRecord (x : Span) (r : SpanRecord) (serial : BitVec 64) : Span :=
  let lead := r.lead && r.spanId ≠ 0
  let reg := BitVec.ofNat 64 (r.spanId.toNat * 2 ^ 32 + b2n r.lead * 2 ^ 31 + b2n lead * 2 ^ 30 + (if lead then r.index.val * 2 ^ 16 else 0)
    + r.index.val * 2 ^ 8)
  let y := { x with record := r, waiting := none, reg := reg, routes := [], peers := [], rosterJobs := [], hbSeen := [], hops := [], joined := false }
  (y.setLeads (if lead then [r.index.val] else [])).setRoster (if lead then [(r.index.val, serial)] else [])

/-- The links of a panel whose record has changed: DARK without a span, else they train anew. -/
def State.relink (s : State) (e : Nat) : State :=
  if s.penState e = 0 then s
  else if !s.inSpan then s.setPen e 0
  else s.trainLink e (fld (s.pen e) 59 56)

/-- A record takes effect: a member is disciplined to the lead (R453). -/
def State.useRecord (s : State) (r : SpanRecord) : State :=
  let member := r.spanId ≠ 0 && !r.lead
  let t := { s with span := s.span.withRecord r s.nv.serial, timeSvc := { s.timeSvc with ctrl := setBit s.timeSvc.ctrl 62 member, stepping := false } }
  (List.range 16).foldl State.relink t

/-- A record that waits takes effect once it may. -/
def State.pollRecord (s : State) : State :=
  match s.span.waiting with
  | none => s
  | some r => if s.recordFree then s.useRecord r else s

/-- SPAN_RECORD_READ (R449): an unchanged record has no effect. -/
def execSpanRecordRead (r : SpanRecord) (s : State) : Host.Outcome State Fault Refusal :=
  .next (if r = s.span.record then { s with span := { s.span with waiting := none } }
    else State.pollRecord { s with span := { s.span with waiting := some r } })

/-! ### Span time (R453, R454) -/

/-- The parent: the engine with the fewest hops to the lead. -/
def State.timeParent (s : State) : Option Nat :=
  match s.span.leads with
  | [k] => s.bestEngine k (s.upEngines.filter fun e => s.hopsVia e k ≠ 0)
  | _ => none

/-- A TIME frame with an AGE grown by delays that each panel measures, which the model leaves free (log entry 28). -/
def State.sendTime (s : State) (but : Option Nat) (t : BitVec 64) (age : Nat) : State :=
  s.fresh.2.sendAll but (.time t (age + s.fresh.1.toNat))

/-- TIME_FRAME_SEND (R453). -/
def execTimeFrameSend (dt : Nat) (s : State) : Host.Outcome State Fault Refusal :=
  let t := (s.pass dt).pollRecord
  .next (if t.isLead ∧ (t.island (.gal 0)).live ∧ t.span.timeAt + 8192 ≤ t.tclk then
    State.sendTime { t with span := { t.span with timeAt := t.tclk } } none t.g0Time 0
    else t)

/-- TSYNC set. -/
def State.setTsync (s : State) (v : Bool) : State := { s with span := { s.span with reg := setBit s.span.reg 30 v } }

/-- Firmware requests a step to the lead's time: the multiple of 1,024 that the lead's time reaches with the next beacon (R355). -/
def State.requestStep (s : State) (t : BitVec 64) : State :=
  let due := t + BitVec.ofNat 64 (1024 - s.g0Time.toNat % 1024)
  let v := BitVec.ofNat 64 ((due.toNat + 512) / 1024 * 1024)
  ({ s with timeSvc := { s.timeSvc with ctrl := setBit s.timeSvc.ctrl 63 true, stepVal := v, stepping := true } }).setTsync false

/-- G0 takes the lead's time `t`: a small error is slewed away, a larger one, and the first after joining, asks for a step (R453). -/
def State.takeTime (s : State) (t : BitVec 64) : State :=
  if bit s.timeSvc.ctrl 63 then s.setTsync false
  else
    let applied := s.timeSvc.stepping
    let u := { s with timeSvc := { s.timeSvc with stepping := false }, span := { s.span with joined := s.span.joined || applied } }
    let e := (t - u.g0Time).toInt
    if !u.span.joined || 64 < e || e < -64 then u.requestStep t
    else (u.modIsland (.gal 0) fun x => x.correct u.tclk t false).setTsync true

/-- TIME (R453): a member takes time from its parent only, and relays the frame. -/
def execTime (e : Engine) (t : BitVec 64) (agePs : Nat) (s : State) : Host.Outcome State Fault Refusal :=
  .next (if s.inSpan ∧ ¬ s.isLead ∧ s.engineUp e.val ∧ s.timeParent = some e.val ∧ (s.island (.gal 0)).live then
    State.sendTime
      (State.takeTime { s with span := { s.span with timeAt := s.tclk } } (t + BitVec.ofNat 64 ((agePs + 500) / 1000))) (some e.val) t agePs
    else s)

/-- TSYNC_LOSS (R454): 64 µs without a valid TIME frame. -/
def execTsyncLoss (dt : Nat) (s : State) : Host.Outcome State Fault Refusal :=
  let t := s.pass dt
  .next (if t.inSpan ∧ ¬ t.isLead ∧ t.span.timeAt + 64000 ≤ t.tclk then t.setTsync false else t)

/-! ### Heartbeats (R455) -/

/-- PERIOD_US of PEN_HB_CFG in TCLK cycles; 0 acts as 1. -/
def Span.period (x : Span) : Nat := max 1 (fld x.hbCfg 31 16) * 1000

/-- MISS_LIMIT of PEN_HB_CFG; 0 acts as 1. -/
def Span.missLimit (x : Span) : Nat := max 1 (fld x.hbCfg 7 0)

/-- G0 sends its heartbeat on each UP link, and the lead a changed roster. -/
def State.beat (s : State) : State :=
  let n := s.span.hbCount + 1
  let f : HeartbeatFrame :=
    { index := s.span.record.index, serial := s.nv.serial, count := n, sentAt := s.g0Time, fnState := BitVec.ofNat 4 s.fnState,
      pwrState := BitVec.ofNat 2 s.powerState, ttl := 63 }
  let x := { s.span with hbCount := n, hbSeen := s.span.hbSeen ++ [(s.ownIndex, n)], hbAt := Tab.set 0 s.span.hbAt 64 s.tclk }
  let t := State.sendAll { s with span := x } none (.heartbeat f)
  t.noteJobs t.jobsNow

/-- HEARTBEAT_SEND (R455). -/
def execHeartbeatSend (dt : Nat) (s : State) : Host.Outcome State Fault Refusal :=
  let t := (s.pass dt).pollRecord
  .next (if t.inSpan ∧ Tab.get 0 t.span.hbAt 64 + t.span.period ≤ t.tclk then t.beat else t)

/-- PEN_PEER_k after a heartbeat. -/
def State.alive (s : State) (k : Nat) : State :=
  let v := s.g0Time.toNat
  { s with span := { s.span with peers := Tab.mod 0 s.span.peers k (fun x => setFld (setFld x 63 61 1) 47 0 v), hbAt := Tab.set 0 s.span.hbAt k s.tclk } }

/-- A heartbeat arrives on engine e: it shows the hops by that engine; a copy already seen goes no further. -/
def State.heartbeat (s : State) (e : Nat) (f : HeartbeatFrame) : State :=
  let k := f.index.val
  if k = s.ownIndex then s
  else
    let t := State.spanRoutes { s with span := { s.span with hops := Tab.set 0 s.span.hops (64 * e + k) (64 - f.ttl.toNat) } }
    if t.span.hbSeen.contains (k, f.count) then t
    else
      let t := { t with span := { t.span with hbSeen := t.span.hbSeen ++ [(k, f.count)] } }
      let t := t.heard k f.serial
      let t := if t.peerState k = 3 then t else t.alive k
      if f.ttl.toNat ≤ 1 then { t with span := { t.span with stat := satFld t.span.stat 15 0 1 } }
      else t.sendAll (some e) (.heartbeat { f with ttl := f.ttl - 1 })

/-- HEARTBEAT (R455). -/
def execHeartbeat (e : Engine) (f : HeartbeatFrame) (s : State) : Host.Outcome State Fault Refusal :=
  .next (if s.inSpan ∧ s.engineUp e.val then s.heartbeat e.val f else s)

/-- UNRESPONSIVE (R455): MISS_LIMIT periods have passed without a heartbeat of the member. -/
def execUnresponsive (index : Fin 64) (dt : Nat) (s : State) : Host.Outcome State Fault Refusal :=
  let t := s.pass dt
  let since := t.tclk - Tab.get 0 t.span.hbAt index.val
  .next (if t.peerState index.val = 1 ∧ t.span.period * t.span.missLimit ≤ since then
    let x := { t.span with peers := Tab.mod 0 t.span.peers index.val fun v => satFld v 55 48 (since / t.span.period) }
    State.setPeer { t with span := x } index.val 2
    else t)

/-- PENLET_FRAME_REPLAY (R448): the link replays a frame whose CRC failed; the frame reaches the panel once, and no register counts it. -/
def execPenletFrameReplay (_e : Engine) (s : State) : Host.Outcome State Fault Refusal := .next s

end Sys2Proof.Machine
end

