-- ==== Sys2Proof/Machine/SpanData.lean ====
section
/-! DEFINITION. Data between panels: DATA frames, handoffs and state copies (R448, R452, R456 to R463, R466). -/

namespace Sys2Proof.Machine

/-! ### DATA frames (R448, R452, R460) -/

/-- The prefix of a frame that this panel originates for a job. -/
def State.ownPrefix (s : State) (dst : Fin 64) (job mask : BitVec 64) : Prefix :=
  { srcPanel := s.span.record.index, dstPanel := dst, mc := false, ttl := 63, jobId := job, epoch := (s.jobEpoch job).epoch, mask := mask }

/-- A DATA frame goes toward a panel; without a route it is lost (R466). -/
def State.routeFrame (s : State) (dst : Nat) (f : Prefix) (k : Packet) : State :=
  match s.spanRoute dst with
  | some e => s.sendFrame e (.data f k)
  | none => s

/-- HO_FAILED counts an entry (R457). -/
def State.hoFail (s : State) : State := { s with span := { s.span with stat := satFld s.span.stat 63 48 1 } }

/-- Stream of the frames of handoffs, and of state copies (DESIGN CHOICE, log entry 29). -/
def streamHandoff : BitVec 8 := 0xFD

/-- Stream of the frames of state copies. -/
def streamCopy : BitVec 8 := 0xFE

/-- An acknowledgement counts on the handoff entry that it names. -/
def HandoffJob.ack (j : HandoffJob) (k : Packet) : HandoffJob :=
  { j with left := j.left - nfld k.aux.toNat 47 32, failed := j.failed || k.status ≠ 0 }

/-- An acknowledgement of a handoff's frames. -/
def State.hoAck (s : State) (k : Packet) : State :=
  { s with span := { s.span with handoffs := s.span.handoffs.map fun j =>
      if j.started && BitVec.ofNat 16 j.id = k.seq then j.ack k else j } }

/-- An answer goes back to the panel that a frame came from (R452). -/
def State.peerReply (s : State) (f : Prefix) (k : Packet) : State :=
  if f.srcPanel.val = s.ownIndex then (if k.stream = streamHandoff then s.hoAck k else s)
  else s.routeFrame f.srcPanel.val (s.ownPrefix f.srcPanel f.jobId 0) k

/-- The answer to a frame's packet with a status and `pruned` branches. -/
def frameAck (k : Packet) (st : BitVec 4) (count pruned : Nat) : Packet :=
  { refuseReply k (srcGal 0 0) 3 st with aux := if k.opc = 1 then k.aux else BitVec.ofNat 48 (count * 2 ^ 32 + pruned) }

/-- A multicast frame goes on toward the panels of a mask, once on each engine; branches to unreachable panels are pruned (R457). -/
def State.spanMulti (s : State) (f : Prefix) (k : Packet) (mask : Nat) : State :=
  let ps := bitsOf 64 mask
  let byEngine := (List.range 16).filterMap fun e =>
    let m := (ps.filter fun p => s.spanRoute p = some e).foldl (fun (a : BitVec 64) p => setBit a p true) 0
    if m = 0 then none else some (e, m)
  let gone := (ps.filter fun p => (s.spanRoute p).isNone).length
  let t := byEngine.foldl (fun t x => t.sendFrame x.1 (.data { f with mc := true, dstPanel := 0, mask := x.2 } k)) s
  if gone = 0 then t else t.peerReply f (frameAck k 0 gone gone)

/-- A mask without bit k. -/
def without (m k : Nat) : Nat := if m.testBit k then m - 2 ^ k else m

/-- The local context of a job: the lowest-numbered open one (R452). -/
def State.jobCtx (s : State) (job : BitVec 64) : Option Nat :=
  if job = 0 then none else (List.range 1024).find? fun n => (s.ctx n).any fun c => !c.closing && c.jobId = job

/-- A frame of a job reaches its destination through gallery g (R452, R459, R460). -/
def State.deliverJob (s : State) (g : Nat) (f : Prefix) (k : Packet) : State :=
  if f.epoch.toNat < (s.jobEpoch f.jobId).epoch.toNat then { s with span := { s.span with stat := satFld s.span.stat 47 32 1 } }
  else match s.jobCtx f.jobId with
    | none => State.peerReply { s with span := { s.span with stat := satFld s.span.stat 31 16 1 } } f (frameAck k stAbsent 1 0)
    | some n =>
      if s.ctxFenced n then s.peerReply f (if f.mc then frameAck k 0 1 1 else frameAck k stDenied 1 0)
      else if !(k.opc = 1 || k.opc = 3) then s.modRouter (galNode g) fun x => { x with err := satFld x.err 15 8 1 }
      else match s.resolve false k.daddr.toNat with
        | .error st => s.peerReply f (frameAck k st 1 0)
        | .ok (didx, _) =>
          let q := { k with src := srcPeer f.srcPanel.val g, sclass := 3, ctx := BitVec.ofNat 10 n, vc := false, turned := false, didx := didx }
          let x : Inbound := { stream := k.stream, seq := k.seq, frame := f }
          State.send { s with span := { s.span with inbound := s.span.inbound ++ [x] } } [q]

/-- An answer to a request of a peer has come back through the ring fabric: it returns over the span (R452). -/
def State.peerAnswer (s : State) (k : Packet) : State :=
  match s.span.inbound.find? fun x => x.stream = k.stream && x.seq = k.seq with
  | none => s
  | some x => State.peerReply { s with span := { s.span with inbound := s.span.inbound.erase x } } x.frame k

/-! ### Handoffs (R456 to R458) -/

/-- MASK of a handoff entry. -/
def hoMask (e : List Byte) : Nat := leAt e 0x10 8

/-- LEN of a handoff entry. -/
def hoLen (e : List Byte) : Nat := leAt e 0x20 4

/-- FLAGS of a handoff entry. -/
def hoFlags (e : List Byte) : Nat := leAt e 0x24 1

/-- Whether a handoff entry writes a word: VALUE, or PASSNUM in its place. -/
def hoWord (e : List Byte) : Bool := (hoFlags e).testBit 1 || (hoFlags e).testBit 2

/-- Whether a fabric address lies in HBM or in a scratchpad. -/
def dataTarget (a : Nat) : Bool :=
  match decodeAddr a with
  | .hbm _ _ | .pad _ _ => true
  | _ => false

/-- Whether a handoff entry is well formed (R456). -/
def hoOk (e : List Byte) : Bool :=
  leAt e 0x25 27 = 0 && hoFlags e < 8 && hoMask e ≠ 0 && hoLen e % 8 = 0 && 8 ≤ hoLen e && hoLen e ≤ 0x4000000
    && (!hoWord e || hoLen e = 8) && leAt e 0x08 8 < 2 ^ 48 && dataTarget (leAt e 0x08 8) && dataTarget (leAt e 0x08 8 + hoLen e - 1)

/-- The bytes that a handoff entry sends, read under the rights of its context, or the status that ends it. -/
def State.hoBytes (s : State) (j : HandoffJob) : State × Except (BitVec 4) (List Byte) :=
  if hoWord j.entry then
    (s, .ok (if (hoFlags j.entry).testBit 2 then leBytes 8 j.pass.toNat else leBytes 8 (leAt j.entry 0x18 8)))
  else s.hbmRead (some j.ctx.toNat) (leAt j.entry 0x00 8) (hoLen j.entry)

/-- The write packets of a handoff entry, cut at 4 KiB boundaries of its destination. -/
def hoPackets (j : HandoffJob) (bs : List Byte) : List Packet :=
  let dst := leAt j.entry 0x08 8
  (cut4k dst (bs.length / 4096 + 2) bs.length).map fun e =>
    { Packet.empty with opc := 3, tc := 2, sclass := 4, daddr := BitVec.ofNat 48 e.1, seq := BitVec.ofNat 16 j.id, stream := streamHandoff,
                        len := BitVec.ofNat 14 e.2, src := srcGal 0 0, data := (bs.drop (e.1 - dst)).take e.2 }

/-- Whether the lead can replicate: it is known, alive and reachable, or this panel (R466). -/
def State.leadOk (s : State) : Bool :=
  match s.span.leads with
  | [k] => s.isLead || ((s.spanRoute k).isSome && s.peerState k ≠ 2)
  | _ => false

/-- Frames of a handoff entry leave: to one panel directly, to several through the lead (R457); false where they cannot. -/
def State.hoSend (s : State) (j : HandoffJob) (ks : List Packet) : State × Bool :=
  let mask := hoMask j.entry
  let job := ((s.ctx j.ctx.toNat).map Ctx.jobId).getD 0
  match bitsOf 64 mask with
  | [p] =>
    if (s.spanRoute p).isNone then (s, false)
    else (ks.foldl (fun t k => t.routeFrame p (t.ownPrefix (Fin.ofNat 64 p) job 0) k) s, true)
  | _ =>
    if !s.leadOk then (s, false)
    else if s.isLead then
      (ks.foldl (fun t k =>
        let f := t.ownPrefix 0 job (BitVec.ofNat 64 mask)
        let u := t.spanMulti f k (without mask s.ownIndex)
        if mask.testBit s.ownIndex then u.deliverJob 0 f k else u) s, true)
    else
      let lead := s.span.leads.headD 0
      (ks.foldl (fun t k => t.routeFrame lead (t.ownPrefix (Fin.ofNat 64 lead) job (BitVec.ofNat 64 mask)) k) s, true)

/-- Whether a handoff entry has ORDER: it starts only after every earlier entry has completed. -/
def HandoffJob.order (j : HandoffJob) : Bool := (hoFlags j.entry).testBit 0

/-- A handoff entry ends; one that fails is counted, and the later ORDER entries of its handoff never start (R457, R458). -/
def State.hoEnd (s : State) (j : HandoffJob) (failed : Bool) : State :=
  let gone := fun (x : HandoffJob) => x.id = j.id || (failed && x.order && !x.started && x.ctx = j.ctx && x.pass = j.pass && j.id < x.id)
  let t := { s with span := { s.span with handoffs := s.span.handoffs.filter fun x => !gone x } }
  if failed then t.hoFail else t

/-- Whether context n's Penlet output is stopped: it is fenced, shadowed, or not open any more (R459, R464). -/
def State.mute (s : State) (n : Nat) : Bool := s.ctxFenced n || !((s.ctx n).any fun c => !c.closing && !c.shadowOn)

/-- A handoff entry starts: its bytes are read and its frames leave; an entry that cannot is counted (R457). -/
def State.hoStart (s : State) (j : HandoffJob) : State :=
  if s.mute j.ctx.toNat then s.hoEnd j false
  else if !hoOk j.entry then s.hoEnd j true
  else match s.hoBytes j with
    | (t, .error _) => t.hoEnd j true
    | (t, .ok bs) =>
      let ks := hoPackets j bs
      let x := { j with started := true, left := ks.length * popc 64 (hoMask j.entry), since := t.tclk }
      let u := { t with span := { t.span with handoffs := t.span.handoffs.map fun y => if y = j then x else y } }
      let (v, ok) := u.hoSend x ks
      if ok then v else v.hoEnd x true

/-- The next handoff entry that may start: ORDER waits for every earlier entry of its handoff. -/
def nextHandoff : List (BitVec 10 × BitVec 32) → List HandoffJob → Option HandoffJob
  | _, [] => none
  | seen, j :: t =>
    if !j.started && !(j.order && seen.contains (j.ctx, j.pass)) then some j
    else nextHandoff ((j.ctx, j.pass) :: seen) t

/-- The contexts of which every SRC byte has been read may launch again (R458). -/
def State.freeHandoffs (s : State) : State :=
  s.openCtxs.foldl (fun t n => t.modCtx n fun c =>
    { c with handoff := c.handoff && ((t.span.due.any fun d => d.1.toNat = n)
      || t.span.handoffs.any fun j => j.ctx.toNat = n && !j.started && !hoWord j.entry) }) s

/-- Acknowledged handoff entries complete, and those that may start do. -/
def State.hoSettle : Nat → State → State
  | 0, s => s.freeHandoffs
  | fuel + 1, s =>
    let done := s.span.handoffs.filter fun j => j.started && j.left = 0
    let t := done.foldl (fun t j => t.hoEnd j j.failed) s
    match nextHandoff [] t.span.handoffs with
    | none => if done.isEmpty then t.freeHandoffs else State.hoSettle fuel t
    | some j => State.hoSettle fuel (t.hoStart j)

/-- The handoffs go on as far as they can. -/
def State.hoGo (s : State) : State := s.hoSettle (3 * s.span.handoffs.length + 1)

/-- The entries that a handoff table holds (R456); none when its head is malformed. -/
def hoEntries (t : List Byte) : Option (List (List Byte)) :=
  if leAt t 0 4 ≤ 47 && leAt t 4 12 = 0 then some ((List.range (leAt t 0 4)).map fun e => (t.drop (0x10 + 64 * e)).take 64) else none

/-- The handoff table of a pass is read under the rights of its context, and its entries begin (R457). -/
def State.handoff (s : State) (n : Nat) (h : BitVec 19) (pass : BitVec 32) : State :=
  if s.mute n then s
  else match s.hbmRead (some n) ((s.entry h.toNat).img.toNat + 0x400) 0xC00 with
    | (t, .error _) => t.hoFail
    | (t, .ok bs) =>
      match hoEntries bs with
      | none => t.hoFail
      | some es =>
        let js := (es.zipIdx t.span.nextId).map fun e =>
          ({ id := e.2, ctx := BitVec.ofNat 10 n, pass := pass, entry := e.1, started := false, left := 0, failed := false, since := 0 } : HandoffJob)
        { t with span := { t.span with handoffs := t.span.handoffs ++ js, nextId := t.span.nextId + js.length } }

/-- HANDOFF (R457): the oldest handoff that is due. -/
def execHandoff (s : State) : Host.Outcome State Fault Refusal :=
  .next (match s.span.due with
    | [] => s
    | d :: rest => (State.handoff { s with span := { s.span with due := rest } } d.1.toNat d.2.1 d.2.2).hoGo)

/-- HANDOFF_TIMEOUT (R457): an entry has waited 1 ms for its acknowledgements. -/
def execHandoffTimeout (id : Nat) (dt : Nat) (s : State) : Host.Outcome State Fault Refusal :=
  let t := s.pass dt
  .next (match t.span.handoffs.find? fun j => j.id = id && j.started with
    | none => t
    | some j => if j.since + 1000000 ≤ t.tclk then (t.hoEnd j true).hoGo else t)

/-! ### State copy (R462, R463) -/

/-- A copy changes. -/
def State.setCopy (s : State) (j k : CopyJob) : State :=
  { s with span := { s.span with copies := s.span.copies.map fun x => if x = j then k else x } }

/-- A frame of a copy leaves for its peer, unless its context's output is stopped; shadow mode stops what a sender sends (R459, R464). -/
def State.copySend (s : State) (j : CopyJob) (k : Packet) : State :=
  if (if j.recv then s.ctxFenced j.ctx.toNat else s.mute j.ctx.toNat) then s
  else
    let job := ((s.ctx j.ctx.toNat).map Ctx.jobId).getD 0
    s.routeFrame j.peer (s.ownPrefix (Fin.ofNat 64 j.peer) job 0) { k with stream := streamCopy, sclass := 4, src := srcGal 0 0 }

/-- A control frame of a copy: 1 offer, 2 summary, 3 done (DESIGN CHOICE, log entry 30). -/
def copyNote (j : CopyJob) (code : Nat) (body : List Byte) : Packet :=
  { Packet.empty with opc := 13, aux := BitVec.ofNat 48 code, data := leBytes 8 j.session.toNat ++ body }

/-- The offer of a copy: its role and its regions. -/
def copyOffer (j : CopyJob) : Packet :=
  copyNote j 1 (leBytes 8 (b2n j.recv) ++ j.regions.flatMap fun r => leBytes 8 r.1 ++ leBytes 8 r.2)

/-- A copy ends on this panel (R331, R462, R463). -/
def State.copyOver (s : State) (j : CopyJob) (status : Nat) : State :=
  let t := { s with span := { s.span with copies := s.span.copies.erase j } }
  let t := if j.recv && (status = 0 || status = 0x33) then t.modCtx j.ctx.toNat fun c => { c with invalid := status ≠ 0 } else t
  t.complete j.cmd { cmdAnswer j.cmd status with dataA := BitVec.ofNat 64 j.moved }

/-- A copy ends on this panel, and the peer is told. -/
def State.copyTell (s : State) (j : CopyJob) (status : Nat) : State := (s.copySend j (copyNote j 3 (leBytes 8 status))).copyOver j status

/-- The regions of a context in ascending order of base. -/
def Ctx.ordered (c : Ctx) : List (Nat × Nat) :=
  c.regions.foldr (fun r l => (l.takeWhile fun e => decide (e.1 < r.base.toNat)) ++ (r.base.toNat, r.size)
    :: l.dropWhile fun e => decide (e.1 < r.base.toNat)) []

/-- The effect of STATE_COPY as it starts: it offers itself to its peer. -/
def State.copyStart (s : State) (c : Cmd) : State :=
  let recv := bit c.desc.w2 8
  let rs := if recv then [] else ((s.ctx c.ctx).map Ctx.ordered).getD []
  let j : CopyJob := { cmd := c, ctx := BitVec.ofNat 10 c.ctx, recv := recv, peer := fld c.desc.w2 5 0, session := c.desc.w3, paired := false,
                       regions := rs, off := 0, moved := 0, unacked := [], since := s.tclk, sent := false }
  State.copySend { s with span := { s.span with copies := s.span.copies ++ [j] } } j (copyOffer j)

/-- Where byte `off` of a copy lies: the address and the bytes left in its region. -/
def copyAt : List (Nat × Nat) → Nat → Option (Nat × Nat)
  | [], _ => none
  | (b, n) :: t, off => if off < n then some (b + off, n - off) else copyAt t (off - n)

/-- The summary of a copy: each region's byte count and CRC-32. -/
def State.copySummary (s : State) (rs : List (Nat × Nat)) : State × Option (List (Nat × Nat)) :=
  rs.foldl (fun a r =>
    match a.2 with
    | none => a
    | some l => match a.1.hbmRead none r.1 r.2 with
      | (t, .ok bs) => (t, some (l ++ [(r.2, crc32 bs)]))
      | (t, .error _) => (t, none)) (s, some [])

/-- The next frame of a paired copy at its sender, once no pass of its context runs: up to 4 KiB, and at the end the summary. -/
def State.copyNext (s : State) (j : CopyJob) : State :=
  if !((s.ctx j.ctx.toNat).any fun c => !c.closing) then s.copyTell j 0x06
  else if s.ledger.state ≠ .idle && (s.ledger.pass.any fun q => q.ctx = j.ctx) then s
  else match copyAt j.regions j.off with
    | none =>
      if j.sent then s
      else match s.copySummary j.regions with
        | (t, none) => t.copyTell j 0x15
        | (t, some l) =>
          (t.setCopy j { j with sent := true }).copySend j (copyNote j 2 (l.flatMap fun e => leBytes 8 e.1 ++ leBytes 8 e.2))
    | some (a, left) =>
      let n := min left (4096 - a % 4096)
      match s.hbmRead none a n with
      | (t, .error st) => t.copyTell j (fabricSt st)
      | (t, .ok bs) =>
        let seq := BitVec.ofNat 16 (j.off / 8)
        let k : Packet := { Packet.empty with opc := 3, tc := 2, daddr := BitVec.ofNat 48 a, seq := seq, len := BitVec.ofNat 14 n,
                                              aux := j.session.setWidth 48, data := bs }
        (t.setCopy j { j with off := j.off + n, unacked := j.unacked ++ [(seq, n)], since := t.tclk }).copySend j k

/-- STATE_COPY (R462): the first execution offers the copy; each later one sends the next frame of a paired sender. -/
def execStateCopy (c : Cmd) (s : State) : Host.Outcome State Fault Refusal :=
  .next (match s.span.copies.find? fun j => j.cmd = c with
    | some j => if j.recv || !j.paired || s.fw.restarting then s else s.copyNext j
    | none => s.run c 0x33 fun t => t.copyStart c)

/-- Whether the receiving context holds a writable region of the same view, base and size for every region (R462). -/
def State.copyFits (s : State) (j : CopyJob) (rs : List (Nat × Nat)) : Bool :=
  rs.all fun r => (s.ctx j.ctx.toNat).any fun c => c.regions.any fun x => x.wr && x.base.toNat = r.1 && x.size = r.2

/-- The regions that an offer names. -/
def offeredRegions (body : List Byte) : List (Nat × Nat) :=
  (List.range ((body.length - 16) / 16)).map fun i => (leAt body (16 + 16 * i) 8, leAt body (24 + 16 * i) 8)

/-- An offer pairs a copy (R462); the first one is answered with the own offer. -/
def State.copyPair (s : State) (j : CopyJob) (body : List Byte) : State :=
  if j.paired || (leAt body 8 8 = 1) = j.recv then s
  else
    let rs := if j.recv then offeredRegions body else j.regions
    let x := { j with paired := true, since := s.tclk, regions := rs }
    let t := (s.setCopy j x).copySend x (copyOffer { x with regions := if x.recv then [] else x.regions })
    if j.recv && !s.copyFits j rs then t.copyTell x 0x16 else t

/-- The receiver judges the summary: OK only when every byte has landed and every CRC matches (R462, R463). -/
def State.copyJudge (s : State) (j : CopyJob) (body : List Byte) : State :=
  match s.copySummary j.regions with
  | (t, none) => t.copyTell j 0x33
  | (t, some l) =>
    let told := (List.range ((body.length - 8) / 16)).map fun i => (leAt body (8 + 16 * i) 8, leAt body (16 + 16 * i) 8)
    t.copyTell j (if told = l && j.moved = sumN (j.regions.map Prod.snd) then 0 else 0x33)

/-- A data frame of a copy lands at its receiver under the rights of the receiving context. -/
def State.copyLand (s : State) (j : CopyJob) (f : Prefix) (k : Packet) : State :=
  let (t, st) := s.hbmWrite (some j.ctx.toNat) k.daddr.toNat k.data
  if st ≠ 0 then t.copyTell j (fabricSt st)
  else (t.setCopy j { j with moved := j.moved + k.data.length, since := t.tclk }).peerReply f { frameAck k 0 1 0 with daddr := j.session.setWidth 48 }

/-- An acknowledgement reaches the sender of a copy. -/
def CopyJob.ack (j : CopyJob) (now : Nat) (k : Packet) : CopyJob :=
  match j.unacked.find? fun e => e.1 = k.seq with
  | some e => { j with unacked := j.unacked.erase e, moved := j.moved + e.2, since := now }
  | none => j

/-- A frame of the copies' stream arrives at its destination. -/
def State.copyFrame (s : State) (f : Prefix) (k : Packet) : State :=
  let from_ := fun (j : CopyJob) => j.peer = f.srcPanel.val
  let named := fun (j : CopyJob) => from_ j && j.session.toNat = leAt k.data 0 8
  let low := fun (j : CopyJob) (v : BitVec 48) => from_ j && j.session.setWidth 48 = v
  let on := fun (o : Option CopyJob) (g : CopyJob → State) => match o with | some j => g j | none => s
  if k.opc = 13 then
    match k.aux.toNat with
    | 1 => on (s.span.copies.find? fun j => named j && decide ((leAt k.data 8 8 = 1) ≠ j.recv)) fun j => s.copyPair j k.data
    | 2 => on (s.span.copies.find? fun j => named j && j.recv && j.paired) fun j => s.copyJudge j k.data
    | 3 => on (s.span.copies.find? fun j => named j) fun j =>
        let st := leAt k.data 8 8
        s.copyOver j (if st = 0 && !j.recv then 0 else if st = 0x16 then 0x16 else if j.recv && j.moved ≠ 0 then 0x33 else 0x17)
    | _ => s
  else if k.opc = 3 then on (s.span.copies.find? fun j => low j k.aux && j.recv && j.paired) fun j => s.copyLand j f k
  else if k.opc = 4 then on (s.span.copies.find? fun j => low j k.daddr && !j.recv) fun j => s.setCopy j (j.ack s.tclk k)
  else s

/-- STATE_COPY_PAIR_TIMEOUT (R462): no partner within 10 s. -/
def execStateCopyPairTimeout (ctx : BitVec 10) (dt : Nat) (s : State) : Host.Outcome State Fault Refusal :=
  let t := s.pass dt
  .next ((t.span.copies.filter fun j => j.ctx = ctx && !j.paired && decide (j.since + 10000000000 ≤ t.tclk)).foldl
    (fun t j => t.copyOver j 0x17) t)

/-- Whether a paired copy has lost its peer: no route, UNRESPONSIVE, or 1 ms without a frame or acknowledgement that is due (R463). -/
def State.copyLost (s : State) (j : CopyJob) : Bool :=
  j.paired && ((s.spanRoute j.peer).isNone || s.peerState j.peer = 2
    || (decide (j.since + 1000000 ≤ s.tclk) && (if j.recv then j.moved ≠ 0 else !j.unacked.isEmpty || j.sent)))

/-- SOURCE_LOST (R463): a receiver on which bytes have landed ends with SOURCE_LOST; a sender, or a receiver on which none have, with TIMEOUT. -/
def execSourceLost (ctx : BitVec 10) (s : State) : Host.Outcome State Fault Refusal :=
  .next ((s.span.copies.filter fun j => j.ctx = ctx && s.copyLost j).foldl
    (fun t j => t.copyOver j (if j.recv && j.moved ≠ 0 then 0x33 else 0x17)) s)

/-! ### Arrival of a DATA frame -/

/-- A frame has reached a destination: an answer, a frame of a copy, or a request of a job. -/
def State.deliverFrame (s : State) (g : Nat) (f : Prefix) (k : Packet) : State :=
  if k.stream = streamCopy then
    (if f.jobId ≠ 0 && f.epoch.toNat < (s.jobEpoch f.jobId).epoch.toNat then
      { s with span := { s.span with stat := satFld s.span.stat 47 32 1 } } else s.copyFrame f k)
  else if k.opc = 4 || k.opc = 2 then
    (if f.jobId ≠ 0 && f.epoch.toNat < (s.jobEpoch f.jobId).epoch.toNat then
      { s with span := { s.span with stat := satFld s.span.stat 47 32 1 } }
     else if k.stream = streamHandoff && k.opc = 4 then s.hoAck k else s)
  else s.deliverJob g f k

/-- The frame as a panel relays it; a TTL that reaches 0 drops it (R448). -/
def State.relay (s : State) (f : Prefix) (go : Prefix → State) : State :=
  if f.ttl.toNat ≤ 1 then { s with span := { s.span with stat := satFld s.span.stat 15 0 1 } } else go { f with ttl := f.ttl - 1 }

/-- A DATA frame arrives on engine e (R452, R457). -/
def State.dataFrame (s : State) (e : Nat) (f : Prefix) (k : Packet) : State :=
  let own := s.ownIndex
  let s := if f.jobId = 0 || !s.isLead then s else s.noteJobs (addJob s.span.rosterJobs f.jobId f.srcPanel.val)
  if f.mc then
    let rest := without f.mask.toNat own
    let t := if rest = 0 then s else s.relay f fun h => s.spanMulti h k rest
    if bit f.mask own then t.deliverFrame (e / 4) f k else t
  else if f.dstPanel.val ≠ own then s.relay f fun h => s.routeFrame h.dstPanel.val h k
  else if f.mask ≠ 0 && s.isLead then
    let t := s.relay f fun h => s.spanMulti h k (without f.mask.toNat own)
    if bit f.mask own then t.deliverFrame (e / 4) { f with mc := true } k else t
  else s.deliverFrame (e / 4) f k

/-- DATA (R448, R452). -/
def execData (e : Engine) (f : Prefix) (k : Packet) (s : State) : Host.Outcome State Fault Refusal :=
  .next (if s.inSpan ∧ s.engineUp e.val then (s.dataFrame e.val f k).hoGo else s)

end Sys2Proof.Machine
end

