-- ==== Sys2Proof/Machine/Packets.lean ====
section
/-! DEFINITION. Packets that reach their target: reads, writes, answers, tokens, credits, hints, retracts and multicasts (R27, R134, R141, R163,
R173, R249, R250, R253, R263 to R265, R274 to R280, R299, R464). -/

namespace Sys2Proof.Machine

/-! ### Arrival (R250) -/

/-- A malformed packet is dropped at its destination, and counted. -/
def State.dropBad (s : State) (k : Packet) : State :=
  match s.destOf k.didx.toNat with
  | some d => s.modRouter d.node fun x => { x with err := satFld x.err 15 8 1 }
  | none => s

/-- A packet of an opcode arrives: it leaves the fabric, and a well-formed one has its effect. -/
def State.arrive (s : State) (k : Packet) (opc : Nat) (go : State → State) : State :=
  if k.opc.toNat ≠ opc then s
  else if !packetOk k then (s.take k).dropBad k
  else go (s.take k)

/-- SCLASS of an answering node: CORE for a core, SYS for others. -/
def answerCls (src : BitVec 15) : BitVec 3 := if src.toNat < 0x4000 then 1 else 4

/-- Whether a logical sett stands and its meadow has power: what reaches no powered sett is lost (R28). -/
def State.sitePowered (s : State) (i : Nat) : Bool := (s.sett i).powered

/-- The core that a logical address names, while its sett has power. -/
def State.liveCore (s : State) (l : Nat) : Option Nat := (s.coreAt l).filter fun p => s.sitePowered (siteOf p)

/-- Whether the block that a register target lies in can answer. -/
def State.blockLive (s : State) : Target → Bool
  | .settReg sid _ => (s.siteOfSett sid).any s.sitePowered
  | .coreReg l _ => (s.liveCore l).isSome
  | .siteReg i _ => s.sitePowered i
  | .physReg p _ => s.sitePowered (siteOf p)
  | .galReg g _ => !(s.gal g).failed
  | _ => true

/-! ### Reads (R274, R277, R283, R287, R299) -/

/-- What a target makes of a read: an answer, a request to host memory through a function, or nothing, when the packet is lost. -/
inductive Served where
  | answer (status : BitVec 4) (data : List Byte)
  | host (port f addr : Nat)
  | lost

/-- A read at a stack: region check, then the hint buffer or the cells. -/
def State.readHbm (s : State) (k : Packet) (stack off : Nat) : State × Served :=
  let n := k.len.toNat
  let x := s.sump stack
  if !x.ready then (s, .answer stAbsent [])
  else if k.sclass ≠ 4 && !x.admits k.ctx.toNat off n false then (s.setSump stack (x.refuse k.sclass k.ctx.toNat), .answer stRegion [])
  else
    let (y, r) := (x.useHint s.tclk off n).readBytes off n
    (s.setSump stack y, match r with
      | .ok bs => .answer stOk bs
      | .error st => .answer st [])

/-- A read at a scratchpad: served from the front slot's banks, through ECC. -/
def State.readPad (s : State) (k : Packet) (l off : Nat) : State × Served :=
  match s.liveCore l with
  | none => (s, .lost)
  | some p =>
    let c := s.core p
    let n := k.len.toNat
    if c.fenced then (s, .answer stAbsent [])
    else if !c.ownOk off n then (s, .answer stDenied [])
    else
      let (x, bad) := c.sp.check [(off, n)]
      let t := s.setCore p { c with sp := x }
      match bad with
      | some _ => (t, .answer stUe [])
      | none => (t, .answer stOk (Memory.read x.mem off n))

/-- A request to host memory: its port must be up, and the context bound to a function of it; span peers reach no host memory (R299, R452). -/
def State.hostGate (s : State) (k : Packet) (port : Nat) : Except (BitVec 4) Nat :=
  if !(s.gal port).linkUp then .error stAbsent
  else if k.sclass = 2 || k.sclass = 3 then .error stDenied
  else match s.fnOnPort port k.sclass k.ctx.toNat with
    | some f => .ok f
    | none => .error stDenied

/-- A read request at its target. -/
def State.serveRead (s : State) (k : Packet) : State × Served :=
  let a := k.daddr.toNat
  match decodeAddr a with
  | .unmapped => (s, .answer stUnmapped [])
  | .hbm stack off => s.readHbm k stack off
  | .pad l off => s.readPad k l off
  | .host port addr =>
    match s.hostGate k port with
    | .error st => (s, .answer st [])
    | .ok f => (s, .host port f addr)
  | t =>
    if s.blockLive t then
      let (u, st, bs) := s.regRead k.sclass a k.len.toNat
      (u, .answer st bs)
    else (s, .lost)

/-- A read answers with an RD_RSP, or asks a host. -/
def State.readArrives (s : State) (k : Packet) : State :=
  match s.serveRead k with
  | (t, .answer st bs) => t.send [readAnswer k (t.answerSrc k) (answerCls (t.answerSrc k)) st bs]
  | (t, .host port f addr) =>
    let r : HostReq := { id := t.host.nextReq, port := port, packet := k }
    let o := HostOut.readReq port (f % 64) (BitVec.ofNat 48 addr) k.len.toNat
    { t with host := { t.host with reqs := t.host.reqs ++ [r], out := t.host.out ++ [o], nextReq := t.host.nextReq + 1 } }
  | (t, .lost) => t

/-- RD_REQ (R249, R274). -/
def execRdReq (k : Packet) (s : State) : Host.Outcome State Fault Refusal := .next (s.arrive k 1 fun t => t.readArrives k)

/-- The stream of the TAP's debug accesses (DESIGN CHOICE, log entry 31). -/
def streamTap : BitVec 8 := 0xFF

/-- RD_RSP (R134, R249): at a core its payload lands; at a gallery it answers a span peer (R452) or the TAP (R438). -/
def execRdRsp (k : Packet) (s : State) : Host.Outcome State Fault Refusal :=
  .next (s.arrive k 2 fun t =>
    if k.stream = streamTap && k.src.toNat / 0x1000 = 5 then { t with access := { status := k.status, data := k.data } }
    else if 288 ≤ k.didx.toNat && k.didx.toNat < 292 then (t.peerAnswer k).hoGo
    else match decodeAddr k.daddr.toNat with
      | .pad l _ => (match t.liveCore l with
        | some p => t.settle p ((t.core p).rdRsp k)
        | none => t)
      | _ => t)

/-! ### Writes (R141, R274, R277, R299, R464) -/

/-- The payload of a packet. -/
def payloadOf (k : Packet) : List Byte := k.data.take k.len.toNat

/-- A write at a stack. -/
def State.writeHbm (s : State) (k : Packet) (stack off : Nat) : State × BitVec 4 :=
  let x := s.sump stack
  if !x.ready then (s, stAbsent)
  else if k.sclass ≠ 4 && !x.admits k.ctx.toNat off (payloadOf k).length true then (s.setSump stack (x.refuse k.sclass k.ctx.toNat), stRegion)
  else
    let (y, st) := x.writeBytes off (payloadOf k)
    (s.setSump stack y, st)

/-- A write at core p: the window check; a payload that lands is counted (R141, R254). -/
def State.writeCorePad (s : State) (p : Nat) (k : Packet) (off : Nat) : State × BitVec 4 :=
  let c := s.core p
  if c.fenced then (s, stAbsent)
  else
    let (d, st) := c.remoteWrite k.sclass.toNat (k.src.toNat % 0x4000) off (payloadOf k)
    let e := if st = 0 then d.ringCount k.stream (payloadOf k).length else d
    (s.settle p (e, []), st)

/-- A write at its target: the status of its acknowledgement, none when the packet is lost. A shadowed context's writes to host memory are
dropped and acknowledged OK (R464). -/
def State.serveWrite (s : State) (k : Packet) : State × Option (BitVec 4) :=
  let a := k.daddr.toNat
  match decodeAddr a with
  | .unmapped => (s, some stUnmapped)
  | .hbm stack off => let (t, st) := s.writeHbm k stack off; (t, some st)
  | .pad l off =>
    match s.liveCore l with
    | none => (s, none)
    | some p => let (t, st) := s.writeCorePad p k off; (t, some st)
  | .host port addr =>
    if k.sclass ≠ 4 && (s.ctx k.ctx.toNat).any Ctx.shadowOn then (s, some stOk)
    else match s.hostGate k port with
      | .error st => (s, some st)
      | .ok f =>
        let o := HostOut.write port (f % 64) (BitVec.ofNat 48 addr) (payloadOf k)
        ({ s with host := { s.host with out := s.host.out ++ [o] } }, some stOk)
  | t =>
    if s.blockLive t then let (u, st) := s.regWrite k.sclass a (payloadOf k); (u, some st) else (s, none)

/-- A packet is acknowledged with a status, unless it is lost. -/
def State.acknowledge (s : State) (k : Packet) : Option (BitVec 4) → State
  | some st => s.send [ackOf k (s.answerSrc k) (answerCls (s.answerSrc k)) st]
  | none => s

/-- WR (R249, R274). -/
def execWr (k : Packet) (s : State) : Host.Outcome State Fault Refusal :=
  .next (s.arrive k 3 fun t => let (u, st) := t.serveWrite k; u.acknowledge k st)

/-- ACK (R253): at core p it completes the packets it counts; at a gallery it answers a span peer (R452). -/
def execAck (p : Option PCore) (k : Packet) (s : State) : Host.Outcome State Fault Refusal :=
  .next (s.arrive k 4 fun t =>
    match p with
    | some q => t.settle q.val ((t.core q.val).withUnits ((t.core q.val).units.ack k, []))
    | none => (t.peerAnswer k).hoGo)

/-! ### Tokens and credits (R163) -/

/-- A count packet reaches core l's counters through `f`. -/
def State.countArrives (s : State) (k : Packet) (f : Core → Nat → Nat → Core × List Packet) : State :=
  match decodeAddr k.daddr.toNat with
  | .pad l _ =>
    match s.liveCore l with
    | none => s
    | some p =>
      let c := s.core p
      if c.fenced then s.acknowledge k (some stAbsent)
      else (s.settle p (f c (nfld k.aux.toNat 20 16) (nfld k.aux.toNat 15 0))).acknowledge k (some stOk)
  | _ => s.acknowledge k (some stUnmapped)

/-- TOKEN (R146, R163). -/
def execToken (k : Packet) (s : State) : Host.Outcome State Fault Refusal := .next (s.arrive k 6 fun t => t.countArrives k Core.tokenIn)

/-- CREDIT (R163). -/
def execCredit (k : Packet) (s : State) : Host.Outcome State Fault Refusal := .next (s.arrive k 7 fun t => t.countArrives k Core.creditIn)

/-! ### Hints and retracts (R173, R277, R279, R280) -/

/-- The stack offsets of the stripes of a hint that lie in stack i, with the bytes of each. -/
def hintStripes (k : Packet) (i : Nat) : List (Nat × Nat) :=
  let n := nfld k.aux.toNat 23 0
  (cut4k k.daddr.toNat (n / 4096 + 2) n).filterMap fun e =>
    match decodeAddr e.1 with
    | .hbm j off => if j = i then some (off, e.2) else none
    | _ => none

/-- A hint at a sump: a refused one is dropped without reply, and counted. -/
def Sump.hint (x : Sump) (now : Nat) (k : Packet) (ss : List (Nat × Nat)) : Sump :=
  if !x.ready then x
  else if k.sclass ≠ 4 && !(ss.all fun e => x.admits k.ctx.toNat e.1 e.2 false) then x.refuse k.sclass k.ctx.toNat
  else ss.foldl (fun y e => y.stage now (e.1 / 4096) k.src k.seq) x

/-- HINT_PKT (R279). -/
def execHintPkt (k : Packet) (s : State) : Host.Outcome State Fault Refusal :=
  .next (s.arrive k 9 fun t =>
    let i := k.didx.toNat - 256
    if 256 ≤ k.didx.toNat && k.didx.toNat < 288 then t.modSump i fun x => x.hint t.tclk k (hintStripes k i) else t)

/-- HINT_LINE_LAPSE (R279): a line that no read has taken lapses 100 µs after it was staged. -/
def execHintLineLapse (k : Stack) (stripe : Nat) (dt : Nat) (s : State) : Host.Outcome State Fault Refusal :=
  let t := s.pass dt
  .next (t.modSump k.val fun x =>
    let gone := fun (l : HintLine) => l.stripe = stripe && !l.taken && decide (l.staged + 100000 ≤ t.tclk)
    if x.hints.any gone then { x with hints := x.hints.filter (fun l => !gone l), hintStat := satFld x.hintStat 47 32 1 } else x)

/-- Whether a retract names a packet in flight: a speculative read or hint of its source to its target (R173). -/
def retracts (k q : Packet) (opc : Nat) : Bool :=
  q.opc.toNat = opc && q.spec && q.src = k.src && q.stream = k.stream && q.didx = k.didx && seqIn k.seq (nfld k.aux.toNat 15 0) q.seq

/-- RETRACT (R173, R280): reads that the target has not served end with RETRACTED, untaken lines and hints are dropped. -/
def execRetract (k : Packet) (s : State) : Host.Outcome State Fault Refusal :=
  .next (s.arrive k 8 fun t =>
    let reads := t.flight.filter fun q => retracts k q 1
    let u := { t with flight := t.flight.filter fun q => !retracts k q 1 && !retracts k q 9 }
    let u := u.send (reads.map fun q => readAnswer q (u.answerSrc q) (answerCls (u.answerSrc q)) stRetracted [])
    if 256 ≤ k.didx.toNat && k.didx.toNat < 288 then
      u.modSump (k.didx.toNat - 256) fun x => x.retract k.src k.seq (nfld k.aux.toNat 15 0)
    else u)

/-! ### Multicast (R263 to R265) -/

/-- What the delivery of a copy at a site comes to: destinations that answered, pruned ones, and the first status other than OK. -/
structure Copied where
  delivered : Nat
  pruned    : Nat
  status    : BitVec 4

/-- A copy is delivered at site i: every selected core that is there and not fenced runs its window check. -/
def State.deliverCopy (s : State) (k : Packet) (m : McExt) (i : Nat) : State × Copied :=
  if m.sctl then (s, { delivered := 1, pruned := 0, status := 0 })
  else
    (bitsOf 64 m.cores.toNat).foldl (fun a n =>
      match (a.1.settAt i).bind fun sid => a.1.coreAt (64 * sid + n) with
      | none => (a.1, { a.2 with pruned := a.2.pruned + 1 })
      | some p =>
        if (a.1.core p).fenced then (a.1, { a.2 with pruned := a.2.pruned + 1 })
        else
          let (t, st) := a.1.writeCorePad p k (k.daddr.toNat % 0x400000)
          (t, { a.2 with delivered := a.2.delivered + 1, status := firstBad a.2.status st }))
      (s, { delivered := 0, pruned := 0, status := 0 })

/-- The row of a multicast's root, its position on the row ring, and its own column when it is a site. -/
def rootRow (n : Node) : Nat × Nat × Option Nat :=
  match n with
  | .sett i => (i.val / 17, rowPos (i.val % 17), some (i.val % 17))
  | .sump k => (k.val % 16, if k.val < 16 then 0 else 10, none)
  | .gal _ => (0, 0, none)

/-- Whether the copies of a multicast reach a site: the row copy its column, the column copy the site (R264, R266). -/
def Net.mcReaches (t : Net) (root : Node) (i : Nat) : Bool :=
  let (r, pos, _) := rootRow root
  let c := i % 17
  t.up (settNode i) && t.up (siteNode r c) && (t.leg (.row r) pos (rowPos c) true).isSome && t.colJoins c r (i / 17)

/-- The node whose combine entry waits for the copy of site i. -/
def holderOf (root : Node) (i : Nat) : Node :=
  let (r, _, own) := rootRow root
  if own = some (i % 17) then root else siteNode r (i % 17)

/-- The copy of a multicast for site i. -/
def copyFor (k : Packet) (m : McExt) (i : Nat) : Packet :=
  { k with didx := BitVec.ofNat 10 (320 + i), mcx := some { m with sites := BitVec.ofNat 272 (2 ^ i) } }

/-- A combine entry of a multicast that waits for `n` branches. -/
def State.entryFor (s : State) (k : Packet) (n : Nat) (c : Copied) : Combine :=
  { src := k.src, stream := k.stream, seq := k.seq, waiting := n, delivered := c.delivered, pruned := c.pruned, status := c.status, since := s.tclk }

/-- A multicast reaches its root: row and column copies leave, with a combine entry at the root and at each column router; a router with all 64
entries in use holds it (R264, R265). -/
def State.mcRoot (s : State) (k : Packet) (m : McExt) (root : Node) : State :=
  let net := s.net []
  let all := bitsOf 272 m.sites.toNat
  let sites := all.filter fun i => net.mcReaches root i
  let st : BitVec 4 := if sites.length = all.length then 0 else stAbsent
  let here := sites.filter fun i => settNode i = root
  let away := sites.filter fun i => settNode i ≠ root
  let holders := (away.map (holderOf root)).dedup
  let cols := holders.filter fun n => n ≠ root
  if (root :: cols).any fun n => 64 ≤ (s.router n).combine.length then s
  else
    let t := s.take k
    let (t, own) := match here with
      | i :: _ => t.deliverCopy k m i
      | [] => (t, { delivered := 0, pruned := 0, status := 0 })
    let own := { own with status := firstBad own.status st }
    let wait := cols.length + (away.filter fun i => holderOf root i = root).length
    let e := t.entryFor k wait own
    if wait = 0 then t.send [combineAck e (nodeSrc root) e.status]
    else
      let t := t.modRouter root fun x => x.spawn e
      let t := cols.foldl (fun t n =>
        t.modRouter n fun x => x.spawn (t.entryFor k (away.filter fun i => holderOf root i = n).length { delivered := 0, pruned := 0, status := 0 })) t
      { t with flight := t.flight ++ away.map (copyFor k m) }

/-- A copy of a multicast reaches site i: it is delivered, and counts in the entry that waits for it. -/
def State.mcCopy (s : State) (k : Packet) (m : McExt) (root : Node) (i : Nat) : State :=
  let s := s.take k
  if !s.sitePowered i then s
  else
    let (t, c) := s.deliverCopy k m i
    let n := holderOf root i
    match (t.router n).combine.find? fun e => e.of k.src k.stream k.seq with
    | none => t
    | some e =>
      let y := { e with waiting := e.waiting - 1, delivered := e.delivered + c.delivered, pruned := e.pruned + c.pruned,
                        status := firstBad e.status c.status }
      if y.waiting = 0 then (t.modRouter n fun x => { x with combine := x.combine.erase e }).answerUp root 3 n y y.status
      else t.modRouter n fun x => { x with combine := x.combine.map fun z => if z = e then y else z }

/-- MCW_PKT (R263 to R265): at its root a multicast is replicated; a copy is delivered at its site. -/
def execMcwPkt (k : Packet) (s : State) : Host.Outcome State Fault Refusal :=
  .next (match k.mcx with
    | some m =>
      if k.opc ≠ 5 then s
      else if !packetOk k then (s.take k).dropBad k
      else if k.didx = m.root then s.mcRoot k m (rootNode m.root.toNat)
      else if 320 ≤ k.didx.toNat && k.didx.toNat < 592 then s.mcCopy k m (rootNode m.root.toNat) (k.didx.toNat - 320)
      else (s.take k).dropBad k
    | none => s.arrive k 5 fun t => t.dropBad k)

end Sys2Proof.Machine
end

