-- ==== Sys2Proof/Machine/Access.lean ====
section
/-! DEFINITION. Accesses to registers from outside the fabric: writes by any path, the management aperture and the TAP (R7, R26, R295 to R297,
R307, R308, R316, R418, R438, R440, R472). -/

namespace Sys2Proof.Machine

/-- What an access gave back is kept. -/
def State.note (s : State) (st : BitVec 4) (data : List Byte) : State := { s with access := { status := st, data := data } }

/-! ### BAR0 of a function (R296) -/

/-- A write of GAL_FN_AQ_CFG: the depths while EN is 0, EN while no I/O queue pair exists. -/
def State.writeAqCfg (s : State) (f : Nat) (v : BitVec 32) : State :=
  let t := s.modFn f fun x => if bit x.aqCfg 31 then x else { x with aqCfg := setFld (setFld x.aqCfg 27 16 (fld v 27 16)) 11 0 (fld v 11 0) }
  if t.hasIo f then t
  else if bit v 31 then t.enableAq f
  else if bit (t.fn f).aqCfg 31 then t.disableAq f
  else t

/-- A write of half of a queue base: bits [44:12], while EN is 0. -/
def baseHalf (old : BitVec 64) (high : Bool) (v : BitVec 32) : BitVec 64 :=
  (if high then setFld old 63 32 v.toNat else setFld old 31 0 v.toNat) &&& 0x1FFFFFFFF000

/-- A write of an MSI-X table word (PRESUMED, log entry 18): address, data, and the mask bit of the vector control. -/
def State.writeMsix (s : State) (f off : Nat) (v : BitVec 32) : State :=
  let n := off / 16
  match off % 16 / 4 with
  | 0 => s.modFn f fun x => { x with msgAddr := Tab.mod 0 x.msgAddr n fun a => setFld a 31 0 v.toNat }
  | 1 => s.modFn f fun x => { x with msgAddr := Tab.mod 0 x.msgAddr n fun a => setFld a 63 32 v.toNat }
  | 2 => s.modFn f fun x => { x with msgData := Tab.set 0 x.msgData n v }
  | _ => s.maskVector f n (bit v 0)

/-- A 32-bit write to BAR0 of function f; unlisted offsets are ignored. -/
def State.bar0Write (s : State) (f off : Nat) (v : BitVec 32) : State :=
  let base := fun (g : Fn → Fn) => s.modFn f fun x => if bit x.aqCfg 31 then x else g x
  if 0x20000 ≤ off ∧ off < 0x28000 then s.writeMsix f (off - 0x20000) v
  else if 0x10000 ≤ off ∧ off < 0x12000 then
    (if off % 8 = 0 then s.sqBell (qpKey f ((off - 0x10000) / 8)) (fld v 15 0)
     else if off % 8 = 4 then s.cqBell (qpKey f ((off - 0x10000) / 8)) (fld v 15 0) else s)
  else match off with
    | 0x08 => s.writeAqCfg f v
    | 0x10 => base fun x => { x with asqBase := baseHalf x.asqBase false v }
    | 0x14 => base fun x => { x with asqBase := baseHalf x.asqBase true v }
    | 0x18 => base fun x => { x with acqBase := baseHalf x.acqBase false v }
    | 0x1C => base fun x => { x with acqBase := baseHalf x.acqBase true v }
    | 0x20 => if bit v 31 then s.modFn f fun x => { x with err := setBit x.err 31 false } else s
    | 0x100 => if f = 0 then { s with sec := { s.sec with aperture := setFld s.sec.aperture 31 24 (fld v 31 24) } } else s
    | 0x104 => if f = 0 then { s with sec := { s.sec with aperture := setFld s.sec.aperture 43 32 (fld v 11 0) } } else s
    | _ => s

/-- A write of 32 or 64 bits to BAR0 of a function that answers. -/
def State.bar0 (s : State) (port vf off : Nat) (wide : Bool) (v : BitVec 64) : State :=
  if s.fnExists port vf && (s.gal port).linkUp && s.served then
    let t := s.bar0Write (64 * port + vf) off (v.setWidth 32)
    if wide then t.bar0Write (64 * port + vf) (off + 4) ((v >>> 32).setWidth 32) else t
  else s

/-- A write to BAR0 of the recovery function (R418): GO, which needs the image, is the command of that name. -/
def State.recoveryWrite (s : State) (off : Nat) (wide : Bool) (v : BitVec 64) : State :=
  if !s.boot.recovery then s
  else match off, wide with
    | 0, true => { s with boot := { s.boot with recAddr := v &&& 0x1FFFFFFFF000 } }
    | 0, false => { s with boot := { s.boot with recAddr := baseHalf s.boot.recAddr false (v.setWidth 32) } }
    | 4, false => { s with boot := { s.boot with recAddr := baseHalf s.boot.recAddr true (v.setWidth 32) } }
    | 8, _ => { s with boot := { s.boot with recCtrl := setFld s.boot.recCtrl 14 0 (fld v 14 0) } }
    | _, _ => s

/-! ### Fabric accesses of 4 or 8 bytes -/

/-- Whether a source that translates an address finds a register block that answers, and the status that ends the access else (R27). -/
def State.blockStatus (s : State) (cls : BitVec 3) (a : Nat) : BitVec 4 :=
  match s.resolve (cls = 4) a with
  | .error st => st
  | .ok _ => if s.blockLive (decodeAddr a) then stOk else stTimeout

/-- A register read of a class: the status and the bytes are kept, zeros where it is refused. -/
def State.readReg (s : State) (cls : BitVec 3) (a n : Nat) : State :=
  let st := s.blockStatus cls a
  if st ≠ 0 then s.note st (List.replicate n 0)
  else
    let (t, st, bs) := s.regRead cls a n
    t.note st bs

/-- A register write of a class. -/
def State.writeReg (s : State) (cls : BitVec 3) (a : Nat) (bs : List Byte) : State :=
  let st := s.blockStatus cls a
  if st ≠ 0 then s.note st []
  else
    let (t, st) := s.regWrite cls a bs
    t.note st []

/-- The bytes of a 4- or 8-byte access. -/
def accessBytes (wide : Bool) (v : BitVec 64) : List Byte := leBytes (if wide then 8 else 4) v.toNat

/-- Bytes of an access. -/
def accessLen (wide : Bool) : Nat := if wide then 8 else 4

/-- REGISTER_WRITE (R7, R26, R296, R418, R440). -/
def execRegisterWrite (t : RegPath) (wide : Bool) (v : BitVec 64) (s : State) : Host.Outcome State Fault Refusal :=
  .next (match t with
    | .fabric cls a => s.writeReg cls a.toNat (accessBytes wide v)
    | .bar0 port vf off => s.bar0 port.val vf.val off.toNat wide v
    | .recovery off => s.recoveryWrite off.toNat wide v)

/-- The fabric address that an offset of the management aperture reaches (R297). -/
def State.apertureAddr (s : State) (off : Nat) : Nat := 0x600000000000 + fld s.sec.aperture 43 24 * 0x1000000 + off

/-- APERTURE_ACCESS (R297): an access of PF0 of P0 travels as HOST with CONTEXT 0. -/
def execApertureAccess (write : Bool) (off : BitVec 24) (wide : Bool) (v : BitVec 64) (s : State) : Host.Outcome State Fault Refusal :=
  .next (if s.fnExists 0 0 && (s.gal 0).linkUp && s.served then
      (if write then s.writeReg 2 (s.apertureAddr off.toNat) (accessBytes wide v)
       else s.readReg 2 (s.apertureAddr off.toNat) (accessLen wide))
    else s)

/-! ### The TAP of G0 (R438, R472) -/

/-- The TAP's current instruction: 0 IDCODE, 1 BYPASS, 2 SEC_ACCESS, 3 EXTEST, 4 a debug access. -/
def State.setTap (s : State) (v : BitVec 8) : State := { s with sec := { s.sec with tap := v } }

/-- What the TAP does, which is without power while the rim is (R472). -/
def State.onTap (s : State) (f : State → State) : State := if s.pins.rimGood then f s else s

/-- BYPASS (R438). -/
def execBypass (s : State) : Host.Outcome State Fault Refusal := .next (s.onTap fun t => t.setTap 1)

/-- IDCODE (R438): the identity code is a free value (log entry 23). -/
def execIdcode (s : State) : Host.Outcome State Fault Refusal := .next (s.onTap fun t => (t.setTap 0).note stOk (leBytes 4 Config.idcode.toNat))

/-- EXTEST (R438): below FULL it acts as BYPASS. -/
def execExtest (s : State) : Host.Outcome State Fault Refusal := .next (s.onTap fun t => if t.full then t.setTap 3 else t.setTap 1)

/-- Whether SEC_ACCESS reaches a register: the SEC_ registers, and R1 or R2 by debug level. -/
def State.secReach (s : State) (write : Bool) (t : Target) : Bool :=
  (match t with
    | .galReg 0 off => 0xD000 ≤ off && off < 0xD100
    | _ => false) || (s.sec.level ≠ 0 && reaches s.sec.level write t)

/-- SEC_ACCESS (R438). -/
def execSecAccess (write : Bool) (addr : BitVec 48) (wide : Bool) (v : BitVec 64) (s : State) : Host.Outcome State Fault Refusal :=
  .next (s.onTap fun s =>
    let t := s.setTap 2
    if t.secReach write (decodeAddr addr.toNat) then
      (if write then t.writeReg 4 addr.toNat (accessBytes wide v) else t.readReg 4 addr.toNat (accessLen wide))
    else t.note stDenied (if write then [] else List.replicate (accessLen wide) 0))

/-- The packet of a debug access: MC0 of G0 sends it as SYS. -/
def debugPacket (write : Bool) (a : Nat) (bytes : List Byte) (n : Nat) : Packet :=
  { Packet.empty with opc := if write then 3 else 1, tc := if write then 2 else 1, sclass := 4, daddr := BitVec.ofNat 48 a, stream := streamTap,
                      len := BitVec.ofNat 14 n, src := srcGal 0 0, data := bytes }

/-- One piece of a debug read; what a host gives comes with its answer. -/
def State.debugRead (s : State) (a n : Nat) : State × BitVec 4 × List Byte :=
  match s.resolve true a with
  | .error st => (s, st, List.replicate n 0)
  | .ok _ =>
    let k := debugPacket false a [] n
    match s.serveRead k with
    | (t, .answer st bs) => (t, st, if st = 0 then bs else List.replicate n 0)
    | (t, .host _ _ _) => (t.readArrives k, stOk, [])
    | (t, .lost) => (t, stTimeout, List.replicate n 0)

/-- One piece of a debug write. -/
def State.debugWrite (s : State) (a : Nat) (bs : List Byte) : State × BitVec 4 :=
  match s.resolve true a with
  | .error st => (s, st)
  | .ok _ => let (t, st) := s.serveWrite (debugPacket true a bs bs.length); (t, st.getD stTimeout)

/-- A debug access of `n` bytes, in pieces of 4 KiB. -/
def State.debugAccess (s : State) (write : Bool) (a n : Nat) (data : List Byte) : State :=
  (cut4k a 8 n).foldl (fun t e =>
    if write then
      let (u, st) := t.debugWrite e.1 ((data.drop (e.1 - a)).take e.2)
      u.note (firstBad t.access.status st) []
    else
      let (u, st, bs) := t.debugRead e.1 e.2
      u.note (firstBad t.access.status st) (t.access.data ++ bs)) (s.note stOk [])

/-- TAP_DEBUG_ACCESS (R438): at FULL a SYS access to any fabric address; below FULL the instruction acts as BYPASS. -/
def execTapDebugAccess (write : Bool) (addr : BitVec 48) (bytes : BitVec 14) (data : List Byte) (s : State) :
    Host.Outcome State Fault Refusal :=
  .next (s.onTap fun t => if t.full then (t.setTap 4).debugAccess write addr.toNat bytes.toNat data else t.setTap 1)

/-- TAP_RESET (R472): the reset state of IEEE 1149.1 holds IDCODE (PRESUMED, log entry 23). -/
def execTapReset (s : State) : Host.Outcome State Fault Refusal := .next (s.onTap fun t => t.setTap 0)

end Sys2Proof.Machine
end

