-- ==== Sys2Proof/Machine/MgmtCmds.lean ====
section
/-! DEFINITION. The management commands: drain, fences, shadow, power, reset, query, firmware update; and event packets (R314, R330, R332 to R335,
R419, R423, R459, R464). -/

namespace Sys2Proof.Machine

/-! ### DRAIN (R259, R330) -/

/-- Whether a router has folds or lines staged that differ from those in force. -/
def Router.staged (x : Router) : Bool := fld x.fold 47 32 ≠ fld x.fold 15 0 || fld x.fold 63 56 ≠ fld x.ctrl 7 0

/-- The effect of DRAIN: firmware stages the tables and folds of the present shape, and the drain applies them. -/
def State.drainCmd (s : State) (c : Cmd) : State :=
  let w := fld c.desc.w2 3 0
  let cls := if w = 0 then 15 else w
  let t := s.stageTables [] allNodes
  let fold := allNodes.any fun n => (t.router n).staged
  let v := setFld (setFld (setBit (setBit (0 : BitVec 64) 42 true) 43 fold) 51 48 cls) 47 44 cls ||| BitVec.ofNat 64 (fld t.drain.reg 31 0)
  let d := t.drain.write v
  ({ t with drain := { d with cmds := d.cmds ++ [c] } }).drainEdge t.drain.state

/-- DRAIN_CMD (R330): one drain runs at a time. -/
def execDrainCmd (c : Cmd) (s : State) : Host.Outcome State Fault Refusal :=
  .next (if s.drain.busy then s else s.run c 0x30 fun t => t.drainCmd c)

/-! ### FENCE and UNFENCE (R330, R459) -/

/-- The 64-byte descriptor of a command with CMD_TAG 0, which a fence's signature covers. -/
def fenceMessage (c : Cmd) : List Byte :=
  leBytes 8 (c.desc.w0.toNat - fld c.desc.w0 31 0) ++ leBytes 8 c.desc.w1.toNat ++ leBytes 8 c.desc.w2.toNat ++ leBytes 8 c.desc.w3.toNat
    ++ leBytes 8 c.desc.w4.toNat ++ leBytes 8 c.desc.w5.toNat ++ leBytes 8 c.desc.w6.toNat ++ leBytes 8 c.desc.w7.toNat

/-- Whether a fleet key that the panel holds verifies a fence's signature. -/
def State.fenceSigned (s : State) (c : Cmd) : Bool :=
  s.activeSlots.any fun n => Config.verifies (s.fleetKey n) (fenceMessage c) (c.desc.ext.getD 0)

/-- Whether a fence covers every job. -/
def allJobs (c : Cmd) : Bool := c.desc.w3 = 0xFFFFFFFFFFFFFFFF

/-- The epoch that a fence is judged against. -/
def State.fenceEpoch (s : State) (c : Cmd) : JobEpoch := if allJobs c then s.span.panelEpoch else s.jobEpoch c.desc.w3

/-- The epoch and fence of what a command covers. -/
def State.setEpoch (s : State) (c : Cmd) (e : JobEpoch) : State :=
  if allJobs c then { s with span := { s.span with panelEpoch := e } }
  else { s with span := { s.span with jobs := s.span.jobs.filter (fun x => x.1 ≠ c.desc.w3) ++ [(c.desc.w3, e)] } }

/-- The contexts that a fence covers: those of its job, or all. -/
def State.covered (s : State) (c : Cmd) : List Nat :=
  s.openCtxs.filter fun n => allJobs c || (s.ctx n).any fun x => x.jobId ≠ 0 && x.jobId = c.desc.w3

/-- The status that ends a fence with no effect. -/
def State.fenceError (s : State) (c : Cmd) : Option Nat :=
  if !s.fenceSigned c || c.desc.w4 ≠ s.nv.serial then some 0x31
  else if c.desc.w2.toNat ≤ (s.fenceEpoch c).epoch.toNat then some 0x32
  else none

/-- The passes of a context end with FENCED: the running one is aborted, queued ones do not launch (R459). -/
def State.fencePasses (s : State) (n : Nat) : State :=
  let t := if s.ledger.state ≠ .idle && (s.ledger.pass.any fun q => q.ctx.toNat = n) then s.recordAbort abFenced [] else s
  let t := (t.sched.queue.filter fun q => q.ctx.toNat = n).foldl (fun t q => t.endUnlaunched q 0x30) t
  match t.sched.picked with
  | some x => if x.pass.ctx.toNat = n then t.endUnlaunched x.pass 0x30 else t
  | none => t

/-- The Penlet output of a context stops: entries not sent are dropped, and its copies end with FENCED (R459, R463). -/
def State.fenceOutput (s : State) (n : Nat) : State :=
  let x := { s.span with due := s.span.due.filter (fun d => d.1.toNat ≠ n),
                         handoffs := s.span.handoffs.filter fun j => j.started || j.ctx.toNat ≠ n }
  let t := { s with span := x }
  let t := (t.span.copies.filter fun j => j.ctx.toNat = n).foldl (fun t j => t.copyOver j 0x30) t
  t.freeHandoffs

/-- The effect of FENCE (R459). -/
def State.fence (s : State) (c : Cmd) : State :=
  match s.fenceError c with
  | some st => s.completeSt c st
  | none =>
    let ns := s.covered c
    let t := s.setEpoch c { epoch := c.desc.w2, fenced := true }
    let t := ns.foldl (fun t n => (t.fencePasses n).fenceOutput n) t
    let t := t.ctxEvents (fun n => ns.contains n) (event 0x89 ns.length c.desc.w2.toNat)
    t.complete c (okRec c ns.length 0 0)

/-- FENCE (R330, R459). -/
def execFence (c : Cmd) (s : State) : Host.Outcome State Fault Refusal := .next (s.run c 0x31 fun t => t.fence c)

/-- The effect of UNFENCE: the epoch rises, and the fence is lifted (R459). -/
def State.unfence (s : State) (c : Cmd) : State :=
  match s.fenceError c with
  | some st => s.completeSt c st
  | none => (s.setEpoch c { epoch := c.desc.w2, fenced := false }).complete c (okRec c (s.covered c).length 0 0)

/-- UNFENCE (R330, R459). -/
def execUnfence (c : Cmd) (s : State) : Host.Outcome State Fault Refusal := .next (s.run c 0x32 fun t => t.unfence c)

/-! ### SHADOW (R464, R465) -/

/-- The effect of SHADOW: a digest table outside the context's regions is REGION_DENIED (DESIGN CHOICE, log entry 32). -/
def State.shadow (s : State) (c : Cmd) : State :=
  let a := c.desc.w3.toNat
  let n := 64 * fld c.desc.w4 15 0
  if a ≠ 0 && !(s.hbmCovered c.ctx true a n && s.hbmCovered c.ctx false a n) then s.completeSt c 0x16
  else
    (s.modCtx c.ctx fun x =>
      { x with shadowOn := bit c.desc.w2 0, digest := BitVec.ofNat 48 a, slots := BitVec.ofNat 16 (fld c.desc.w4 15 0) }).completeSt c 0

/-- SHADOW (R330, R464). -/
def execShadow (c : Cmd) (s : State) : Host.Outcome State Fault Refusal := .next (s.run c 0x34 fun t => t.shadow c)

/-! ### MEADOW_POWER (R330, R366, R376 to R379, R393) -/

/-- The meadows that a MEADOW_POWER names. -/
def namedMeadows (c : Cmd) : List Nat := bitsOf 8 (fld c.desc.w2 7 0)

/-- Whether the command must wait: a named meadow is on its way to the other state. -/
def State.meadowWait (s : State) (c : Cmd) : Bool :=
  (namedMeadows c).any fun m =>
    if bit c.desc.w2 8 then s.meadowState m = 4 || s.power.turnOff.contains m else s.meadowState m = 2

/-- The effect of MEADOW_POWER on: requests for the named meadows that are dark and not LOCKED. -/
def State.meadowOnCmd (s : State) (c : Cmd) : State :=
  let off := (namedMeadows c).filter fun m => s.meadowState m ≠ 3
  let locked := off.filter fun m => s.meadowState m = 6
  if !s.inrushAllowed then s.completeSt c 0x05
  else if !off.isEmpty && locked.length = off.length then s.completeSt c 0x05
  else
    let todo := off.filter fun m => s.meadowState m ≠ 6
    let ask := todo.filter fun m => s.meadowState m ≠ 2 && !(s.power.requests.any fun r => r.meadow = m)
    let reqs := ask.map fun m => ({ meadow := m, cmd := some c, deferred := false, since := s.tclk } : InrushReq)
    let j : MeadowJob := { cmd := c, on := true, todo := todo, dark := BitVec.ofNat 8 (maskOf locked) }
    State.finishMeadowJobs { s with power := { s.power with requests := s.power.requests ++ reqs, jobs := s.power.jobs ++ [j] } }

/-- The effect of MEADOW_POWER off: the named meadows that are ON go through the planned power-down. -/
def State.meadowOffCmd (s : State) (c : Cmd) : State :=
  let todo := (namedMeadows c).filter fun m => s.meadowState m = 3 || s.meadowState m = 4
  let j : MeadowJob := { cmd := c, on := false, todo := todo, dark := 0 }
  let t := todo.foldl State.planOff s
  State.finishMeadowJobs { t with power := { t.power with jobs := t.power.jobs ++ [j] } }

/-- MEADOW_POWER (R330). -/
def execMeadowPower (c : Cmd) (s : State) : Host.Outcome State Fault Refusal :=
  .next (if s.meadowWait c then s else s.run c 0x35 fun t => if bit c.desc.w2 8 then t.meadowOnCmd c else t.meadowOffCmd c)

/-! ### PANEL_RESET (R330, R395) -/

/-- The effect of PANEL_RESET: its record comes first, and the reset 1 ms after the record is posted; over MCTP it is posted at once. -/
def State.panelReset (s : State) (c : Cmd) : State :=
  let t := s.completeSt c 0
  if c.src = .mctp then { t with boot := { t.boot with resetAt := some (t.tclk + 1000000) } } else t

/-- PANEL_RESET (R395). -/
def execPanelReset (c : Cmd) (s : State) : Host.Outcome State Fault Refusal := .next (s.run c 0x36 fun t => t.panelReset c)

/-! ### QUERY (R333) -/

/-- The answer DEVICE. -/
def State.deviceInfo (s : State) : List Byte :=
  leBytes 4 s.nv.part.toNat ++ leBytes 4 (25 * fuseMax s.nv.part) ++ leBytes 4 (10 * s.capPanel) ++ leBytes 8 s.nv.serial.toNat
    ++ leBytes 8 s.fw.version.toNat ++ leBytes 1 s.nv.lifecycle.toNat ++ leBytes 1 s.sec.level.toNat ++ leBytes 1 s.powerState ++ leBytes 1 s.fnState
    ++ leBytes 4 s.map.gen.toNat ++ leBytes 28 0

/-- Logical cores of a logical sett id. -/
def State.coreCount (s : State) (sid : Nat) : Nat :=
  match s.siteOfSett sid with
  | some i => (s.coresOfSite i).length
  | none => 0

/-- The answer SHAPE. -/
def State.shapeInfo (s : State) : List Byte :=
  leBytes 4 s.map.gen.toNat ++ (List.range 16).flatMap (fun r => leBytes 4 (s.rowShape r).toNat)
    ++ (List.range 256).flatMap (fun k => leBytes 1 (s.coreCount k)) ++ leBytes 4 s.map.gen.toNat

/-- The answer LEDGER. -/
def State.ledgerInfo (s : State) : List Byte :=
  let l := s.ledger
  leBytes 4 l.passNum.toNat ++ leBytes 4 l.stateImage.toNat ++ leBytes 4 l.countImage.toNat ++ leBytes 4 l.lostImage.toNat
    ++ leBytes 4 l.strayImage.toNat ++ leBytes 4 0 ++ leBytes 8 l.tLaunch.toNat ++ leBytes 8 l.tOutcome.toNat

/-- The answer CONTEXT. -/
def State.ctxInfo (s : State) (n : Nat) (c : Ctx) : List Byte :=
  let qps := s.ioQps fun k => (s.qp k).any fun q => q.ctx.toNat = n
  let dirs := (s.dir.filter fun e => e.2.valid && e.2.ctx.toNat = n).length
  leBytes 8 c.weight.toNat ++ leBytes 8 c.limitMs.toNat ++ leBytes 8 c.jobId.toNat ++ leBytes 8 (s.jobEpoch c.jobId).epoch.toNat ++ leBytes 8 qps
    ++ leBytes 8 c.regions.length ++ leBytes 8 dirs
    ++ leBytes 8 (match c.pin with | some h => h.toNat | none => Config.noPin.toNat)

/-- The answer of a QUERY, or its status. -/
def State.queryAnswer (s : State) (c : Cmd) : Except Nat (List Byte) :=
  match fld c.desc.w2 7 0 with
  | 0 => .ok s.deviceInfo
  | 1 => .ok s.shapeInfo
  | 2 =>
    let h := fld c.desc.w5 18 0
    if s.owns c.ctx h then .ok (leBytes 8 (s.dirWord0 h).toNat ++ leBytes 8 (s.dirWord1 h).toNat) else .error 0x0D
  | 3 => .ok s.ledgerInfo
  | 4 => match s.ctx c.ctx with
    | some x => .ok (s.ctxInfo c.ctx x)
    | none => .error 0x06
  | _ => .ok ((List.range 32).flatMap fun k => leBytes 4 (s.sump k).status.toNat)

/-- FLAGS.TRUNCATED. -/
def truncated (yes : Bool) : BitVec 8 := if yes then 64 else 0

/-- The effect of QUERY: the answer goes to BUF through the submitting function, or into the record. -/
def State.query (s : State) (c : Cmd) : State :=
  match s.queryAnswer c with
  | .error st => s.completeSt c st
  | .ok bs =>
    if c.desc.w3 = 0 then
      s.complete c { okRec c (leNat (bs.take 4)) (leNat ((bs.drop 4).take 8)) (leNat ((bs.drop 12).take 8)) with flags := truncated (20 < bs.length) }
    else
      let f := c.src.fn
      let n := fld c.desc.w4 31 0
      let r := { okRec c bs.length 0 0 with flags := truncated (n < bs.length) }
      if !(s.gal (f / 64)).linkUp then s.completeSt c 0x12
      else if n = 0 then s.complete c r
      else
        let o := HostOut.write (f / 64) (f % 64) (c.desc.w3.setWidth 48) (bs.take n)
        State.completeAfter { s with host := { s.host with out := s.host.out ++ [o] } } c r [f]

/-- QUERY (R333). -/
def execQuery (c : Cmd) (s : State) : Host.Outcome State Fault Refusal := .next (s.run c 0x40 fun t => t.query c)

/-! ### FW_UPDATE (R330, R419, R423, R434) -/

/-- PHASE of GAL_FW_STATE set. -/
def State.fwPhase (s : State) (v : Nat) : State := { s with fw := { s.fw with state := setFld s.fw.state 63 60 v } }

/-- A verified image: it is distributed, or while the panel is INITIALISING only written to flash (R423). -/
def State.fwAccept (s : State) (c : Cmd) (img : List Byte) : State :=
  let x := { s.fw with cmd := some c, newImage := img, actTime := c.desc.w4, startAt := s.tclk, tries := 0, repaired := false, tAct := none, state := 0 }
  let t := { s with fw := x }
  if t.fnState = 1 then t.distribute
  else { t with nv := { t.nv with imageOk := false }, fw := { t.fw with state := setFld (setBit (setBit t.fw.state 57 true) 56 true) 63 60 3 } }

/-- The effect of FW_UPDATE: the image comes through PF0 of P0, and is checked. -/
def State.fwUpdate (s : State) (c : Cmd) (image : HostRead) : State :=
  if s.fw.cmd.isSome || s.applying then s.completeSt c 0x38
  else if !(s.gal 0).linkUp then (s.fwPhase 7).completeSt c 0x12
  else match image with
    | .fail st => (s.fwPhase 7).completeSt c (fabricSt st)
    | .ok data =>
      let img := data.take (fld c.desc.w3 31 0)
      if (imageError s.nv img).isSome then (s.fwPhase 7).completeSt c 0x31 else s.fwAccept c img

/-- FW_UPDATE (R419). -/
def execFwUpdate (c : Cmd) (image : HostRead) (s : State) : Host.Outcome State Fault Refusal := .next (s.run c 0x48 fun t => t.fwUpdate c image)

/-! ### Event packets (R249, R314, R424) -/

/-- The interrupt source of an event packet at a gallery: 288 and up for setts, 560 and up for sumps. -/
def eventSource (k : Packet) : Option Nat :=
  if k.src.toNat / 0x1000 = 6 then some (288 + k.src.toNat % 512) else if k.src.toNat / 0x1000 = 4 then some (560 + k.src.toNat % 32) else none

/-- The event record that an event packet asks for: RESULT and DATA_A lead its payload (DESIGN CHOICE, log entry 33). -/
def eventOf (k : Packet) : EventRec :=
  { code := k.aux.setWidth 8, result := BitVec.ofNat 32 (leAt k.data 0 4), dataA := BitVec.ofNat 64 (leAt k.data 4 8), lost := false }

/-- An event packet at gallery g: the interrupt source is set, and a record of an event code is queued for posting (R314, R335). -/
def State.eventAt (s : State) (g : Nat) (k : Packet) : State :=
  let t := match eventSource k with
    | some n => s.edge g n
    | none => s
  let code := k.aux.toNat
  if code = 0x80 || code = 0x81 || code = 0x89 then t.ctxEvent k.ctx.toNat (eventOf k)
  else if 0x83 ≤ code && code ≤ 0x8A then t.panelEvent (eventOf k)
  else t

/-- EVENT (R249, R314): what one says to a sett controller has no effect on the state of this model. -/
def execEvent (k : Packet) (s : State) : Host.Outcome State Fault Refusal :=
  .next (s.arrive k 13 fun t => if 288 ≤ k.didx.toNat && k.didx.toNat < 292 then t.eventAt (k.didx.toNat - 288) k else t)

end Sys2Proof.Machine
end

