-- ==== Sys2Proof/Machine/SeqRows.lean ====
section
/-! DEFINITION. The meaning of each sequencer instruction row: the word it spells, issued at the core's PC (R180, R184). -/

namespace Sys2Proof.Machine

/-- NOP (R184, R211). -/
def execNop (p : PCore) (g : Guard) (b : BitVec 48) (s : State) : Host.Outcome State Fault Refusal :=
  .next (s.issue p.val 0x00 g b.toNat bodyNop)

/-- PDONE (R212). -/
def execPdone (p : PCore) (g : Guard) (b : BitVec 48) (s : State) : Host.Outcome State Fault Refusal :=
  .next (s.issue p.val 0x00 g (1 * 2 ^ 48 + b.toNat) bodyPdone)

/-- BREAK (R178). -/
def execBrk (p : PCore) (g : Guard) (b : BitVec 48) (s : State) : Host.Outcome State Fault Refusal :=
  .next (s.issue p.val 0x00 g (2 * 2 ^ 48 + b.toNat) bodyBreak)

/-- SEQ_FENCE (R211). -/
def execSeqFence (p : PCore) (g : Guard) (b : BitVec 48) (s : State) : Host.Outcome State Fault Refusal :=
  .next (s.issue p.val 0x00 g (3 * 2 ^ 48 + b.toNat) bodyFence)

/-- ALU_R (R186). -/
def execAluR (p : PCore) (g : Guard) (b : BitVec 54) (s : State) : Host.Outcome State Fault Refusal :=
  .next (s.issue p.val 0x01 g b.toNat bodyAluR)

/-- ALU_I (R186). -/
def execAluI (p : PCore) (g : Guard) (b : BitVec 54) (s : State) : Host.Outcome State Fault Refusal :=
  .next (s.issue p.val 0x02 g b.toNat bodyAluI)

/-- LIL (R187). -/
def execLil (p : PCore) (g : Guard) (b : BitVec 48) (s : State) : Host.Outcome State Fault Refusal :=
  .next (s.issue p.val 0x03 g b.toNat bodyLil)

/-- LIH (R187). -/
def execLih (p : PCore) (g : Guard) (b : BitVec 48) (s : State) : Host.Outcome State Fault Refusal :=
  .next (s.issue p.val 0x03 g (1 * 2 ^ 48 + b.toNat) bodyLih)

/-- EXT (R187). -/
def execExt (p : PCore) (g : Guard) (b : BitVec 48) (s : State) : Host.Outcome State Fault Refusal :=
  .next (s.issue p.val 0x04 g b.toNat bodyExt)

/-- DEP (R187). -/
def execDep (p : PCore) (g : Guard) (b : BitVec 48) (s : State) : Host.Outcome State Fault Refusal :=
  .next (s.issue p.val 0x04 g (1 * 2 ^ 48 + b.toNat) bodyDep)

/-- LD (R188). -/
def execLd (p : PCore) (g : Guard) (b : BitVec 54) (s : State) : Host.Outcome State Fault Refusal :=
  .next (s.issue p.val 0x05 g b.toNat bodyLd)

/-- ST (R188). -/
def execSt (p : PCore) (g : Guard) (b : BitVec 54) (s : State) : Host.Outcome State Fault Refusal :=
  .next (s.issue p.val 0x06 g b.toNat bodySt)

/-- RDREG (R189). -/
def execRdreg (p : PCore) (g : Guard) (b : BitVec 50) (s : State) : Host.Outcome State Fault Refusal :=
  .next (s.issue p.val 0x07 g b.toNat bodyRdreg)

/-- WRREG (R189). -/
def execWrreg (p : PCore) (g : Guard) (b : BitVec 50) (s : State) : Host.Outcome State Fault Refusal :=
  .next (s.issue p.val 0x07 g (1 * 2 ^ 50 + b.toNat) bodyWrreg)

/-- RDTIME (R189). -/
def execRdtime (p : PCore) (g : Guard) (b : BitVec 50) (s : State) : Host.Outcome State Fault Refusal :=
  .next (s.issue p.val 0x07 g (2 * 2 ^ 50 + b.toNat) bodyRdtime)

/-- RDLAUNCH (R189). -/
def execRdlaunch (p : PCore) (g : Guard) (b : BitVec 50) (s : State) : Host.Outcome State Fault Refusal :=
  .next (s.issue p.val 0x07 g (3 * 2 ^ 50 + b.toNat) bodyRdlaunch)

/-- MOVU (R189). -/
def execMovu (p : PCore) (g : Guard) (b : BitVec 50) (s : State) : Host.Outcome State Fault Refusal :=
  .next (s.issue p.val 0x07 g (4 * 2 ^ 50 + b.toNat) bodyMovu)

/-- RDID (R189). -/
def execRdid (p : PCore) (g : Guard) (b : BitVec 50) (s : State) : Host.Outcome State Fault Refusal :=
  .next (s.issue p.val 0x07 g (5 * 2 ^ 50 + b.toNat) bodyRdid)

/-- J (R190). -/
def execJ (p : PCore) (g : Guard) (b : BitVec 48) (s : State) : Host.Outcome State Fault Refusal :=
  .next (s.issue p.val 0x08 g b.toNat bodyJ)

/-- JAL (R190). -/
def execJal (p : PCore) (g : Guard) (b : BitVec 48) (s : State) : Host.Outcome State Fault Refusal :=
  .next (s.issue p.val 0x08 g (1 * 2 ^ 48 + b.toNat) bodyJal)

/-- JR (R190). -/
def execJr (p : PCore) (g : Guard) (b : BitVec 48) (s : State) : Host.Outcome State Fault Refusal :=
  .next (s.issue p.val 0x08 g (2 * 2 ^ 48 + b.toNat) bodyJr)

/-- BCMP (R191). -/
def execBcmp (p : PCore) (g : Guard) (b : BitVec 54) (s : State) : Host.Outcome State Fault Refusal :=
  .next (s.issue p.val 0x09 g b.toNat bodyBcmp)

/-- BSUM (R192). -/
def execBsum (p : PCore) (g : Guard) (b : BitVec 54) (s : State) : Host.Outcome State Fault Refusal :=
  .next (s.issue p.val 0x0A g b.toNat bodyBsum)

/-- PSET (R191). -/
def execPset (p : PCore) (g : Guard) (b : BitVec 54) (s : State) : Host.Outcome State Fault Refusal :=
  .next (s.issue p.val 0x0B g b.toNat bodyPset)

/-- PSUM (R192). -/
def execPsum (p : PCore) (g : Guard) (b : BitVec 54) (s : State) : Host.Outcome State Fault Refusal :=
  .next (s.issue p.val 0x0C g b.toNat bodyPsum)

/-- PLOG (R193). -/
def execPlog (p : PCore) (g : Guard) (b : BitVec 54) (s : State) : Host.Outcome State Fault Refusal :=
  .next (s.issue p.val 0x0D g b.toNat bodyPlog)

/-- MMA_OS (R84, R194). -/
def execMmaOs (p : PCore) (g : Guard) (b : BitVec 54) (s : State) : Host.Outcome State Fault Refusal :=
  .next (s.issue p.val 0x10 g b.toNat bodyMmaOs)

/-- MMA_WS (R86, R194). -/
def execMmaWs (p : PCore) (g : Guard) (b : BitVec 54) (s : State) : Host.Outcome State Fault Refusal :=
  .next (s.issue p.val 0x11 g b.toNat bodyMmaWs)

/-- WLOAD (R85, R194). -/
def execWload (p : PCore) (g : Guard) (b : BitVec 54) (s : State) : Host.Outcome State Fault Refusal :=
  .next (s.issue p.val 0x12 g b.toNat bodyWload)

/-- ACC_LOAD (R98, R194). -/
def execAccLoad (p : PCore) (g : Guard) (b : BitVec 54) (s : State) : Host.Outcome State Fault Refusal :=
  .next (s.issue p.val 0x13 g b.toNat bodyAccLoad)

/-- DRAIN (R96, R194). -/
def execDrain (p : PCore) (g : Guard) (b : BitVec 54) (s : State) : Host.Outcome State Fault Refusal :=
  .next (s.issue p.val 0x14 g b.toNat bodyDrain)

/-- VCHAIN (R195). -/
def execVchain (p : PCore) (g : Guard) (b : BitVec 54) (s : State) : Host.Outcome State Fault Refusal :=
  .next (s.issue p.val 0x18 g b.toNat bodyVchain)

/-- FILL (R196). -/
def execFill (p : PCore) (g : Guard) (b : BitVec 54) (s : State) : Host.Outcome State Fault Refusal :=
  .next (s.issue p.val 0x1C g b.toNat bodyFill)

/-- COPY (R196). -/
def execCopy (p : PCore) (g : Guard) (b : BitVec 54) (s : State) : Host.Outcome State Fault Refusal :=
  .next (s.issue p.val 0x1D g b.toNat bodyCopy)

/-- FRD (R197). -/
def execFrd (p : PCore) (g : Guard) (b : BitVec 54) (s : State) : Host.Outcome State Fault Refusal :=
  .next (s.issue p.val 0x20 g b.toNat bodyFrd)

/-- FWR (R197). -/
def execFwr (p : PCore) (g : Guard) (b : BitVec 54) (s : State) : Host.Outcome State Fault Refusal :=
  .next (s.issue p.val 0x21 g b.toNat bodyFwr)

/-- MCW (R199). -/
def execMcw (p : PCore) (g : Guard) (b : BitVec 54) (s : State) : Host.Outcome State Fault Refusal :=
  .next (s.issue p.val 0x22 g b.toNat bodyMcw)

/-- HINT (R197). -/
def execHint (p : PCore) (g : Guard) (b : BitVec 54) (s : State) : Host.Outcome State Fault Refusal :=
  .next (s.issue p.val 0x23 g b.toNat bodyHint)

/-- MSEND (R219). -/
def execMsend (p : PCore) (g : Guard) (b : BitVec 54) (s : State) : Host.Outcome State Fault Refusal :=
  .next (s.issue p.val 0x24 g b.toNat bodyMsend)

/-- DWAIT (R203). -/
def execDwait (p : PCore) (g : Guard) (b : BitVec 54) (s : State) : Host.Outcome State Fault Refusal :=
  .next (s.issue p.val 0x25 g b.toNat bodyDwait)

/-- TWAIT (R160). -/
def execTwait (p : PCore) (g : Guard) (b : BitVec 54) (s : State) : Host.Outcome State Fault Refusal :=
  .next (s.issue p.val 0x28 g b.toNat bodyTwait)

/-- CWAIT (R160). -/
def execCwait (p : PCore) (g : Guard) (b : BitVec 54) (s : State) : Host.Outcome State Fault Refusal :=
  .next (s.issue p.val 0x29 g b.toNat bodyCwait)

/-- TSEND (R161). -/
def execTsend (p : PCore) (g : Guard) (b : BitVec 54) (s : State) : Host.Outcome State Fault Refusal :=
  .next (s.issue p.val 0x2A g b.toNat bodyTsend)

/-- CRET (R162). -/
def execCret (p : PCore) (g : Guard) (b : BitVec 54) (s : State) : Host.Outcome State Fault Refusal :=
  .next (s.issue p.val 0x2B g b.toNat bodyCret)

/-- WOPEN (R205). -/
def execWopen (p : PCore) (g : Guard) (b : BitVec 54) (s : State) : Host.Outcome State Fault Refusal :=
  .next (s.issue p.val 0x2C g b.toNat bodyWopen)

/-- WCLOSE (R206). -/
def execWclose (p : PCore) (g : Guard) (b : BitVec 54) (s : State) : Host.Outcome State Fault Refusal :=
  .next (s.issue p.val 0x2D g b.toNat bodyWclose)

/-- CBCFG (R207). -/
def execCbcfg (p : PCore) (g : Guard) (b : BitVec 54) (s : State) : Host.Outcome State Fault Refusal :=
  .next (s.issue p.val 0x30 g b.toNat bodyCbcfg)

/-- CBPUSH (R208). -/
def execCbpush (p : PCore) (g : Guard) (b : BitVec 54) (s : State) : Host.Outcome State Fault Refusal :=
  .next (s.issue p.val 0x31 g b.toNat bodyCbpush)

/-- CBPOP (R147, R208). -/
def execCbpop (p : PCore) (g : Guard) (b : BitVec 54) (s : State) : Host.Outcome State Fault Refusal :=
  .next (s.issue p.val 0x32 g b.toNat bodyCbpop)

/-- CBADDR (R209). -/
def execCbaddr (p : PCore) (g : Guard) (b : BitVec 54) (s : State) : Host.Outcome State Fault Refusal :=
  .next (s.issue p.val 0x33 g b.toNat bodyCbaddr)

/-- WAITT (R210). -/
def execWaitt (p : PCore) (g : Guard) (b : BitVec 54) (s : State) : Host.Outcome State Fault Refusal :=
  .next (s.issue p.val 0x38 g b.toNat bodyWaitt)

end Sys2Proof.Machine
end

