-- ==== Sys2Proof/Machine/Spdm.lean ====
section
/-! DEFINITION. The MCTP endpoint of PF0 of P0 and its SPDM responder (R317, R442, R443). -/

namespace Sys2Proof.Machine

/-! ### Measurements (R443) -/

/-- The digest of a part of the running image: measurements 2 to 4. -/
def State.partDigest (s : State) (i : Nat) : BitVec 256 := Config.sha256 (partOf s.fw.running i)

/-- The 16 raw bytes of measurement 6. -/
def State.posture (s : State) : List Byte :=
  leBytes 1 s.nv.lifecycle.toNat ++ leBytes 1 s.sec.level.toNat ++ leBytes 1 (b2n s.sec.fullSince) ++ leBytes 1 s.nv.minSvn.toNat
    ++ leBytes 4 s.nv.fullCount.toNat ++ leBytes 1 (maskOf s.activeSlots) ++ leBytes 1 s.nv.fleetRevoked.toNat ++ leBytes 6 0

/-- The bytes that measurement 7 hashes: GAL_FUSE, GAL_BOOT_CFG and the digests of the active fleet slots in slot order. -/
def State.configBytes (s : State) : List Byte :=
  leBytes 4 (fuseImage s.nv.part).toNat ++ leBytes 4 s.nv.bootCfg.toNat
    ++ s.activeSlots.flatMap fun n => leBytes 32 (Config.sha256 (leBytes 64 (s.fleetKey n).toNat)).toNat

/-- Measurement block i, from 1 to 7. -/
def State.measurement (s : State) (i : Nat) : List Byte :=
  match i with
  | 1 => leBytes 32 Config.romDigest.toNat
  | 2 => leBytes 32 (s.partDigest 0).toNat
  | 3 => leBytes 32 (s.partDigest 1).toNat
  | 4 => leBytes 32 (s.partDigest 2).toNat
  | 5 => leBytes 32 (Config.sha256 (s.fw.running.take 0xFC0)).toNat
  | 6 => s.posture
  | 7 => leBytes 32 (Config.sha256 s.configBytes).toNat
  | _ => []

/-- The SHA-256 digest of measurements 1 to 5, from which the alias key pair follows (R442). -/
def State.aliasDigest (s : State) : BitVec 256 := Config.sha256 ((List.range' 1 5).flatMap s.measurement)

/-- The blocks that GET_MEASUREMENTS names: one, all for 0xFF, none for 0 or an index without a block (PRESUMED, log entry 34). -/
def measurementList (index : BitVec 8) : List Nat :=
  if index = 0xFF then List.range' 1 7 else if 1 ≤ index.toNat ∧ index.toNat ≤ 7 then [index.toNat] else []

/-! ### SPDM (R443, R445) -/

/-- Whether messages reach the endpoint (R317): firmware serves it and P0's link is up. -/
def State.mctpUp (s : State) : Bool := s.served && (s.gal 0).linkUp

/-- A message leaves the endpoint. -/
def State.mctpSend (s : State) (m : MctpOut) : State := { s with host := { s.host with mctp := s.host.mctp ++ [m] } }

/-- Whether the lifecycle gives SPDM only its first three requests: A0 of R445. -/
def State.spdmLimited (s : State) : Bool := s.nv.lifecycle = 0 || s.nv.lifecycle = 3

/-- An SPDM request is answered: Busy during an activation or APPLYING, UnsupportedRequest where A0 leaves the request out, otherwise
as the request says; Busy comes first (DESIGN CHOICE, log entry 34). -/
def State.spdmAnswer (s : State) (first : Bool) (f : State → SpdmAns × State) : State :=
  if s.fw.restarting || s.applying then s.mctpSend (.spdm .busy)
  else if s.spdmLimited && !first then s.mctpSend (.spdm .unsupported)
  else (f s).2.mctpSend (.spdm (f s).1)

/-- The answer to GET_VERSION. -/
def State.spdmVersion (s : State) : State := s.spdmAnswer true fun t => (.version, t)

/-- The answer to GET_CAPABILITIES. -/
def State.spdmCapabilities (s : State) : State := s.spdmAnswer true fun t => (.capabilities, t)

/-- The answer to NEGOTIATE_ALGORITHMS. -/
def State.spdmAlgorithms (s : State) : State := s.spdmAnswer true fun t => (.algorithms, t)

/-- The answer to GET_DIGESTS: the digest of the chain of slot 0. -/
def State.spdmDigests (s : State) : State :=
  s.spdmAnswer false fun t => (.digests (Config.sha256 (Config.certificate t.aliasDigest 0 65536)), t)

/-- The answer to GET_CERTIFICATE: a portion of the chain of slot 0. -/
def State.spdmCertificate (s : State) (off len : BitVec 16) : State :=
  s.spdmAnswer false fun t => (.certificate (Config.certificate t.aliasDigest off.toNat len.toNat), t)

/-- The answer to CHALLENGE: a nonce of the device, and the alias key's signature over both nonces and the chain's digest. -/
def State.spdmChallenge (s : State) (nonce : BitVec 256) : State :=
  s.spdmAnswer false fun t =>
    let n := t.fresh.1
    let d := Config.sha256 (Config.certificate t.aliasDigest 0 65536)
    (.challengeAuth n (Config.sign t.aliasDigest (leBytes 32 nonce.toNat ++ leBytes 32 n.toNat ++ leBytes 32 d.toNat)), t.fresh.2)

/-- The answer to GET_MEASUREMENTS: the blocks named, a nonce of the device, and the alias key's signature over both nonces and the blocks. -/
def State.spdmMeasurements (s : State) (index : BitVec 8) (nonce : BitVec 256) : State :=
  s.spdmAnswer false fun t =>
    let n := t.fresh.1
    let bl := (measurementList index).map fun i => (i, t.measurement i)
    (.measurements bl n (Config.sign t.aliasDigest (leBytes 32 nonce.toNat ++ leBytes 32 n.toNat ++ bl.flatMap (·.2))), t.fresh.2)

/-- GET_VERSION (R443). -/
def execGetVersion (s : State) : Host.Outcome State Fault Refusal := .next (if s.mctpUp then s.spdmVersion else s)

/-- GET_CAPABILITIES (R443). -/
def execGetCapabilities (s : State) : Host.Outcome State Fault Refusal := .next (if s.mctpUp then s.spdmCapabilities else s)

/-- NEGOTIATE_ALGORITHMS (R443). -/
def execNegotiateAlgorithms (s : State) : Host.Outcome State Fault Refusal := .next (if s.mctpUp then s.spdmAlgorithms else s)

/-- GET_DIGESTS (R443). -/
def execGetDigests (s : State) : Host.Outcome State Fault Refusal := .next (if s.mctpUp then s.spdmDigests else s)

/-- GET_CERTIFICATE (R443). -/
def execGetCertificate (off len : BitVec 16) (s : State) : Host.Outcome State Fault Refusal :=
  .next (if s.mctpUp then s.spdmCertificate off len else s)

/-- CHALLENGE (R443). -/
def execChallenge (nonce : BitVec 256) (s : State) : Host.Outcome State Fault Refusal :=
  .next (if s.mctpUp then s.spdmChallenge nonce else s)

/-- GET_MEASUREMENTS (R443). -/
def execGetMeasurements (index : BitVec 8) (nonce : BitVec 256) (s : State) : Host.Outcome State Fault Refusal :=
  .next (if s.mctpUp then s.spdmMeasurements index nonce else s)

/-! ### Messages (R317) -/

/-- An MCTP control request, laid out as DSP0236 does: PRESUMED (log entry 35). Set Endpoint ID gives the endpoint its EID. -/
def State.mctpControl (s : State) (body : List Byte) : State :=
  let rq := body.headD 0
  let cmd := (body.drop 1).headD 0
  let ans := fun (t : State) (d : List Byte) => t.mctpSend (.control ([rq &&& 0x7F, cmd] ++ d))
  if !bit rq 7 then s
  else if cmd = 1 then
    if body.length < 4 then ans s [3]
    else
      let e := (body.drop 3).headD 0
      if e = 0 || e = 0xFF then ans s [2]
      else ans { s with host := { s.host with eid := some e } } [0, 0, e, 0]
  else if cmd = 2 then ans s [0, s.host.eid.getD 0, 0, 0]
  else if cmd = 4 then ans s (if [0, 5, 0x7E, 0xFF].contains ((body.drop 2).headD 0) then [0, 1, 0xF1, 0xF3, 0xF1, 0] else [0x80])
  else if cmd = 5 then ans s [0, 3, 0, 5, 0x7E]
  else ans s [5]

/-- An SPDM request message: SPDM version, request code, two parameters and the request's own bytes, as DSP0274 lays them out (PRESUMED, log
entry 34). -/
def State.mctpSpdm (s : State) (body : List Byte) : State :=
  match ((body.drop 1).headD 0).toNat with
  | 0x84 => s.spdmVersion
  | 0xE1 => s.spdmCapabilities
  | 0xE3 => s.spdmAlgorithms
  | 0x81 => s.spdmDigests
  | 0x82 => s.spdmCertificate (BitVec.ofNat 16 (leAt body 4 2)) (BitVec.ofNat 16 (leAt body 6 2))
  | 0x83 => s.spdmChallenge (BitVec.ofNat 256 (leAt body 4 32))
  | 0xE0 => s.spdmMeasurements ((body.drop 3).headD 0) (BitVec.ofNat 256 (leAt body 4 32))
  | _ => s.mctpSend (.spdm (if s.fw.restarting || s.applying then .busy else .unsupported))

/-- A vendor-defined message: a descriptor, with its extension behind it (R319). -/
def State.mctpVendor (s : State) (body : List Byte) : State :=
  if body.length = 64 then s.acceptCmd { src := .mctp, desc := descOf body none }
  else if body.length = 128 then s.acceptCmd { src := .mctp, desc := descOf (body.take 64) (some (body.drop 64)) }
  else s

/-- MCTP_MESSAGE (R317): a message of a type that is not supported, or without a whole descriptor, gets no response. -/
def execMctpMessage (type : BitVec 8) (body : List Byte) (s : State) : Host.Outcome State Fault Refusal :=
  let t := s.edge 0 261
  .next (if !s.mctpUp then s
    else if type = 0 then t.mctpControl body
    else if type = 5 then t.mctpSpdm body
    else if type = 0x7E then t.mctpVendor body
    else t)

end Sys2Proof.Machine
end

