-- ==== Sys2Proof/Machine/Dispatch.lean ====
section
/-! DEFINITION. The dispatch of commands: one arm per constructor of Instr. -/

namespace Sys2Proof.Machine

def exec (i : Instr) (s : State) : Host.Outcome State Fault Refusal :=
  match i with
  | .nop p g b => Sys2Proof.Machine.execNop p g b s
  | .pdone p g b => Sys2Proof.Machine.execPdone p g b s
  | .brk p g b => Sys2Proof.Machine.execBrk p g b s
  | .seqFence p g b => Sys2Proof.Machine.execSeqFence p g b s
  | .aluR p g b => Sys2Proof.Machine.execAluR p g b s
  | .aluI p g b => Sys2Proof.Machine.execAluI p g b s
  | .lil p g b => Sys2Proof.Machine.execLil p g b s
  | .lih p g b => Sys2Proof.Machine.execLih p g b s
  | .ext p g b => Sys2Proof.Machine.execExt p g b s
  | .dep p g b => Sys2Proof.Machine.execDep p g b s
  | .ld p g b => Sys2Proof.Machine.execLd p g b s
  | .st p g b => Sys2Proof.Machine.execSt p g b s
  | .rdreg p g b => Sys2Proof.Machine.execRdreg p g b s
  | .wrreg p g b => Sys2Proof.Machine.execWrreg p g b s
  | .rdtime p g b => Sys2Proof.Machine.execRdtime p g b s
  | .rdlaunch p g b => Sys2Proof.Machine.execRdlaunch p g b s
  | .movu p g b => Sys2Proof.Machine.execMovu p g b s
  | .rdid p g b => Sys2Proof.Machine.execRdid p g b s
  | .j p g b => Sys2Proof.Machine.execJ p g b s
  | .jal p g b => Sys2Proof.Machine.execJal p g b s
  | .jr p g b => Sys2Proof.Machine.execJr p g b s
  | .bcmp p g b => Sys2Proof.Machine.execBcmp p g b s
  | .pset p g b => Sys2Proof.Machine.execPset p g b s
  | .bsum p g b => Sys2Proof.Machine.execBsum p g b s
  | .psum p g b => Sys2Proof.Machine.execPsum p g b s
  | .plog p g b => Sys2Proof.Machine.execPlog p g b s
  | .mmaOs p g b => Sys2Proof.Machine.execMmaOs p g b s
  | .mmaWs p g b => Sys2Proof.Machine.execMmaWs p g b s
  | .wload p g b => Sys2Proof.Machine.execWload p g b s
  | .accLoad p g b => Sys2Proof.Machine.execAccLoad p g b s
  | .drain p g b => Sys2Proof.Machine.execDrain p g b s
  | .arrayOpComplete p => Sys2Proof.Machine.execArrayOpComplete p s
  | .vchain p g b => Sys2Proof.Machine.execVchain p g b s
  | .chainStart p => Sys2Proof.Machine.execChainStart p s
  | .chainComplete p => Sys2Proof.Machine.execChainComplete p s
  | .summaryWrite p => Sys2Proof.Machine.execSummaryWrite p s
  | .fill p g b => Sys2Proof.Machine.execFill p g b s
  | .copy p g b => Sys2Proof.Machine.execCopy p g b s
  | .fillCopyComplete p => Sys2Proof.Machine.execFillCopyComplete p s
  | .frd p g b => Sys2Proof.Machine.execFrd p g b s
  | .fwr p g b => Sys2Proof.Machine.execFwr p g b s
  | .mcw p g b => Sys2Proof.Machine.execMcw p g b s
  | .hint p g b => Sys2Proof.Machine.execHint p g b s
  | .msend p g b => Sys2Proof.Machine.execMsend p g b s
  | .dwait p g b => Sys2Proof.Machine.execDwait p g b s
  | .transferComplete p tid => Sys2Proof.Machine.execTransferComplete p tid s
  | .transferTimeout p tid dt => Sys2Proof.Machine.execTransferTimeout p tid dt s
  | .twait p g b => Sys2Proof.Machine.execTwait p g b s
  | .cwait p g b => Sys2Proof.Machine.execCwait p g b s
  | .tsend p g b => Sys2Proof.Machine.execTsend p g b s
  | .cret p g b => Sys2Proof.Machine.execCret p g b s
  | .wopen p g b => Sys2Proof.Machine.execWopen p g b s
  | .wclose p g b => Sys2Proof.Machine.execWclose p g b s
  | .cbcfg p g b => Sys2Proof.Machine.execCbcfg p g b s
  | .cbpush p g b => Sys2Proof.Machine.execCbpush p g b s
  | .cbpop p g b => Sys2Proof.Machine.execCbpop p g b s
  | .cbaddr p g b => Sys2Proof.Machine.execCbaddr p g b s
  | .waitt p g b => Sys2Proof.Machine.execWaitt p g b s
  | .timeRelease p dt => Sys2Proof.Machine.execTimeRelease p dt s
  | .runAheadStart p => Sys2Proof.Machine.execRunAheadStart p s
  | .watchdogFire p dt => Sys2Proof.Machine.execWatchdogFire p dt s
  | .probe p alive => Sys2Proof.Machine.execProbe p alive s
  | .resume p => Sys2Proof.Machine.execResume p s
  | .step p => Sys2Proof.Machine.execStep p s
  | .halt p => Sys2Proof.Machine.execHalt p s
  | .coreNumSeedWrite p v => Sys2Proof.Machine.execCoreNumSeedWrite p v s
  | .winCfgWrite p n v => Sys2Proof.Machine.execWinCfgWrite p n v s
  | .bankPowerUp p on => Sys2Proof.Machine.execBankPowerUp p on s
  | .bankZeroFillDone p bank => Sys2Proof.Machine.execBankZeroFillDone p bank s
  | .scrubTick p upsets => Sys2Proof.Machine.execScrubTick p upsets s
  | .spRowRepair p bank row => Sys2Proof.Machine.execSpRowRepair p bank row s
  | .rdReq k => Sys2Proof.Machine.execRdReq k s
  | .rdRsp k => Sys2Proof.Machine.execRdRsp k s
  | .wr k => Sys2Proof.Machine.execWr k s
  | .ack p k => Sys2Proof.Machine.execAck p k s
  | .mcwPkt k => Sys2Proof.Machine.execMcwPkt k s
  | .token k => Sys2Proof.Machine.execToken k s
  | .credit k => Sys2Proof.Machine.execCredit k s
  | .retract k => Sys2Proof.Machine.execRetract k s
  | .hintPkt k => Sys2Proof.Machine.execHintPkt k s
  | .hintLineLapse site stripe dt => Sys2Proof.Machine.execHintLineLapse site stripe dt s
  | .done k => Sys2Proof.Machine.execDone k s
  | .abortEvent reason lost => Sys2Proof.Machine.execAbortEvent reason lost s
  | .stop p => Sys2Proof.Machine.execStop p s
  | .stopAck p => Sys2Proof.Machine.execStopAck p s
  | .quiesceLimit dt => Sys2Proof.Machine.execQuiesceLimit dt s
  | .passRecordPost => Sys2Proof.Machine.execPassRecordPost s
  | .launch p dt => Sys2Proof.Machine.execLaunch p dt s
  | .timedStart dt => Sys2Proof.Machine.execTimedStart dt s
  | .standaloneFlip dt => Sys2Proof.Machine.execStandaloneFlip dt s
  | .schedulerPick => Sys2Proof.Machine.execSchedulerPick s
  | .passTimeLimit dt => Sys2Proof.Machine.execPassTimeLimit dt s
  | .nextPassFill => Sys2Proof.Machine.execNextPassFill s
  | .mapChange => Sys2Proof.Machine.execMapChange s
  | .loadStart => Sys2Proof.Machine.execLoadStart s
  | .load seg => Sys2Proof.Machine.execLoad seg s
  | .loadComplete => Sys2Proof.Machine.execLoadComplete s
  | .hostSegmentFetch g seg r => Sys2Proof.Machine.execHostSegmentFetch g seg r s
  | .hintFill => Sys2Proof.Machine.execHintFill s
  | .pinLapse handle dt => Sys2Proof.Machine.execPinLapse handle dt s
  | .meshMessageLand id => Sys2Proof.Machine.execMeshMessageLand id s
  | .hopQueueFlush site => Sys2Proof.Machine.execHopQueueFlush site s
  | .meshLaneReplay site lane => Sys2Proof.Machine.execMeshLaneReplay site lane s
  | .meshLaneDead site lane => Sys2Proof.Machine.execMeshLaneDead site lane s
  | .routePacket n frame k => Sys2Proof.Machine.execRoutePacket n frame k s
  | .flitReplay n port => Sys2Proof.Machine.execFlitReplay n port s
  | .ringLinkDead n port => Sys2Proof.Machine.execRingLinkDead n port s
  | .linkLockLoss n port => Sys2Proof.Machine.execLinkLockLoss n port s
  | .linkIdleTimeout n port => Sys2Proof.Machine.execLinkIdleTimeout n port s
  | .combineTimeout n dt => Sys2Proof.Machine.execCombineTimeout n dt s
  | .drainStart v => Sys2Proof.Machine.execDrainStart v s
  | .drainLimit dt => Sys2Proof.Machine.execDrainLimit dt s
  | .beacon dt => Sys2Proof.Machine.execBeacon dt s
  | .beaconReceive n frame => Sys2Proof.Machine.execBeaconReceive n frame s
  | .syncLoss n => Sys2Proof.Machine.execSyncLoss n s
  | .timeStep v => Sys2Proof.Machine.execTimeStep v s
  | .referenceLoss n input => Sys2Proof.Machine.execReferenceLoss n input s
  | .inputQualified n input => Sys2Proof.Machine.execInputQualified n input s
  | .vcoLockFail n => Sys2Proof.Machine.execVcoLockFail n s
  | .aclkStep site => Sys2Proof.Machine.execAclkStep site s
  | .clockViolation site duty => Sys2Proof.Machine.execClockViolation site duty s
  | .safeClear site => Sys2Proof.Machine.execSafeClear site s
  | .droop site row => Sys2Proof.Machine.execDroop site row s
  | .droopRecovery site dt => Sys2Proof.Machine.execDroopRecovery site dt s
  | .efuseTrip region cause => Sys2Proof.Machine.execEfuseTrip region cause s
  | .connectorOpen n => Sys2Proof.Machine.execConnectorOpen n s
  | .connectorEstimate n microOhm centiAmp dt => Sys2Proof.Machine.execConnectorEstimate n microOhm centiAmp dt s
  | .allocationTick power rim planeMilliVolt dt => Sys2Proof.Machine.execAllocationTick power rim planeMilliVolt dt s
  | .capCompare site power below1ms => Sys2Proof.Machine.execCapCompare site power below1ms s
  | .panelClamp power => Sys2Proof.Machine.execPanelClamp power s
  | .phaseFail site phase => Sys2Proof.Machine.execPhaseFail site phase s
  | .ivrFail site ivr tieMax => Sys2Proof.Machine.execIvrFail site ivr tieMax s
  | .inrushGrant power => Sys2Proof.Machine.execInrushGrant power s
  | .inrushReevaluate power dt => Sys2Proof.Machine.execInrushReevaluate power dt s
  | .turnOnPhase m => Sys2Proof.Machine.execTurnOnPhase m s
  | .meadowPowerDown => Sys2Proof.Machine.execMeadowPowerDown s
  | .coreGate site v => Sys2Proof.Machine.execCoreGate site v s
  | .rimPowerLoss => Sys2Proof.Machine.execRimPowerLoss s
  | .coolantRead r dt => Sys2Proof.Machine.execCoolantRead r dt s
  | .flowLow dt => Sys2Proof.Machine.execFlowLow dt s
  | .coolLostClear dt => Sys2Proof.Machine.execCoolLostClear dt s
  | .sensorSample site k temp => Sys2Proof.Machine.execSensorSample site k temp s
  | .guardRelease site dt => Sys2Proof.Machine.execGuardRelease site dt s
  | .sensorDisagree site pair estimate => Sys2Proof.Machine.execSensorDisagree site pair estimate s
  | .thermalTick fc dt => Sys2Proof.Machine.execThermalTick fc dt s
  | .stackReadout site temp => Sys2Proof.Machine.execStackReadout site temp s
  | .thermtrip hbm source => Sys2Proof.Machine.execThermtrip hbm source s
  | .refresh site rfm bank => Sys2Proof.Machine.execRefresh site rfm bank s
  | .patrolScrub site upsets dt => Sys2Proof.Machine.execPatrolScrub site upsets dt s
  | .hbmRowRepair site unit resource => Sys2Proof.Machine.execHbmRowRepair site unit resource s
  | .stackFailed site => Sys2Proof.Machine.execStackFailed site s
  | .regionZeroFillDone site => Sys2Proof.Machine.execRegionZeroFillDone site s
  | .panelResetPin level => Sys2Proof.Machine.execPanelResetPin level s
  | .rimPowerGood => Sys2Proof.Machine.execRimPowerGood s
  | .bringupPhase f dt => Sys2Proof.Machine.execBringupPhase f dt s
  | .benchStep f dt => Sys2Proof.Machine.execBenchStep f dt s
  | .hbmTraining site rate laneRepairs => Sys2Proof.Machine.execHbmTraining site rate laneRepairs s
  | .go image => Sys2Proof.Machine.execGo image s
  | .mcWatchdogExpiry g b dt => Sys2Proof.Machine.execMcWatchdogExpiry g b dt s
  | .settControllerProbe site answered => Sys2Proof.Machine.execSettControllerProbe site answered s
  | .fwchunk site k => Sys2Proof.Machine.execFwchunk site k s
  | .repairRoundEnd dt => Sys2Proof.Machine.execRepairRoundEnd dt s
  | .flashWriteDone ok => Sys2Proof.Machine.execFlashWriteDone ok s
  | .holdBegin dt => Sys2Proof.Machine.execHoldBegin dt s
  | .activation dt => Sys2Proof.Machine.execActivation dt s
  | .icuClaim g b => Sys2Proof.Machine.execIcuClaim g b s
  | .icuComplete g b v => Sys2Proof.Machine.execIcuComplete g b v s
  | .icuSgi g v => Sys2Proof.Machine.execIcuSgi g v s
  | .gdis g v => Sys2Proof.Machine.execGdis g v s
  | .interruptEdge g n => Sys2Proof.Machine.execInterruptEdge g n s
  | .sqDoorbell port vf qp v => Sys2Proof.Machine.execSqDoorbell port vf qp v s
  | .cqDoorbell port vf qp v => Sys2Proof.Machine.execCqDoorbell port vf qp v s
  | .sqFetch port vf qp r => Sys2Proof.Machine.execSqFetch port vf qp r s
  | .cqPost port vf qp ok => Sys2Proof.Machine.execCqPost port vf qp ok s
  | .msixCoalesceTimeout port vf qp dt => Sys2Proof.Machine.execMsixCoalesceTimeout port vf qp dt s
  | .msixUnmask port vf vector => Sys2Proof.Machine.execMsixUnmask port vf vector s
  | .aqEnable port vf => Sys2Proof.Machine.execAqEnable port vf s
  | .perst port kind => Sys2Proof.Machine.execPerst port kind s
  | .flr port vf => Sys2Proof.Machine.execFlr port vf s
  | .dStateChange port vf d3hot => Sys2Proof.Machine.execDStateChange port vf d3hot s
  | .portLinkDown port up => Sys2Proof.Machine.execPortLinkDown port up s
  | .apertureAccess write off wide v => Sys2Proof.Machine.execApertureAccess write off wide v s
  | .mctpMessage type body => Sys2Proof.Machine.execMctpMessage type body s
  | .ctxOpen c => Sys2Proof.Machine.execCtxOpen c s
  | .ctxClose c => Sys2Proof.Machine.execCtxClose c s
  | .ctxAttach c => Sys2Proof.Machine.execCtxAttach c s
  | .ctxDetach c => Sys2Proof.Machine.execCtxDetach c s
  | .ctxSet c => Sys2Proof.Machine.execCtxSet c s
  | .qpCreate c => Sys2Proof.Machine.execQpCreate c s
  | .qpDelete c => Sys2Proof.Machine.execQpDelete c s
  | .vfQuota c => Sys2Proof.Machine.execVfQuota c s
  | .regionCreate c => Sys2Proof.Machine.execRegionCreate c s
  | .regionRemove c => Sys2Proof.Machine.execRegionRemove c s
  | .placeRegister c => Sys2Proof.Machine.execPlaceRegister c s
  | .placeUnregister c => Sys2Proof.Machine.execPlaceUnregister c s
  | .resLoad c => Sys2Proof.Machine.execResLoad c s
  | .resLoadHost c page => Sys2Proof.Machine.execResLoadHost c page s
  | .resRelease c => Sys2Proof.Machine.execResRelease c s
  | .resHint c => Sys2Proof.Machine.execResHint c s
  | .resPin c => Sys2Proof.Machine.execResPin c s
  | .passLaunch c => Sys2Proof.Machine.execPassLaunch c s
  | .abort c => Sys2Proof.Machine.execAbort c s
  | .memCopy c src => Sys2Proof.Machine.execMemCopy c src s
  | .drainCmd c => Sys2Proof.Machine.execDrainCmd c s
  | .fence c => Sys2Proof.Machine.execFence c s
  | .unfence c => Sys2Proof.Machine.execUnfence c s
  | .stateCopy c => Sys2Proof.Machine.execStateCopy c s
  | .stateCopyPairTimeout ctx dt => Sys2Proof.Machine.execStateCopyPairTimeout ctx dt s
  | .sourceLost ctx => Sys2Proof.Machine.execSourceLost ctx s
  | .shadow c => Sys2Proof.Machine.execShadow c s
  | .meadowPower c => Sys2Proof.Machine.execMeadowPower c s
  | .panelReset c => Sys2Proof.Machine.execPanelReset c s
  | .query c => Sys2Proof.Machine.execQuery c s
  | .fwUpdate c image => Sys2Proof.Machine.execFwUpdate c image s
  | .event k => Sys2Proof.Machine.execEvent k s
  | .new => Sys2Proof.Machine.execNew s
  | .unlockFull => Sys2Proof.Machine.execUnlockFull s
  | .provision => Sys2Proof.Machine.execProvision s
  | .claim => Sys2Proof.Machine.execClaim s
  | .keyAdd => Sys2Proof.Machine.execKeyAdd s
  | .keyRevoke => Sys2Proof.Machine.execKeyRevoke s
  | .svnCommit => Sys2Proof.Machine.execSvnCommit s
  | .retire => Sys2Proof.Machine.execRetire s
  | .listsClear => Sys2Proof.Machine.execListsClear s
  | .secDbgCtrlWrite v => Sys2Proof.Machine.execSecDbgCtrlWrite v s
  | .getVersion => Sys2Proof.Machine.execGetVersion s
  | .getCapabilities => Sys2Proof.Machine.execGetCapabilities s
  | .negotiateAlgorithms => Sys2Proof.Machine.execNegotiateAlgorithms s
  | .getDigests => Sys2Proof.Machine.execGetDigests s
  | .getCertificate off len => Sys2Proof.Machine.execGetCertificate off len s
  | .challenge nonce => Sys2Proof.Machine.execChallenge nonce s
  | .getMeasurements index nonce => Sys2Proof.Machine.execGetMeasurements index nonce s
  | .bypass => Sys2Proof.Machine.execBypass s
  | .idcode => Sys2Proof.Machine.execIdcode s
  | .secAccess write addr wide v => Sys2Proof.Machine.execSecAccess write addr wide v s
  | .extest => Sys2Proof.Machine.execExtest s
  | .tapDebugAccess write addr bytes data => Sys2Proof.Machine.execTapDebugAccess write addr bytes data s
  | .penletLinkTrain e lanes => Sys2Proof.Machine.execPenletLinkTrain e lanes s
  | .penletLinkLoss e lanes => Sys2Proof.Machine.execPenletLinkLoss e lanes s
  | .ident e f => Sys2Proof.Machine.execIdent e f s
  | .roster e f => Sys2Proof.Machine.execRoster e f s
  | .spanRecordRead r => Sys2Proof.Machine.execSpanRecordRead r s
  | .timeFrameSend dt => Sys2Proof.Machine.execTimeFrameSend dt s
  | .time e t agePs => Sys2Proof.Machine.execTime e t agePs s
  | .tsyncLoss dt => Sys2Proof.Machine.execTsyncLoss dt s
  | .heartbeatSend dt => Sys2Proof.Machine.execHeartbeatSend dt s
  | .heartbeat e f => Sys2Proof.Machine.execHeartbeat e f s
  | .unresponsive index dt => Sys2Proof.Machine.execUnresponsive index dt s
  | .data e f k => Sys2Proof.Machine.execData e f k s
  | .handoff => Sys2Proof.Machine.execHandoff s
  | .registerWrite t wide v => Sys2Proof.Machine.execRegisterWrite t wide v s
  | .idleProbe p alive => Sys2Proof.Machine.execIdleProbe p alive s
  | .coreReady p => Sys2Proof.Machine.execCoreReady p s
  | .hostCompletion port id o => Sys2Proof.Machine.execHostCompletion port id o s
  | .completionTimeout port id => Sys2Proof.Machine.execCompletionTimeout port id s
  | .handoffTimeout id dt => Sys2Proof.Machine.execHandoffTimeout id dt s
  | .penletFrameReplay e => Sys2Proof.Machine.execPenletFrameReplay e s
  | .retentionSoak group rows => Sys2Proof.Machine.execRetentionSoak group rows s
  | .restartComplete g b => Sys2Proof.Machine.execRestartComplete g b s
  | .vfEnable port enable => Sys2Proof.Machine.execVfEnable port enable s
  | .tapReset => Sys2Proof.Machine.execTapReset s

end Sys2Proof.Machine
end

