-- ==== Sys2Proof/Machine/Step.lean ====
section
/-! DEFINITION. One step of the block: the command at the front of the queue, or one TCLK cycle when nothing waits. -/

namespace Sys2Proof.Machine

/-- One TCLK cycle passes and nothing else happens: DESIGN CHOICE, log entry 2. -/
def idleTick (s : State) : State := { s with tclk := s.tclk + 1 }

/-- Takes the command at the front of the queue and runs it with the queue's rest; an idle block lets one TCLK cycle pass. -/
def step (s : State) : Host.Outcome State Fault Refusal :=
  match s.pending with
  | [] => .next (idleTick s)
  | c :: rest => exec c { s with pending := rest }

/-- The state with the command that a table word spells put at the front of its queue; unchanged where the word spells none. -/
def State.withFetchWord (s : State) (nbits w : Nat) : State :=
  match decodeTableWord nbits w with
  | some c => { s with pending := c :: s.pending }
  | none => s

end Sys2Proof.Machine
end

