-- ==== Sys2Proof/Machine/Outputs.lean ====
section
/-! DEFINITION. The output pins of the panel and the interrupt inputs of its management cores, as functions of the state (R394, R425, R468,
R471, R472). No command reads them. -/

namespace Sys2Proof.Machine

/-- PANEL_PWRGD: released high while the rim is powered (R468, R472). -/
def State.panelPwrgd (s : State) : Bool := s.pins.rimGood

/-- THERMTRIP_n asserted (R394, R468). -/
def State.thermtripAsserted (s : State) : Bool := s.pins.thermtrip && s.pins.rimGood

/-- Whether a cause bit of GAL_ALERT is set with its EN bit (R471). -/
def State.alertCause (s : State) : Bool := (fld s.alert 8 0 &&& fld s.alert 24 16) ≠ 0

/-- ALERT_n asserted (R471): by a cause once firmware has started, or by the boot ROM while it waits in recovery. -/
def State.alertAsserted (s : State) : Bool := s.pins.rimGood && s.pins.panelResetN && (s.boot.recovery || (decide (2 ≤ s.phase) && s.alertCause))

/-- The interrupt input of management core b of gallery g: it has a claimable source (R425). -/
def State.interruptInput (s : State) (g b : Nat) : Bool := ((s.gal g).best b).isSome

end Sys2Proof.Machine
end

