-- ==== Sys2Proof/Safety.lean ====
section
/-! DEFINITION. What counts as a safe run, the frames that statements use, and the premises that several statements share. -/

namespace Sys2Proof.Machine

/-- The outcome is a next state. -/
def answers (o : Host.Outcome State Fault Refusal) (t : State) : Prop := o = .next t

/-! ### Sequencer instructions (R156, R180) -/

/-- The sequencer of a core runs, outside run-ahead and debug, so that an instruction row issues at its PC. -/
def Core.plain (c : Core) : Prop :=
  c.seq.mode = .run ∧ c.seq.ra = none ∧ c.seq.haltReq = false ∧ c.seq.blocked = none ∧ c.seq.pc.toNat < 4095

/-- The guard of an instruction reads true in a core: p[GP] XOR GN (R180). -/
def Core.guarded (c : Core) (g : Guard) : Prop := (c.pred g.gp.toNat != g.gn) = true

/-- A core whose sequencer goes on at a PC: what retiring an instruction changes beside the instruction's own effect (R156). -/
def Core.wentTo (c : Core) (next : Nat) : Core :=
  { c with seq := { c.seq with pc := BitVec.ofNat 12 next, mode := .run, blocked := none } }

/-- A core whose sequencer goes on at the next instruction. -/
def Core.wentOn (c : Core) : Core := c.wentTo (c.seq.pc.toNat + 1)

/-- A core that an instruction has trapped for the first time since its trap state was cleared (R177). -/
def Core.trapped (c : Core) (cause addr : Nat) : Core :=
  { c with seq := { c.seq with trap := c.trapImage cause addr, mode := .trapped, blocked := none } }

/-- A core whose sequencer blocks on a wait at TCLK count `now` (R165). -/
def Core.waiting (c : Core) (m : SeqMode) (w now count : Nat) : Core :=
  { c with seq := { c.seq with mode := m, blocked := some { word := BitVec.ofNat 64 w, since := now, count := count, fires := 0 } } }

/-- The count operand of a counting instruction: K16, or s[rk] when KR is set (R204). -/
def Core.kField (c : Core) (b : BitVec 54) : Nat := if bit b 48 then (c.sreg (fld b 47 43)).toNat else fld b 42 27

/-- The field of the count form that is not used is 0 (R181, R204). -/
def kEncoded (b : BitVec 54) : Prop := if bit b 48 then fld b 42 27 = 0 else fld b 47 43 = 0

/-- A core with a new operation that has entered ranges of the scoreboard (R132). -/
def Core.entered (c : Core) (rs : List SbRange) : Core :=
  { c with units := { c.units with nextId := c.units.nextId + 1, sb := sbEnter c.units.sb c.units.nextId false rs } }

/-- The array can take an operation: it is legal, its ranges lie in the front slot's banks and meet no hazard, and the queue has room (R80,
R128, R132, R133, R157). -/
def Core.takesArr (c : Core) (plan : Option WsetTag) (k : ArrKind) (rs : List (List (Nat × Nat) × Bool)) : Prop :=
  arrRanges plan k = some rs ∧ (∀ x ∈ rs.flatMap Prod.fst, inPad x.1 x.2 = true ∧ c.ownOk x.1 x.2 = true) ∧ c.units.arrQ.length < 5
    ∧ sbReady c.units.sb (rs.flatMap fun r => hull r.1 r.2) = true

/-- A core whose array has taken an operation: its ranges are in the scoreboard, and it stands last in the queue with CORE_NUM_CTRL as it
is now (R80, R132, R189). -/
def Core.tookArr (c : Core) (k : ArrKind) (rs : List (List (Nat × Nat) × Bool)) : Core :=
  { c with units := { (c.entered (rs.flatMap fun r => hull r.1 r.2)).units with
      arrQ := c.units.arrQ ++ [{ id := c.units.nextId, kind := k, numCtrl := c.num.ctrl }] } }

/-- The core and the guard of a sequencer instruction. -/
def seqParts : Instr → Option (PCore × Guard)
  | .nop p g _ | .pdone p g _ | .brk p g _ | .seqFence p g _ | .aluR p g _ | .aluI p g _ | .lil p g _ | .lih p g _ | .ext p g _ | .dep p g _ => some (p, g)
  | .ld p g _ | .st p g _ | .rdreg p g _ | .wrreg p g _ | .rdtime p g _ | .rdlaunch p g _ | .movu p g _ | .rdid p g _ => some (p, g)
  | .j p g _ | .jal p g _ | .jr p g _ | .bcmp p g _ | .pset p g _ | .bsum p g _ | .psum p g _ | .plog p g _ => some (p, g)
  | .mmaOs p g _ | .mmaWs p g _ | .wload p g _ | .accLoad p g _ | .drain p g _ | .vchain p g _ | .fill p g _ | .copy p g _ => some (p, g)
  | .frd p g _ | .fwr p g _ | .mcw p g _ | .hint p g _ | .msend p g _ | .dwait p g _ | .twait p g _ | .cwait p g _ => some (p, g)
  | .tsend p g _ | .cret p g _ | .wopen p g _ | .wclose p g _ | .cbcfg p g _ | .cbpush p g _ | .cbpop p g _ | .cbaddr p g _ | .waitt p g _ => some (p, g)
  | _ => none

/-! ### Packets (R248 to R250) -/

/-- A well-formed packet of an opcode. -/
def isPacket (k : Packet) (opc : Nat) : Prop := k.opc.toNat = opc ∧ packetOk k = true

/-- A sump whose cells have no upset, no lost word and no retired row, and whose hint buffer is empty (R279, R283 to R285). -/
def Sump.clean (x : Sump) : Prop := x.errs = [] ∧ x.lost = [] ∧ x.retired = [] ∧ x.hints = []

/-! ### Commands of queues (R309, R313, R320) -/

/-- The turn of a command with an opcode has come, and no check stops it: `u` is the state in which it is carried out. -/
def State.turn (s : State) (c : Cmd) (op : Nat) (u : State) : Prop :=
  c.op = op ∧ s.host.toDo.find? (fun d => d.src = c.src) = some c ∧ s.fw.restarting = false ∧ (op = 1 → s.applying = false)
    ∧ s.ctxOk c = true ∧ s.unfenced c = true ∧ u = { s with host := { s.host with toDo := s.host.toDo.erase c } }

/-! ### What no command may undo (R429 to R431, R446) -/

/-- The security state in the panel's fuses and protected flash: ordering code, lifecycle, serial number, fleet keys, MIN_SVN, and the count of
unlocks (R410, R429 to R431). -/
structure Vault where
  part         : BitVec 2
  lifecycle    : BitVec 2
  serial       : BitVec 64
  fleetKey     : Tab (BitVec 512)
  fleetUsed    : BitVec 4
  fleetRevoked : BitVec 4
  minSvn       : BitVec 8
  fullCount    : BitVec 32
  identCert    : Bool

/-- The vault of the non-volatile state. -/
def NonVol.vault (n : NonVol) : Vault :=
  { part := n.part, lifecycle := n.lifecycle, serial := n.serial, fleetKey := n.fleetKey, fleetUsed := n.fleetUsed,
    fleetRevoked := n.fleetRevoked, minSvn := n.minSvn, fullCount := n.fullCount, identCert := n.identCert }

/-- A legal vault: before a fleet claims the panel no fleet slot is used or revoked, and MIN_SVN is at most 64. -/
def Vault.ok (v : Vault) : Prop := (v.lifecycle.toNat < 2 → v.fleetUsed = 0 ∧ v.fleetRevoked = 0) ∧ v.minSvn.toNat ≤ 64

/-- Vault `b` is `a`, moved forward: the part stays; the lifecycle and MIN_SVN do not fall; a revoked slot stays revoked, and a used slot keeps
its key. -/
structure Vault.Moved (a b : Vault) : Prop where
  part      : b.part = a.part
  serial    : b.serial = a.serial
  identCert : b.identCert = a.identCert
  lifecycle : a.lifecycle.toNat ≤ b.lifecycle.toNat
  minSvn    : a.minSvn.toNat ≤ b.minSvn.toNat
  revoked   : ∀ n < 4, bit a.fleetRevoked n = true → bit b.fleetRevoked n = true
  keys      : ∀ n < 4, bit a.fleetUsed n = true → bit b.fleetUsed n = true ∧ Tab.get 0 b.fleetKey n = Tab.get 0 a.fleetKey n

/-- What only few commands may touch: the commands that wait, and the vault. -/
structure Kept where
  pending : List Instr
  vault   : Vault

/-- The waiting commands and the vault of a state. -/
def State.kept (s : State) : Kept := { pending := s.pending, vault := s.nv.vault }

end Sys2Proof.Machine
end

