-- ==== Sys2Proof/Certificates/Slice0/Obligations.lean ====
section
/-! DEFINITION. The statements about the model. A statement on rows says what each row does where its conditions hold; an equation with
`.next` says that it completes. -/

open Sys2Proof Sys2Proof.Machine

/-- A step takes the command at the front of the queue and carries it out on the state with the queue's rest: for every command and every state the step
is that command's `exec` (the queue is the model's own: log entry 1). -/
def Obligations.StepRunsFrontCommand : Prop :=
  ∀ (c : Instr) (q : List Instr) (s : State), s.pending = c :: q → step s = exec c { s with pending := q }

/-- With nothing waiting, a step lets one TCLK cycle pass and changes nothing else (the model's choice: log entry 2). -/
def Obligations.IdleStepAdvancesOneCycle : Prop :=
  ∀ s : State, s.pending = [] → step s = .next { s with tclk := s.tclk + 1 }

/-- R156: a sequencer instruction whose guard reads false retires as a no-op, whatever the instruction and its operands: only the PC of its core
moves on; no scoreboard range is entered, nothing is waited for and nothing is sent. -/
def Obligations.FalseGuardOnlyAdvances : Prop :=
  ∀ (i : Instr) (p : PCore) (g : Guard) (s : State), seqParts i = some (p, g) →
    (s.core p.val).plain → ¬ (s.core p.val).guarded g → exec i s = .next (s.setCore p.val (s.core p.val).wentOn)

/-- R186, R187: the functions of the scalar ALU and the results of its rows; nothing but the destination register, the PC and the mode of that core
changes, and a write of s0 is discarded. An EXT or DEP whose field reaches beyond bit 63 traps. -/
def Obligations.ScalarAluResults : Prop :=
  (∀ a b : BitVec 64, aluFn 0x00 a b = some (a + b) ∧ aluFn 0x01 a b = some (a - b) ∧ aluFn 0x02 a b = some (a &&& b) ∧ aluFn 0x03 a b = some (a ||| b)
    ∧ aluFn 0x04 a b = some (a ^^^ b) ∧ aluFn 0x05 a b = some (a <<< (b.toNat % 64)) ∧ aluFn 0x06 a b = some (a >>> (b.toNat % 64))
    ∧ aluFn 0x07 a b = some (a.sshiftRight (b.toNat % 64)) ∧ aluFn 0x08 a b = some (a * b)
    ∧ aluFn 0x09 a b = some (BitVec.ofNat 64 (a.toNat * b.toNat / 2 ^ 64))
    ∧ aluFn 0x0A a b = some (if a.toInt < b.toInt then a else b) ∧ aluFn 0x0B a b = some (if a.toInt < b.toInt then b else a)
    ∧ aluFn 0x0C a b = some (if a.toNat < b.toNat then a else b) ∧ aluFn 0x0D a b = some (if a.toNat < b.toNat then b else a)
    ∧ aluFn 0x0E a b = some (if a.toInt < b.toInt then 1 else 0) ∧ aluFn 0x0F a b = some (if a.toNat < b.toNat then 1 else 0)
    ∧ aluFn 0x10 a b = some (if a = b then 1 else 0) ∧ aluFn 0x11 a b = some (a &&& ~~~b) ∧ ∀ fn, 0x11 < fn → aluFn fn a b = none)
  ∧ ∀ (s : State) (p : PCore) (g : Guard), (s.core p.val).plain → (s.core p.val).guarded g →
    (∀ (b : BitVec 54) (v : BitVec 64), fld b 32 0 = 0 →
      aluFn (fld b 53 48) ((s.core p.val).sreg (fld b 42 38)) ((s.core p.val).sreg (fld b 37 33)) = some v →
      exec (.aluR p g b) s = .next (s.setCore p.val ((s.core p.val).setSreg (fld b 47 43) v).wentOn))
    ∧ (∀ (b : BitVec 54) (v : BitVec 64), fld b 37 32 = 0 →
      aluFn (fld b 53 48) ((s.core p.val).sreg (fld b 42 38)) ((b.extractLsb' 0 32).signExtend 64) = some v →
      exec (.aluI p g b) s = .next (s.setCore p.val ((s.core p.val).setSreg (fld b 47 43) v).wentOn))
    ∧ (∀ b : BitVec 48, fld b 42 32 = 0 →
      exec (.lil p g b) s = .next (s.setCore p.val ((s.core p.val).setSreg (fld b 47 43) ((b.extractLsb' 0 32).signExtend 64)).wentOn))
    ∧ (∀ b : BitVec 48, fld b 42 32 = 0 →
      exec (.lih p g b) s = .next (s.setCore p.val ((s.core p.val).setSreg (fld b 47 43)
        (b.extractLsb' 0 32 ++ ((s.core p.val).sreg (fld b 47 43)).extractLsb' 0 32)).wentOn))
    ∧ (∀ b : BitVec 48, fld b 25 0 = 0 → fld b 37 32 + (fld b 31 26 + 1) ≤ 64 →
      exec (.ext p g b) s = .next (s.setCore p.val ((s.core p.val).setSreg (fld b 47 43)
        (((s.core p.val).sreg (fld b 42 38) >>> fld b 37 32) &&& BitVec.ofNat 64 (2 ^ (fld b 31 26 + 1) - 1))).wentOn))
    ∧ (∀ b : BitVec 48, fld b 25 0 = 0 → fld b 37 32 + (fld b 31 26 + 1) ≤ 64 →
      exec (.dep p g b) s = .next (s.setCore p.val ((s.core p.val).setSreg (fld b 47 43)
        (setFld ((s.core p.val).sreg (fld b 47 43)) (fld b 37 32 + fld b 31 26) (fld b 37 32) ((s.core p.val).sreg (fld b 42 38)).toNat)).wentOn))
    ∧ (∀ b : BitVec 48, 64 < fld b 37 32 + (fld b 31 26 + 1) → bit (s.core p.val).seq.trap 63 = false →
      exec (.ext p g b) s = .next (s.setCore p.val ((s.core p.val).trapped 1 0)) ∧ exec (.dep p g b) s = .next (s.setCore p.val ((s.core p.val).trapped 1 0)))

/-- R187, R189: results of the rows that read core state into a scalar register, and of WRREG once the array and the vector engine are idle. -/
def Obligations.CoreStateRows : Prop :=
  ∀ (s : State) (p : PCore) (g : Guard) (b : BitVec 50), (s.core p.val).plain → (s.core p.val).guarded g →
    (∀ (w : Nat) (v : BitVec 64) (d : Core), fld b 25 0 = 0 → fld b 44 42 = 0 → (s.core p.val).readReg s.full (fld b 41 26) = some (w, v, d) →
      exec (.rdreg p g b) s = .next (s.setCore p.val (d.setSreg (fld b 49 45) v).wentOn))
    ∧ (fld b 25 0 = 0 → fld b 44 42 = 0 → (s.core p.val).units.arrQ = [] → (s.core p.val).units.vecQ = [] →
      (fld b 41 26 = 0xC00 → exec (.wrreg p g b) s = .next (s.setCore p.val
        ({ s.core p.val with num := { (s.core p.val).num with ctrl := ((s.core p.val).sreg (fld b 49 45)).setWidth 32 &&& 0xF } } : Core).wentOn))
      ∧ (fld b 41 26 = 0xC04 → exec (.wrreg p g b) s = .next (s.setCore p.val
        ({ s.core p.val with num := { (s.core p.val).num with
            status := (s.core p.val).num.status &&& ~~~((s.core p.val).sreg (fld b 49 45)).setWidth 32 } } : Core).wentOn))
      ∧ (fld b 41 26 = 0xC08 → exec (.wrreg p g b) s = .next (s.setCore p.val
        ({ s.core p.val with num := { (s.core p.val).num with
            seed := ((s.core p.val).sreg (fld b 49 45)).setWidth 32, gens := [] } } : Core).wentOn)))
    ∧ (fld b 41 0 = 0 → fld b 44 42 = 0 →
      exec (.rdtime p g b) s = .next (s.setCore p.val ((s.core p.val).setSreg (fld b 49 45) (s.coreTime p.val)).wentOn)
      ∧ exec (.rdlaunch p g b) s = .next (s.setCore p.val ((s.core p.val).setSreg (fld b 49 45) (s.core p.val).seq.launchT).wentOn)
      ∧ ∀ l : Nat, s.logicalOf p.val = some l → exec (.rdid p g b) s = .next (s.setCore p.val ((s.core p.val).setSreg (fld b 49 45)
          (BitVec.ofNat 64 ((s.core p.val).seq.passNum.toNat * 2 ^ 32 + l))).wentOn))
    ∧ (fld b 41 0 = 0 → (s.core p.val).uPending (fld b 44 42) = false →
      exec (.movu p g b) s = .next (s.setCore p.val ((s.core p.val).setSreg (fld b 49 45) ((s.core p.val).ureg (fld b 44 42))).wentOn))

/-- R188: LD and ST address the byte offset s[ra] + IMM22 modulo 2^64. An access beyond 3 MiB is an ILLEGAL_INSTR trap, one outside the front slot's banks
BANK_ACCESS, a misaligned one MISALIGNED, and nothing but the trap state of the core changes; else, without a scoreboard hazard and a latent
memory error, LD reads the bytes, zero-extended or sign-extended, and ST writes the low bytes of its register, and nothing else. -/
def Obligations.ScalarMemoryAccess : Prop :=
  ∀ (s : State) (p : PCore) (g : Guard) (b : BitVec 54) (n a : Nat), (s.core p.val).plain → (s.core p.val).guarded g → fld b 18 0 = 0 →
    n = 2 ^ fld b 43 42 → a = (((s.core p.val).sreg (fld b 48 44)).toNat + fld b 40 19) % 2 ^ 64 →
    (a + n ≤ 0x300000 → (s.core p.val).ownOk a n = true → a % n = 0 → (s.core p.val).sp.errs = [] →
      (hazard (s.core p.val).units.sb a (a + n - 1) false = false →
        exec (.ld p g b) s = .next (s.setCore p.val ((s.core p.val).setSreg (fld b 53 49)
          (if bit b 41 then BitVec.ofInt 64 (sgn (8 * n) (leNat (Memory.read (s.core p.val).sp.mem a n)))
           else BitVec.ofNat 64 (leNat (Memory.read (s.core p.val).sp.mem a n)))).wentOn))
      ∧ (bit b 41 = false → hazard (s.core p.val).units.sb a (a + n - 1) true = false →
        exec (.st p g b) s = .next (s.setCore p.val ({ s.core p.val with sp := { (s.core p.val).sp with
          mem := Memory.write (s.core p.val).sp.mem a (leBytes n ((s.core p.val).sreg (fld b 53 49)).toNat) } } : Core).wentOn)))
    ∧ ∀ row : Instr, (row = .ld p g b ∨ (row = .st p g b ∧ bit b 41 = false)) → bit (s.core p.val).seq.trap 63 = false →
      (0x300000 < a + n → exec row s = .next (s.setCore p.val ((s.core p.val).trapped 1 0)))
      ∧ (a + n ≤ 0x300000 → (s.core p.val).ownOk a n = false → exec row s = .next (s.setCore p.val ((s.core p.val).trapped 2 a)))
      ∧ (a + n ≤ 0x300000 → (s.core p.val).ownOk a n = true → a % n ≠ 0 → exec row s = .next (s.setCore p.val ((s.core p.val).trapped 9 a)))

/-- R155, R190: jumps go to PC + OFF16, signed and counted in instructions, or to a register, JAL writes PC + 1, and a target outside 0 to
4,095 is a PC_RANGE trap.
R191, R192, R193: compares of scalar registers and of summary registers, as branches and into predicates, and predicate logic. A condition is
written as the model's `condScalar` and `condSummary`, which are none on an unassigned encoding. -/
def Obligations.BranchResults : Prop :=
  (∀ (s : State) (p : PCore) (g : Guard) (b : BitVec 48), (s.core p.val).plain → (s.core p.val).guarded g →
    (∀ t : Nat, t ≤ 4095 → (t : Int) = (s.core p.val).seq.pc.toNat + sgn 16 (fld b 15 0) → fld b 36 16 = 0 →
      (fld b 47 38 = 0 → exec (.j p g b) s = .next (s.setCore p.val ((s.core p.val).wentTo t)))
      ∧ (fld b 42 38 = 0 → exec (.jal p g b) s = .next (s.setCore p.val
          (((s.core p.val).setSreg (fld b 47 43) (BitVec.ofNat 64 ((s.core p.val).seq.pc.toNat + 1))).wentTo t))))
    ∧ (∀ t : Nat, t ≤ 4095 → ((s.core p.val).sreg (fld b 42 38)).toNat = t → fld b 36 0 = 0 → fld b 47 43 = 0 →
      exec (.jr p g b) s = .next (s.setCore p.val ((s.core p.val).wentTo t)))
    ∧ (∀ t : Int, t = (s.core p.val).seq.pc.toNat + sgn 16 (fld b 15 0) → (t < 0 ∨ 4095 < t) → fld b 36 16 = 0 → fld b 47 38 = 0 →
      bit (s.core p.val).seq.trap 63 = false →
      exec (.j p g b) s = .next (s.setCore p.val ({ s.core p.val with seq := { (s.core p.val).seq with
        trap := (s.core p.val).trapImage 8 0, mode := .trapped, blocked := none } } : Core))))
  ∧ (∀ (s : State) (p : PCore) (g : Guard) (b : BitVec 54), (s.core p.val).plain → (s.core p.val).guarded g →
    (∀ t : Nat, t ≤ 4095 → (t : Int) = (s.core p.val).seq.pc.toNat + sgn 16 (fld b 15 0) → fld b 18 16 = 0 →
      ((s.core p.val).condScalar b.toNat = some true → exec (.bcmp p g b) s = .next (s.setCore p.val ((s.core p.val).wentTo t)))
      ∧ ((s.core p.val).condScalar b.toNat = some false → exec (.bcmp p g b) s = .next (s.setCore p.val (s.core p.val).wentOn)))
    ∧ (∀ t : Nat, t ≤ 4095 → (t : Int) = (s.core p.val).seq.pc.toNat + sgn 16 (fld b 15 0) → fld b 19 16 = 0 →
      (s.core p.val).uPending (fld b 53 51) = false → ∀ r : Bool,
      condSummary ((s.core p.val).ureg (fld b 53 51)) (fld b 50 47) (bit b 41) (fld b 46 42) (fld b 39 20) (s.core p.val).sreg = some r →
      exec (.bsum p g b) s = .next (s.setCore p.val (if r then (s.core p.val).wentTo t else (s.core p.val).wentOn)))
    ∧ (∀ r : Bool, fld b 16 0 = 0 → fld b 19 17 ≠ 0 → (s.core p.val).condScalar (psetAsBcmp b.toNat) = some r →
      exec (.pset p g b) s = .next (s.setCore p.val ((s.core p.val).setPred (fld b 19 17) r).wentOn))
    ∧ (∀ r : Bool, fld b 16 0 = 0 → fld b 19 17 ≠ 0 → bit b 40 = false → (s.core p.val).uPending (fld b 53 51) = false →
      condSummary ((s.core p.val).ureg (fld b 53 51)) (fld b 50 47) (bit b 41) (fld b 46 42) (fld b 39 20) (s.core p.val).sreg = some r →
      exec (.psum p g b) s = .next (s.setCore p.val ((s.core p.val).setPred (fld b 19 17) r).wentOn))
    ∧ (∀ r : Bool, fld b 40 0 = 0 → fld b 49 47 ≠ 0 →
      plogFn (fld b 53 50) ((s.core p.val).pred (fld b 46 44)) ((s.core p.val).pred (fld b 43 41)) = some r →
      exec (.plog p g b) s = .next (s.setCore p.val ((s.core p.val).setPred (fld b 49 47) r).wentOn)))

/-- R41, R178, R211, R212: the system rows: NOP, PDONE with everything acknowledged (one done message to G0, and the sequencer halts), BREAK at
FULL and below it, and FENCE of units that are idle. -/
def Obligations.SystemRows : Prop :=
  ∀ (s : State) (p : PCore) (g : Guard), (s.core p.val).plain → (s.core p.val).guarded g →
    exec (.nop p g 0) s = .next (s.setCore p.val (s.core p.val).wentOn)
    ∧ (∀ l : Nat, s.logicalOf p.val = some l → (s.core p.val).units.arrQ = [] → (s.core p.val).units.vecQ = [] → (s.core p.val).units.fcQ = [] →
      (s.core p.val).units.busy = false → (s.core p.val).units.held = [] → (s.core p.val).seq.doneSent = false →
      exec (.pdone p g 0) s = .next ((s.setCore p.val ({ s.core p.val with seq := { (s.core p.val).seq with mode := .halted, doneSent := true } } : Core)).send
        [donePacket l (s.core p.val).seq.passNum]))
    ∧ (s.sec.level = 2 → exec (.brk p g 0) s = .next (s.setCore p.val ({ s.core p.val with seq := { (s.core p.val).seq with
        mode := .trapped, dbgHalted := true, trap := (s.core p.val).trapImage 10 0, pc := (s.core p.val).seq.pc + 1 } } : Core)))
    ∧ (s.sec.level ≠ 2 → bit (s.core p.val).seq.trap 63 = false →
      exec (.brk p g 0) s = .next (s.setCore p.val ({ s.core p.val with seq := { (s.core p.val).seq with
        trap := (s.core p.val).trapImage 1 0, mode := .trapped, blocked := none } } : Core)))
    ∧ (∀ b : BitVec 48, fld b 39 0 = 0 → fld b 47 44 = 0 → fld b 47 40 ≠ 0 →
      (bit b 40 = true → (s.core p.val).units.arrQ = []) → (bit b 41 = true → (s.core p.val).units.vecQ = []) →
      (bit b 42 = true → (s.core p.val).units.fcQ = []) →
      (bit b 43 = true → ∀ k < 8, fld (Tab.get 0 (s.core p.val).units.grps k) 4 0 = 0) →
      exec (.seqFence p g b) s = .next (s.setCore p.val (s.core p.val).wentOn))

/-- R160, R163, R204: TWAIT and CWAIT take K from the counter when it holds K, and block otherwise; the counter reads what is written and the
others keep theirs.
R203, R210: WAITT goes on once the core's panel time has reached s[ra] + IMM32, plus the launch time when REL; DWAIT goes on once no selected
group has a transfer outstanding, writes p[PD] with 1 exactly when none of them counts an error, and with CLR clears their counts and their last
status; a group that is not selected keeps its register; a GMASK of 0 traps. -/
def Obligations.CountingAndTimeWaits : Prop :=
  ((∀ (s : State) (p : PCore) (g : Guard) (b : BitVec 54) (n k : Nat), (s.core p.val).plain → (s.core p.val).guarded g → fld b 26 0 = 0 →
    n = fld b 53 49 → k = (s.core p.val).kField b → kEncoded b → 1 ≤ k → k ≤ 65535 →
    (k ≤ (s.core p.val).tokCount n → exec (.twait p g b) s = .next (s.setCore p.val
      ((s.core p.val).setTok n ((s.core p.val).tokCount n - k)).wentOn))
    ∧ ((s.core p.val).tokCount n < k → exec (.twait p g b) s = .next (s.setCore p.val
      ((s.core p.val).waiting .waitTok (seqWord 0x28 g b.toNat) s.tclk ((s.core p.val).tokCount n))))
    ∧ (k ≤ (s.core p.val).crdCount n → exec (.cwait p g b) s = .next (s.setCore p.val
      ((s.core p.val).setCrd n ((s.core p.val).crdCount n - k)).wentOn))
    ∧ ((s.core p.val).crdCount n < k → exec (.cwait p g b) s = .next (s.setCore p.val
      ((s.core p.val).waiting .waitCrd (seqWord 0x29 g b.toNat) s.tclk ((s.core p.val).crdCount n)))))
  ∧ (∀ (c : Core) (n m v : Nat), v ≤ 65535 →
    (c.setTok n v).tokCount m = (if m = n then v else c.tokCount m) ∧ (c.setCrd n v).crdCount m = (if m = n then v else c.crdCount m)
    ∧ (c.setTok n v).crdCount m = c.crdCount m ∧ (c.setCrd n v).tokCount m = c.tokCount m))
  ∧ (∀ (s : State) (p : PCore) (g : Guard) (b : BitVec 54), (s.core p.val).plain → (s.core p.val).guarded g →
    (∀ t : BitVec 64, fld b 15 0 = 0 → t = (s.core p.val).sreg (fld b 53 49) + BitVec.ofNat 64 (fld b 47 16)
        + (if bit b 48 then (s.core p.val).seq.launchT else 0) →
      (t ≤ s.coreTime p.val → exec (.waitt p g b) s = .next (s.setCore p.val (s.core p.val).wentOn))
      ∧ (s.coreTime p.val < t → exec (.waitt p g b) s = .next (s.setCore p.val
        ((s.core p.val).waiting .waitTime (seqWord 0x38 g b.toNat) s.tclk 0))))
    ∧ (fld b 41 0 = 0 → fld b 53 46 ≠ 0 →
      ((∀ k ∈ bitsOf 8 (fld b 53 46), fld (Tab.get 0 (s.core p.val).units.grps k) 4 0 = 0) →
        ∀ c : Core, c = (s.core p.val).setPred (fld b 44 42)
          ((bitsOf 8 (fld b 53 46)).all fun k => fld (Tab.get 0 (s.core p.val).units.grps k) 27 16 = 0) →
        (bit b 45 = false → exec (.dwait p g b) s = .next (s.setCore p.val c.wentOn))
        ∧ (bit b 45 = true → exec (.dwait p g b) s = .next (s.setCore p.val (Core.wentOn { c with units := { c.units with
            grps := (bitsOf 8 (fld b 53 46)).foldl (fun t k => Tab.mod 0 t k fun x => setFld x 63 16 0) c.units.grps } }))))
      ∧ ((∃ k ∈ bitsOf 8 (fld b 53 46), fld (Tab.get 0 (s.core p.val).units.grps k) 4 0 ≠ 0) →
        exec (.dwait p g b) s = .next (s.setCore p.val ((s.core p.val).waiting .waitOther (seqWord 0x25 g b.toNat) s.tclk 0))))
    ∧ (fld b 53 46 = 0 → bit (s.core p.val).seq.trap 63 = false → exec (.dwait p g b) s = .next (s.setCore p.val ((s.core p.val).trapped 1 0))))

/-- R143 to R145, R205 to R209: windows are opened with a pair of offsets and a filter and closed by mask; a circular buffer is configured, takes
an entry, gives K entries up, and says where an entry lies. -/
def Obligations.WindowAndBufferRows : Prop :=
  ∀ (s : State) (p : PCore) (g : Guard) (b : BitVec 54), (s.core p.val).plain → (s.core p.val).guarded g →
    (∀ lo hi : Nat, fld b 39 0 = 0 → (s.core p.val).sreg (fld b 49 45) = BitVec.ofNat 64 (hi * 2 ^ 22 + lo) → lo % 32 = 0 → hi % 32 = 0 →
      lo < hi → hi ≤ 0x300000 → (s.core p.val).ownOk lo (hi - lo) = true → fld ((s.core p.val).sreg (fld b 44 40)) 63 37 = 0 →
      fld ((s.core p.val).sreg (fld b 44 40)) 31 28 = 0 →
      exec (.wopen p g b) s = .next (s.setCore p.val
        ((s.core p.val).openWin (fld b 53 50) (winImage lo hi) ((s.core p.val).sreg (fld b 44 40))).wentOn))
    ∧ (fld b 37 0 = 0 → fld b 53 38 ≠ 0 → exec (.wclose p g b) s = .next (s.setCore p.val
      ((s.core p.val).closeWins (fld b 53 38)).wentOn))
    ∧ (∀ (x : BitVec 64) (n : Nat), fld b 43 0 = 0 → x = (s.core p.val).sreg (fld b 49 45) → n = fld b 53 50 → bit b 44 = true →
      bit x 63 = true → fld x 29 26 ≤ 12 → fld x 62 41 % 32 = 0 → (s.core p.val).ownOk (fld x 62 41) (cbDepth x * cbEntry x) = true →
      exec (.cbcfg p g b) s = .next (s.setCore p.val (Core.wentOn { s.core p.val with sp := { (s.core p.val).sp with
        cbPtr := Tab.erase (s.core p.val).sp.cbPtr n,
        cbCfg := Tab.set 0 (Tab.mod 0 (s.core p.val).sp.cbCfg n fun y => setBit y 63 false) n x } })))
    ∧ (∀ n : Nat, fld b 49 0 = 0 → n = fld b 53 50 → bit ((s.core p.val).cb n) 63 = true →
      ((s.core p.val).cbCount n < cbDepth ((s.core p.val).cb n) → exec (.cbpush p g b) s = .next (s.setCore p.val
        ((s.core p.val).setCb n ((s.core p.val).cbHead n) ((s.core p.val).cbTail n + 1)).wentOn))
      ∧ (cbDepth ((s.core p.val).cb n) ≤ (s.core p.val).cbCount n → exec (.cbpush p g b) s = .next (s.setCore p.val
        ((s.core p.val).waiting .waitCb (seqWord 0x31 g b.toNat) s.tclk ((s.core p.val).cbCount n)))))
    ∧ (∀ n k : Nat, fld b 30 0 = 0 → n = fld b 53 50 → bit ((s.core p.val).cb n) 63 = true → bit ((s.core p.val).cb n) 19 = false →
      k = (if bit b 49 then ((s.core p.val).sreg (fld b 48 44)).toNat else fld b 43 31) →
      (if bit b 49 then fld b 43 31 = 0 else fld b 48 44 = 0) → 1 ≤ k → k ≤ cbDepth ((s.core p.val).cb n) →
      (k ≤ (s.core p.val).cbCount n → exec (.cbpop p g b) s = .next (s.setCore p.val
        ((s.core p.val).setCb n ((s.core p.val).cbHead n + k) ((s.core p.val).cbTail n)).wentOn))
      ∧ ((s.core p.val).cbCount n < k → exec (.cbpop p g b) s = .next (s.setCore p.val
        ((s.core p.val).waiting .waitCb (seqWord 0x32 g b.toNat) s.tclk ((s.core p.val).cbCount n)))))
    ∧ (∀ n : Nat, fld b 31 0 = 0 → n = fld b 53 50 → bit ((s.core p.val).cb n) 63 = true →
      exec (.cbaddr p g b) s = .next (s.setCore p.val ((s.core p.val).setSreg (fld b 49 45) (BitVec.ofNat 64
        (fld ((s.core p.val).cb n) 62 41 + ((if bit b 44 then (s.core p.val).cbTail n else (s.core p.val).cbHead n) + fld b 43 32)
          % cbDepth ((s.core p.val).cb n) * cbEntry ((s.core p.val).cb n)))).wentOn))

/-- R161, R162, R200: TSEND and CRET to a core that exists and is not fenced make a transfer that joins its group; the packet leaves at once when no
write (TSEND) or no READ entry (CRET) of before is outstanding, and waits at the core otherwise. -/
def Obligations.CountingSends : Prop :=
  ∀ (s : State) (p : PCore) (g : Guard) (b : BitVec 54) (dest grp k q : Nat) (c : Core), (s.core p.val).plain → (s.core p.val).guarded g → fld b 3 0 = 0 →
    c = s.core p.val → c.units.held = [] →
    k = c.kField b → kEncoded b → 1 ≤ k → k ≤ 65535 → grp = fld b 6 4 →
    dest = (if bit b 26 then fld (c.sreg (fld b 25 21)) 13 0 else fld b 20 7) →
    (if bit b 26 then fld b 20 7 = 0 else fld b 25 21 = 0) → c.units.dmaRoom = true →
    s.coreAt dest = some q → (s.core q).fenced = false →
    ∀ (seq : BitVec 16) (x : Xfer) (mk : Nat → Packet) (d : XferKind → List HeldSend → Core),
      seq = Tab.get 0 c.units.seqNos ((srcCore dest).toNat * 256 + grp) →
      x = { Xfer.fresh c.units.nextId .tsend grp s.tclk with
              left := [{ node := srcCore dest, stream := BitVec.ofNat 8 grp, seq := seq, bytes := 0 }] } →
      mk = (fun opc => { corePacket s p.val c with
              seq := seq, stream := BitVec.ofNat 8 grp, didx := BitVec.ofNat 10 (dest / 64)
              opc := BitVec.ofNat 6 opc, daddr := padAddr dest 0, aux := BitVec.ofNat 48 (fld b 53 49 * 65536 + k) }) →
      d = (fun kind held => { c with units := { c.units with
              nextId := c.units.nextId + 1
              seqNos := Tab.mod 0 c.units.seqNos ((srcCore dest).toNat * 256 + grp) (· + 1)
              xfers := c.units.xfers ++ [{ x with kind := kind }]
              grps := Tab.mod 0 c.units.grps (BitVec.ofNat 3 grp).toNat (fun v => satFld v 4 0 1), held := held } }) →
      (c.units.writesOut = [] → exec (.tsend p g b) s = .next ((s.setCore p.val (d .tsend []).wentOn).send [mk 6]))
      ∧ (c.units.writesOut ≠ [] → exec (.tsend p g b) s = .next (s.setCore p.val
          (d .tsend [{ packet := mk 6, tid := some c.units.nextId, writes := c.units.writesOut, reads := [] }]).wentOn))
      ∧ (c.units.readsOut = [] → exec (.cret p g b) s = .next ((s.setCore p.val (d .cret []).wentOn).send [mk 7]))
      ∧ (c.units.readsOut ≠ [] → exec (.cret p g b) s = .next (s.setCore p.val
          (d .cret [{ packet := mk 7, tid := some c.units.nextId, writes := [], reads := c.units.readsOut }]).wentOn))

/-- R79, R80, R183, R194: the five array instructions, with their stream and pair words taken apart, put one operation into the array's queue;
WLOAD also records what the weight set will hold.
R121, R122, R139, R195, R196: VCHAIN reads the 192-byte descriptor and puts the chain into the vector engine's queue, started when the queue
is empty; FILL and COPY put one operation into the fill and copy unit's queue. -/
def Obligations.UnitIssueRows : Prop :=
  (∀ (s : State) (p : PCore) (g : Guard) (b : BitVec 54) (c : Core) (rs : List (List (Nat × Nat) × Bool)), (s.core p.val).plain →
    (s.core p.val).guarded g → c = s.core p.val →
    (∀ (x y : StreamWord) (sa sb md : Nat) (k : ArrKind), streamOf (c.sreg (fld b 33 29)) = some x → streamOf (c.sreg (fld b 28 24)) = some y →
      c.pairIf (typeMx x.type || typeMx y.type) (fld b 23 19) = some (sa, sb) → c.pairIf (bit b 12) (fld b 18 14) = some (md, 0) →
      fld b 10 0 = 0 → k = .mmaOs (fld b 53 46) (fld b 45 34 + 1) x y sa sb md (bit b 13) (bit b 12) (bit b 11) → c.takesArr none k rs →
      exec (.mmaOs p g b) s = .next (s.setCore p.val (c.tookArr k rs).wentOn))
    ∧ (∀ (x : StreamWord) (t : WsetTag) (sa z : Nat) (k : ArrKind), streamOf (c.sreg (fld b 33 29)) = some x → c.units.plan (bit b 34) = some t →
      c.pairIf (typeMx x.type || typeMx t.tb) (fld b 23 19) = some (sa, z) → fld b 10 0 = 0 → bit b 12 = false → fld b 18 14 = 0 →
      fld b 28 24 = 0 → k = .mmaWs (fld b 53 46) (fld b 45 35 + 1) (bit b 34) x sa (bit b 13) (bit b 11) →
      c.takesArr (some t) k rs → exec (.mmaWs p g b) s = .next (s.setCore p.val (c.tookArr k rs).wentOn))
    ∧ (∀ (x : StreamWord) (z sb md : Nat) (k : ArrKind) (d : Core), streamOf (c.sreg (fld b 28 24)) = some x →
      c.pairIf (typeMx x.type) (fld b 23 19) = some (z, sb) → c.pairIf (bit b 12) (fld b 18 14) = some (md, 0) → fld b 10 0 = 0 →
      bit b 13 = false → fld b 33 29 = 0 → fld b 53 35 = 0 → k = .wload (bit b 34) x sb md (bit b 12) (bit b 11) → c.takesArr none k rs →
      d = c.tookArr k rs →
      (bit b 34 = true → exec (.wload p g b) s = .next (s.setCore p.val (Core.wentOn { d with units := { d.units with
        plan1 := some { tb := x.type, sparse := bit b 12, halfk := bit b 11 } } })))
      ∧ (bit b 34 = false → exec (.wload p g b) s = .next (s.setCore p.val (Core.wentOn { d with units := { d.units with
        plan0 := some { tb := x.type, sparse := bit b 12, halfk := bit b 11 } } }))))
    ∧ (∀ (src stride : Nat) (k : ArrKind), pairOf (c.sreg (fld b 37 33)) = some (src, stride) → fld b 24 0 = 0 →
      (fld b 32 25 = 0 ∨ fld b 32 25 = 9) → k = .accLoad (fld b 53 46) (fld b 45 38 + 1) src stride → c.takesArr none k rs →
      exec (.accLoad p g b) s = .next (s.setCore p.val (c.tookArr k rs).wentOn))
    ∧ (∀ (dest stride ra rb : Nat) (k : ArrKind), pairOf (c.sreg (fld b 37 33)) = some (dest, stride) →
      c.pairIf (bit b 16 || bit b 15) (fld b 24 20) = some (ra, rb) → fld b 12 0 = 0 →
      k = .drain (fld b 53 46) (fld b 45 38 + 1) dest stride (BitVec.ofNat 8 (fld b 32 25)) (BitVec.ofNat 2 (fld b 19 18)) (bit b 17)
        (bit b 16) (bit b 15) (bit b 14) (bit b 13) ra rb → c.takesArr none k rs →
      exec (.drain p g b) s = .next (s.setCore p.val (c.tookArr k rs).wentOn)))
  ∧ (∀ (s : State) (p : PCore) (g : Guard) (b : BitVec 54) (c : Core), (s.core p.val).plain → (s.core p.val).guarded g → c = s.core p.val →
    (∀ (off : Nat) (bytes : List Byte), off = ((c.sreg (fld b 53 49)).toNat + fld b 48 27) % 2 ^ 64 → fld b 26 0 = 0 → off % 64 = 0 →
      off + 192 ≤ 0x300000 → c.ownOk off 192 = true → hazard c.units.sb off (off + 191) false = false → c.sp.errs = [] →
      bytes = Memory.read c.sp.mem off 192 → (vDesc bytes).ok = true →
      (∀ r ∈ ((vDesc bytes).ranges off).flatMap Prod.fst, c.ownOk r.1 r.2 = true) → (c.units.vecQ.filter fun h => !h.started).length < 2 →
      sbReady c.units.sb (((vDesc bytes).ranges off).flatMap fun r => hull r.1 r.2) = true →
      exec (.vchain p g b) s = .next (s.setCore p.val (Core.wentOn { c with units :=
        { (c.entered (((vDesc bytes).ranges off).flatMap fun r => hull r.1 r.2)).units with
          vecQ := c.units.vecQ ++ [{ id := c.units.nextId, desc := bytes, numCtrl := c.num.ctrl, started := c.units.vecQ.isEmpty, sumDone := false }] } })))
    ∧ (∀ dest len : Nat, dest = (c.sreg (fld b 53 49)).toNat → len = (c.sreg (fld b 48 44)).toNat → fld b 37 0 = 0 → c.fcOk dest len = true →
      c.units.fcQ.length < 5 → sbReady c.units.sb [(dest, dest + len - 1, true)] = true →
      exec (.fill p g b) s = .next (s.setCore p.val (Core.wentOn { c with units := { (c.entered [(dest, dest + len - 1, true)]).units with
        fcQ := c.units.fcQ ++ [{ id := c.units.nextId, copy := false, dest := dest, src := 0, len := len,
                                 pattern := c.sreg (fld b 43 39), spec := false }] } })))
    ∧ (∀ dest len src : Nat, dest = (c.sreg (fld b 53 49)).toNat → len = (c.sreg (fld b 48 44)).toNat → src = (c.sreg (fld b 43 39)).toNat →
      fld b 38 0 = 0 → c.fcOk dest len = true → c.fcOk src len = true → c.units.fcQ.length < 5 →
      sbReady c.units.sb [(src, src + len - 1, false), (dest, dest + len - 1, true)] = true →
      exec (.copy p g b) s = .next (s.setCore p.val (Core.wentOn { c with units :=
        { (c.entered [(src, src + len - 1, false), (dest, dest + len - 1, true)]).units with
          fcQ := c.units.fcQ ++ [{ id := c.units.nextId, copy := true, dest := dest, src := src, len := len, pattern := 0, spec := false }] } }))))

/-- R27, R197, R200, R249, R254: FRD, FWR and HINT send one packet for each piece of their transfer; FRD and FWR make a transfer that joins its
group with the pieces that await an answer, and an FRD writes zeros for a piece that cannot be sent. -/
def Obligations.FabricIssueRows : Prop :=
  ∀ (s : State) (p : PCore) (g : Guard) (b : BitVec 54) (c d : Core) (off addr n grp : Nat), (s.core p.val).plain → (s.core p.val).guarded g →
    c = s.core p.val → off = (c.sreg (fld b 53 49)).toNat → addr = (c.sreg (fld b 48 44)).toNat → n = (c.sreg (fld b 43 39)).toNat →
    grp = fld b 38 36 → addr < 2 ^ 48 →
    (∀ (r : Sent) (x : Xfer), addr % 8 = 0 → c.localOk 8 off n = true → c.ownOk off n = true → c.units.dmaRoom = true → fld b 34 0 = 0 →
      sbReady c.units.sb [(off, off + n - 1, true)] = true → d = c.entered [(off, off + n - 1, true)] →
      r = sendParts s d.units (corePacket s p.val d) grp (mkRead false) (partsOf addr off n) →
      x = { Xfer.fresh c.units.nextId .frd grp s.tclk with left := r.left, status := r.status, packets := r.out } →
      exec (.frd p g b) s = .next ((s.setCore p.val (Core.wentOn { d with
        units := r.units.addXfer x
        sp := (r.failed.map fun e => (e.1, List.replicate e.2 (0 : Byte))).foldl (fun sp z => sp.store z.1 z.2) d.sp })).send r.out))
    ∧ (∀ (r : Sent) (x : Xfer), addr % 8 = 0 → c.localOk 8 off n = true → c.ownOk off n = true → c.units.dmaRoom = true → fld b 35 0 = 0 →
      sbReady c.units.sb [(off, off + n - 1, false)] = true → c.sp.errs = [] → d = c.entered [(off, off + n - 1, false)] →
      r = sendParts s d.units (corePacket s p.val d) grp (mkWrite d.sp.mem) (partsOf addr off n) →
      x = { Xfer.fresh c.units.nextId .fwr grp s.tclk with left := r.left, status := r.status, packets := r.out } →
      exec (.fwr p g b) s = .next ((s.setCore p.val (Core.wentOn { d with units := r.units.addXfer x })).send r.out))
    ∧ (∀ r : Sent, fld b 34 0 = 0 → grp = 0 → fld b 53 49 = 0 → 1 ≤ n → n ≤ 0x1000000 → inHbm addr n = true →
      r = sendParts s c.units (corePacket s p.val c) 0 (mkHint false) (partsOf addr 0 n) →
      exec (.hint p g b) s = .next ((s.setCore p.val (Core.wentOn { c with units := r.units })).send r.out))
    ∧ (fld b 34 0 = 0 → grp = 0 → fld b 53 49 = 0 → 1 ≤ n → n ≤ 0x1000000 → inHbm addr n = false →
      exec (.hint p g b) s = .next (s.setCore p.val c.wentOn))

/-- R249, R271: the pieces of a transfer follow each other without a gap from its fabric address and its local offset on, are not empty, and
none of them crosses a 4 KiB boundary of the fabric address. -/
def Obligations.TransferPiecesCover : Prop :=
  ∀ addr off n : Nat, ((partsOf addr off n).map Part.len).sum = n
    ∧ (∀ e ∈ partsOf addr off n, 0 < e.len ∧ addr ≤ e.addr ∧ e.addr + e.len ≤ addr + n ∧ e.off = off + (e.addr - addr)
        ∧ e.addr / 4096 = (e.addr + e.len - 1) / 4096)
    ∧ ∀ (k : Nat) (e f : Part), (partsOf addr off n)[k]? = some e → (partsOf addr off n)[k + 1]? = some f → f.addr = e.addr + e.len

/-- R198, R199, R219, R263: MCW reads its 48-byte mask, roots one packet for each 4 KiB piece at the sender's own site, and counts the selected
setts that the shape lacks as pruned; MSEND puts one message of its flow on the mesh. -/
def Obligations.MulticastAndMeshIssue : Prop :=
  ∀ (s : State) (p : PCore) (g : Guard) (b : BitVec 54) (c d : Core) (off dest n grp : Nat), (s.core p.val).plain → (s.core p.val).guarded g →
    c = s.core p.val → off = (c.sreg (fld b 53 49)).toNat → dest = (c.sreg (fld b 48 44)).toNat → n = (c.sreg (fld b 43 39)).toNat →
    grp = fld b 38 36 → dest < 2 ^ 48 → dest % 32 = 0 → c.localOk 32 off n = true → c.ownOk off n = true → c.units.dmaRoom = true →
    c.sp.errs = [] → sbReady c.units.sb [(off, off + n - 1, false)] = true → d = c.entered [(off, off + n - 1, false)] → fld b 29 0 = 0 →
    (∀ (m mask sites absent cores : Nat) (r : CoreUnits × List Packet × List Piece) (v : CoreUnits), m = (c.sreg (fld b 34 30)).toNat → bit b 35 = false →
      m % 64 = 0 → m + 48 ≤ 0x300000 → c.ownOk m 48 = true → hazard c.units.sb m (m + 47) false = false →
      mask = leNat (Memory.read c.sp.mem m 48) → nfld mask 383 320 = 0 → (sites, absent) = s.siteMask (nfld mask 255 0) → sites ≠ 0 →
      cores = nfld mask 319 256 →
      r = sendMcw d.units (srcSett (siteOf p.val)) grp
        ((partsOf dest 0 n).map fun e => mkMcw d.sp.mem off (siteOf p.val) sites cores e (corePacket s p.val d)) →
      v = r.1.addXfer { Xfer.fresh c.units.nextId .mcw grp s.tclk with left := r.2.2, packets := r.2.1 } →
      exec (.mcw p g b) s = .next ((s.setCore p.val (Core.wentOn { d with units := { v with
        grps := Tab.mod 0 v.grps grp fun x => satFld x 63 48 (absent * popc 64 cores) } })).send r.2.1))
    ∧ (∀ (fl : BitVec 64) (e : Piece) (msg : MeshMsg), fl = c.flow (fld b 35 30) → bit fl 63 = true → fld fl 62 49 ≠ (s.logicalOf p.val).getD 0 →
      e = { node := srcCore (fld fl 62 49), stream := BitVec.ofNat 8 (248 + grp), seq := BitVec.ofNat 16 c.units.nextId, bytes := 0 } →
      msg = { id := c.units.nextId * 19584 + p.val, src := p.val, tid := c.units.nextId, grp := grp, flow := fld b 35 30,
              dest := BitVec.ofNat 14 (fld fl 62 49), off := dest, tag := c.seq.passNum.setWidth 4, data := Memory.read c.sp.mem off n } →
      exec (.msend p g b) s = .next { s.setCore p.val (Core.wentOn { d with
          units := d.units.addXfer { Xfer.fresh c.units.nextId .msend grp s.tclk with left := [e] } }) with mesh := s.mesh ++ [msg] })

/-- R134, R139, R140: FILL_COPY_COMPLETE runs the oldest fill or copy of a core whose scratchpad holds no latent error: the range takes the
repeated pattern, or the bytes of the source as they are before the first write, and the operation's scoreboard entries go.
R99, R134: ARRAY_OP_COMPLETE runs the oldest operation of the array's queue, whose scoreboard entries go; only that core changes, and the
count of lost ACLK cycles advances by a free value (log entry 38). -/
def Obligations.UnitsComplete : Prop :=
  (∀ (s : State) (p : PCore) (c : Core) (o : FcOp) (rest : List FcOp), c = s.core p.val → c.seq.blocked = none → c.units.held = [] → c.sp.errs = [] →
    c.units.fcQ = o :: rest → o.spec = false →
    (o.copy = false → exec (.fillCopyComplete p) s = .next (s.setCore p.val { c with
      sp := { c.sp with mem := Memory.write c.sp.mem o.dest (patternBytes o.pattern o.len) }
      units := { c.units with fcQ := rest, sb := sbRelease c.units.sb o.id } }))
    ∧ (o.copy = true → exec (.fillCopyComplete p) s = .next (s.setCore p.val { c with
      sp := { c.sp with mem := Memory.write c.sp.mem o.dest (Memory.read c.sp.mem o.src o.len) }
      units := { c.units with fcQ := rest, sb := sbRelease c.units.sb o.id } })))
  ∧ (∀ (s : State) (p : PCore) (c d : Core) (o : ArrOp) (rest : List ArrOp), c = s.core p.val → c.units.arrQ = o :: rest →
    Core.runArr { c with units := { c.units with arrQ := rest, arrStalls := c.units.arrStalls + s.fresh.1.setWidth 64 } } o = .ok d →
    d.seq.blocked = none → d.units.held = [] →
    ∃ t, exec (.arrayOpComplete p) s = .next t ∧ t = { s with cores := t.cores, free := s.free + 1 }
      ∧ t.core p.val = { d with units := { d.units with sb := sbRelease d.units.sb o.id } } ∧ ∀ q ≠ p.val, t.core q = s.core q)

/-- R116, R119, R121: the chains of the vector engine start in order, write their summary register once, and complete: their writes are made,
their tiles are counted, and their scoreboard entries go. -/
def Obligations.VectorChainRows : Prop :=
  ∀ (s : State) (p : PCore) (c : Core), c = s.core p.val → c.seq.blocked = none → c.seq.ra = none → c.units.held = [] →
    (∀ (l r : List Chain) (h : Chain), c.units.vecQ = l ++ h :: r → (∀ x ∈ l, x.started = true) → h.started = false →
      exec (.chainStart p) s = .next (s.setCore p.val { c with units := { c.units with vecQ := l ++ { h with started := true } :: r } }))
    ∧ (∀ (h : Chain) (r : List Chain), c.units.vecQ = h :: r → h.started = true → h.sumDone = false → (vDesc h.desc).sumk ≠ 0 →
      exec (.summaryWrite p) s = .next (s.setCore p.val { c with
        seq := { c.seq with uregs := Tab.set 0 c.seq.uregs (vDesc h.desc).ureg (c.chainSummary h) }
        units := { c.units with vecQ := { h with sumDone := true } :: r } }))
    ∧ (∀ (h : Chain) (rest : List Chain) (d : Core), c.units.vecQ = h :: rest → h.started = true → (h.sumDone = true ∨ (vDesc h.desc).sumk = 0) →
      Core.runChain { c with units := { c.units with vecQ := rest, vecStalls := c.units.vecStalls + s.fresh.1.setWidth 64 } } h = .ok d →
      d.seq.blocked = none → d.seq.ra = none → d.units.held = [] →
      ∃ t, exec (.chainComplete p) s = .next t ∧ t = { s with cores := t.cores, free := s.free + 1 }
        ∧ t.core p.val = { d with units := { d.units with sb := sbRelease d.units.sb h.id } } ∧ ∀ q ≠ p.val, t.core q = s.core q)

/-- R200 to R202: a transfer with nothing left completes with its status, one with packets outstanding ends with TIMEOUT once TIMEOUT_US have
passed since its issue; either way its group counts it, its scoreboard entries go, and an error is counted and recorded. -/
def Obligations.TransfersComplete : Prop :=
  ∀ (s : State) (p : PCore) (c : Core) (x : Xfer) (l r : List Xfer), c = s.core p.val → c.seq.blocked = none → c.units.held = [] →
    c.units.xfers = l ++ x :: r → (∀ y ∈ l ++ r, y.id ≠ x.id) → x.spec = false → x.cancelled = false → x.kind ≠ .hint →
    ∀ ended : BitVec 4 → Core, ended = (fun st => { c with units := (CoreUnits.complete { c.units with
        xfers := l ++ r, sb := sbRelease c.units.sb x.id } x.grp.toNat st x.delivered x.pruned) }) →
    (x.left = [] → exec (.transferComplete p x.id) s = .next (s.setCore p.val (ended x.status)))
    ∧ (∀ dt : Nat, x.left ≠ [] → x.issued + max 1 (fld c.units.dmaCfg 15 0) * 1000 ≤ s.tclk + dt →
        exec (.transferTimeout p x.id dt) s = .next ({ s with tclk := s.tclk + dt }.setCore p.val (ended 7)))

/-- R178, R179, R437: at FULL, HALT stops a running sequencer and asks a waiting one to stop when its instruction retires, RESUME lets a halted one
run again at its PC, and STEP of a halted one issues the instruction at PC (here one that retires without an effect) and halts again; below FULL all
three are ignored. An instruction row of a core whose sequencer does not run changes nothing (log entry 11). -/
def Obligations.DebugControlRows : Prop :=
  (∀ (i : Instr) (p : PCore) (g : Guard) (s : State), seqParts i = some (p, g) → (s.core p.val).seq.mode ≠ .run → exec i s = .next s)
  ∧ ∀ (s : State) (p : PCore) (c : Core), c = s.core p.val →
    (s.sec.level ≠ 2 → exec (.halt p) s = .next s ∧ exec (.resume p) s = .next s ∧ exec (.step p) s = .next s)
    ∧ (s.sec.level = 2 →
      (c.seq.mode = .run → exec (.halt p) s = .next (s.setCore p.val { c with seq := { c.seq with mode := .trapped, dbgHalted := true } }))
      ∧ (c.seq.mode = .waitTok → exec (.halt p) s = .next (s.setCore p.val { c with seq := { c.seq with haltReq := true } }))
      ∧ (c.seq.dbgHalted = true → exec (.resume p) s = .next (s.setCore p.val { c with seq := { c.seq with dbgHalted := false, mode := .run } }))
      ∧ (c.seq.dbgHalted = true → c.seq.ra = none → c.seq.pc.toNat < 4095 → c.fetch c.seq.pc.toNat = 0 →
        ∃ t, exec (.step p) s = .next t ∧ t = { s with cores := t.cores } ∧ (∀ q ≠ p.val, t.core q = s.core q)
          ∧ t.core p.val = { c with seq := { c.seq with pc := BitVec.ofNat 12 (c.seq.pc.toNat + 1), mode := .trapped, dbgHalted := true,
                                                        haltReq := false, blocked := none } }))

/-- R50, R52, R165: the watchdog of a core that has waited LIMIT_US for tokens, credits or a buffer without a change fires, and reports kind, index and
peer; a probe that finds the producer dead confirms it as lost, which aborts the pass, and the eighth firing without progress aborts it too; between
passes a dead core is fenced and waits for the next map change. -/
def Obligations.WatchdogAndProbeRows : Prop :=
  ∀ (s : State) (p : PCore) (c : Core), c = s.core p.val →
    (∀ (b : Blocked) (dt : Nat), c.seq.blocked = some b → c.seq.mode = .waitTok → nfld b.word.toNat 63 58 = 0x28 → bit c.seq.wdogCfg 31 = true →
      b.since + max 1 (fld c.seq.wdogCfg 15 0) * 1000 ≤ s.tclk + dt →
      ∀ n : Nat, n = nfld b.word.toNat 53 49 →
      exec (.watchdogFire p dt) s = .next ({ s with tclk := s.tclk + dt }.setCore p.val { c with seq := { c.seq with
        wdogStat := setFld (setFld (setFld (satFld c.seq.wdogStat 31 24 1) 23 22 0) 21 17 n) 13 0 (fld (Tab.get 0 c.seq.tok n) 55 42)
        blocked := some { b with since := s.tclk + dt, fires := b.fires + 1 } } }))
    ∧ (∀ b : Blocked, c.seq.blocked = some b → b.fires ≠ 0 →
      (∀ q : Nat, s.coreAt (fld c.seq.wdogStat 13 0) = some q → s.ledger.state = .ended → s.ledger.outcome = .aborted →
        ∃ t, exec (.probe p false) s = .next t ∧ (t.core q).fenced = true ∧ MapItem.deadCore q ∈ t.map.waiting
          ∧ t = { s with cores := t.cores, map := { s.map with waiting := t.map.waiting },
                         ledger := { s.ledger with lateAborts := satAdd s.ledger.lateAborts 1 } })
      ∧ (b.fires < 8 → exec (.probe p true) s = .next s)
      ∧ (8 ≤ b.fires → s.ledger.state = .idle →
        exec (.probe p true) s = .next { s with ledger := { s.ledger with lateAborts := satAdd s.ledger.lateAborts 1 } }))
    ∧ exec (.idleProbe p true) s = .next s
    ∧ (s.ledger.state = .idle → exec (.idleProbe p false) s = .next { s.setCore p.val { c with fenced := true } with
        map := { s.map with waiting := addOnce s.map.waiting (.deadCore p.val) } })

/-- R76, R143: a write of CORE_NUM_SEED discards the state of every generator; a write of CORE_WIN_CFG_n opens the window with its byte count 0 when
the range is allowed, traps when it is not, and closes it with OPEN = 0. -/
def Obligations.CoreRegisterWriteRows : Prop :=
  ∀ (s : State) (p : PCore) (c : Core), c = s.core p.val →
    (∀ v : BitVec 32, exec (.coreNumSeedWrite p v) s = .next (s.setCore p.val { c with num := { c.num with seed := v, gens := [] } }))
    ∧ (∀ (n : Fin 16) (v : BitVec 64),
      (bit v 63 = true → c.winOk (fld v 62 41) (fld v 40 19) = true → exec (.winCfgWrite p n v) s = .next (s.setCore p.val
        (c.openWin n.val (setFld v 18 0 0) (Tab.get 0 c.sp.winFilt n.val))))
      ∧ (bit v 63 = true → c.winOk (fld v 62 41) (fld v 40 19) = false → c.seq.ra = none → bit c.seq.trap 63 = false →
        exec (.winCfgWrite p n v) s = .next (s.setCore p.val (c.trapped 1 0)))
      ∧ (bit v 63 = false → exec (.winCfgWrite p n v) s = .next (s.setCore p.val
        { c with sp := { c.sp with winCfg := Tab.set 0 c.sp.winCfg n.val (setFld v 18 0 0) } })))

/-- R129, R130: a write of CORE_SP_PWR.ON leaves owned banks on, and the other banks that go off lose their contents; a bank that comes on is
zero-filled, after which its bytes read 0 and it is READY; no byte of another bank changes.
R150 to R152: a scrub step reads the next line of every READY bank, corrects the one single-bit error it meets, counts it, and goes on to the next
of 2,048 lines; a spall-listed row of an idle panel is repaired into one of the four spares of its bank. -/
def Obligations.ScratchpadCareRows : Prop :=
  (∀ (s : State) (p : PCore) (c : Core), c = s.core p.val →
    (∀ on now : BitVec 12, now = on ||| (c.sp.on &&& (c.sp.slot0 ||| c.sp.slot1)) →
      ∃ d : Core, exec (.bankPowerUp p on) s = .next (s.setCore p.val d) ∧ d = { c with sp := d.sp } ∧ d.sp.on = now
        ∧ d.sp.ready = c.sp.ready &&& now ∧ d.sp.zeroBusy = (c.sp.zeroBusy &&& now) ||| (now &&& ~~~c.sp.on)
        ∧ ∀ a : Nat, a < 0x300000 → Tab.get 0 d.sp.mem a
            = if bit (c.sp.on &&& ~~~now) (a / 0x40000) then 0 else Tab.get 0 c.sp.mem a)
    ∧ (∀ b : Fin 12, bit c.sp.zeroBusy b.val = true →
      ∃ d : Core, exec (.bankZeroFillDone p b) s = .next (s.setCore p.val d) ∧ d = { c with sp := d.sp, res0 := d.res0, res1 := d.res1 }
        ∧ d.sp.zeroBusy = setBit c.sp.zeroBusy b.val false ∧ d.sp.ready = setBit c.sp.ready b.val true
        ∧ ∀ a : Nat, Tab.get 0 d.sp.mem a = if a / 0x40000 = b.val then 0 else Tab.get 0 c.sp.mem a))
  ∧ (∀ (s : State) (p : PCore) (c : Core), c = s.core p.val →
    (bit c.sp.scrub 31 = true → c.sp.errs = [] → exec (.scrubTick p []) s = .next (s.setCore p.val
      { c with sp := { c.sp with scrubPos := (c.sp.scrubPos + 1) % 2048 } }))
    ∧ (∀ w : Nat, bit c.sp.scrub 31 = true → c.sp.errs = [(w, 1)] → w < 0x60000 → bit c.sp.ready (w / 0x8000) = true →
      w % 0x8000 / 16 = c.sp.scrubPos → c.sp.scrubPos < 2048 → Tab.get 0 c.sp.rowErrs (w / 128) < 15 →
      exec (.scrubTick p []) s = .next (s.setCore p.val { c with sp := { c.sp with
        errs := [], ecc := setFld (satFld c.sp.ecc 63 48 1) 21 0 (8 * w), rowErrs := Tab.mod 0 c.sp.rowErrs (w / 128) (· + 1)
        scrubPos := (c.sp.scrubPos + 1) % 2048 } }))
    ∧ (∀ (bank : Fin 12) (row : Fin 256) (k : Nat), k = bank.val * 256 + row.val → s.ledger.state = .idle → k ∈ c.sp.spall → c.sp.errs = [] →
      Tab.get 0 c.sp.spares bank.val < 4 → c.sp.retired.length ≤ 8 →
      exec (.spRowRepair p bank row) s = .next { s.setCore p.val { c with sp := { c.sp with
          spall := c.sp.spall.erase k, rowErrs := Tab.set 0 c.sp.rowErrs k 0, spares := Tab.mod 0 c.sp.spares bank.val (· + 1)
          repaired := addOnce c.sp.repaired k } } with nv := { s.nv with spRetired := addOnce s.nv.spRetired (p.val, k) } }))

/-- R167, R210: behind a wait for tokens, credits or a buffer, an enabled run-ahead follows the instructions after the wait as `Episode.run` says and
holds its actions; below that nothing happens. The time unit releases a WAITT whose time has come. -/
def Obligations.RunAheadAndTimeRelease : Prop :=
  ∀ (s : State) (p : PCore) (c : Core), c = s.core p.val →
    (∀ e : Episode, c.seq.mode = .waitTok → c.seq.ra = none → bit c.seq.raCfg 31 = true → c.seq.pc.toNat < 4095 →
      e = Episode.run s p.val (max 1 (min 64 (fld c.seq.raCfg 6 0)))
        { x := { core := { c with seq := { c.seq with pc := c.seq.pc + 1 } }, unk := [] }, branches := 0, log := [], path := [], out := [] } →
      exec (.runAheadStart p) s = .next ((s.setCore p.val { c with units := e.x.core.units, seq := { c.seq with
        raStat := satFld c.seq.raStat 63 48 1, ra := some { log := e.log, path := e.path } } }).send e.out))
    ∧ (bit c.seq.raCfg 31 = false → exec (.runAheadStart p) s = .next s)
    ∧ (∀ (b : Blocked) (g : Guard) (f : BitVec 54) (dt : Nat), c.seq.blocked = some b → c.seq.mode = .waitTime → c.seq.armed = false →
      c.seq.ra = none → c.seq.haltReq = false → c.seq.pc.toNat < 4095 → b.word.toNat = seqWord 0x38 g f.toNat → fld f 15 0 = 0 →
      (c.pred g.gp.toNat != g.gn) = true →
      c.sreg (fld f 53 49) + BitVec.ofNat 64 (fld f 47 16) + (if bit f 48 then c.seq.launchT else 0) ≤ State.coreTime { s with tclk := s.tclk + dt } p.val →
      exec (.timeRelease p dt) s = .next ({ s with tclk := s.tclk + dt }.setCore p.val c.wentOn))

/-- R42, R43: a done message of the present pass counts its core once; the one that brings DONE to EXPECT fixes COMPLETED with the panel time, ends the
pass and raises interrupt 592; any other done message is counted as stray.
R42 to R44: the first abort event of a running pass fixes ABORTED with its reason and the panel time, and starts the stop of every core that is not
pruned; one that comes after the outcome changes no outcome: it is counted, and marks a completed pass ABORT_LATE. -/
def Obligations.DoneAndAbortDecideTheOutcome : Prop :=
  (∀ (s : State) (k : Packet) (u : State), u = { s with flight := s.flight.erase k } →
    (k.pass = s.ledger.passNum → s.ledger.state ≠ .idle → s.ledger.doneSet.contains (k.src.toNat % 0x4000) = false →
      (s.ledger.doneSet.length + 1 < s.ledger.expect.toNat →
        exec (.done k) s = .next { u with ledger := { s.ledger with doneSet := s.ledger.doneSet ++ [k.src.toNat % 0x4000] } })
      ∧ (s.ledger.state = .running → s.ledger.expect.toNat ≤ s.ledger.doneSet.length + 1 →
        exec (.done k) s = .next (State.edge { u with ledger := { s.ledger with
          doneSet := s.ledger.doneSet ++ [k.src.toNat % 0x4000], outcome := .completed, tOutcome := s.g0Time, state := .ended } } 0 592)))
    ∧ (k.pass ≠ s.ledger.passNum → exec (.done k) s = .next { u with ledger := { s.ledger with strayDone := satAdd s.ledger.strayDone 1 } }))
  ∧ (∀ (s : State) (r : BitVec 8), r ≠ 2 → r ≠ 3 → 1 ≤ r.toNat → r.toNat ≤ 10 →
    ((s.ledger.state = .launching ∨ s.ledger.state = .running) → (∃ p ∈ s.ledger.parts, s.ledger.acked.contains p = false
        ∧ s.ledger.lost.contains p = false ∧ s.stopPruned p = false) →
      exec (.abortEvent r []) s = .next (State.edge { s with ledger := { s.ledger with
        outcome := .aborted, reason := r, tOutcome := s.g0Time, state := .quiescing, abortAt := s.tclk
        pruned := s.ledger.parts.filter s.stopPruned } } 0 592))
    ∧ (s.ledger.state = .ended → exec (.abortEvent r []) s = .next { s with ledger := { s.ledger with
        lateAborts := satAdd s.ledger.lateAborts 1, abortLate := s.ledger.abortLate || s.ledger.outcome = .completed } })
    ∧ (s.ledger.state = .idle → exec (.abortEvent r []) s = .next { s with ledger := { s.ledger with
        lateAborts := satAdd s.ledger.lateAborts 1 } }))

/-- R45, R138, R174: a stop ends issue, drops what waits in the units and closes all windows; a core whose units and scoreboard are empty
acknowledges and halts, and the last acknowledgement ends the pass.
R45: 500 µs after the abort the cores that have not acknowledged are lost and fenced, wait for the next map change, and the pass ends; nothing but
time passes before. -/
def Obligations.StopOfAnAbortedPass : Prop :=
  (∀ (s : State) (p : PCore) (c : Core), c = s.core p.val →
    (s.ledger.state = .quiescing → p.val ∈ s.ledger.parts → c.fenced = false → s.ledger.acked.contains p.val = false → c.seq.stopping = false →
      c.seq.ra = none → exec (.stop p) s = .next (s.setCore p.val (Core.closeWins { c with
        units := c.units.dropQueued
        seq := { c.seq with mode := .support, blocked := none, dbgHalted := false, haltReq := false, armed := false, stopping := true } } 0xFFFF)))
    ∧ (c.seq.stopping = true → c.units.arrQ = [] → c.units.vecQ = [] → c.units.fcQ = [] → c.units.sb = [] →
      ∃ t, exec (.stopAck p) s = .next t ∧ t = { s with cores := t.cores, ledger := t.ledger }
        ∧ t.cores = (s.setCore p.val { c with seq := { c.seq with stopping := false, mode := .halted } }).cores
        ∧ t.ledger = { s.ledger with acked := addOnce s.ledger.acked p.val, state := t.ledger.state }
        ∧ (s.ledger.state = .quiescing → (t.ledger.state = .ended ↔
            ∀ q ∈ s.ledger.parts, q = p.val ∨ q ∈ s.ledger.acked ∨ q ∈ s.ledger.lost ∨ q ∈ s.ledger.pruned))))
  ∧ (∀ (s : State) (dt : Nat), s.ledger.state = .quiescing →
    (s.tclk + dt < s.ledger.abortAt + 500000 → exec (.quiesceLimit dt) s = .next { s with tclk := s.tclk + dt })
    ∧ (s.ledger.abortAt + 500000 ≤ s.tclk + dt →
      ∃ t, exec (.quiesceLimit dt) s = .next t ∧ t.ledger.state = .ended ∧ t.ledger.outcome = s.ledger.outcome
        ∧ ∀ p ∈ s.ledger.parts, p ∉ s.ledger.acked → p ∉ s.ledger.lost → p ∉ s.ledger.pruned →
            p ∈ t.ledger.lost ∧ (t.core p).fenced = true ∧ MapItem.deadCore p ∈ t.map.waiting))

/-- R42, R48, R329: the record of an ended pass is posted, after which the ledger is IDLE and the scheduler charges from the pass's outcome on. -/
def Obligations.PassRecordPosted : Prop :=
  ∀ (s : State), s.ledger.state = .ended →
    ∃ t, exec .passRecordPost s = .next t ∧ t.ledger.state = .idle ∧ t.ledger.passNum = s.ledger.passNum ∧ t.ledger.outcome = s.ledger.outcome
      ∧ (∀ q, s.ledger.pass = some q → t.sched.lastOut = s.ledger.tOutcome) ∧ t.cores = s.cores ∧ t.setts = s.setts

/-- R35, R36, R38, R39: the LAUNCH of an untimed pass starts a participating core that has not started: it runs from PC 0 with the pass number and
launch time, and the ledger is RUNNING; a TIMED launch before its time arms the core, and the core starts once its time has come. -/
def Obligations.LaunchRows : Prop :=
  ∀ (s : State) (p : PCore) (dt : Nat) (c : Core), c = s.core p.val → p.val ∈ s.ledger.parts → c.fenced = false →
    s.ledger.state = .launching → s.ledger.flip = false → (∀ q, s.ledger.pass = some q → q.flip = false) →
    (c.seq.passNum ≠ s.ledger.passNum → s.ledger.timed = false →
      ∃ t, exec (.launch p dt) s = .next t ∧ t.ledger = { s.ledger with state := .running } ∧ (∀ q ≠ p.val, t.core q = s.core q)
        ∧ (t.core p.val).seq.passNum = s.ledger.passNum ∧ (t.core p.val).seq.launchT = s.ledger.tLaunch ∧ (t.core p.val).seq.pc = 0)
    ∧ (c.seq.passNum ≠ s.ledger.passNum → s.ledger.timed = true →
      (State.coreTime { s with tclk := s.tclk + dt } p.val).toNat < s.ledger.tLaunch.toNat →
      ∃ t, exec (.launch p dt) s = .next t ∧ t = { s with tclk := s.tclk + dt, cores := t.cores } ∧ (∀ q ≠ p.val, t.core q = s.core q)
        ∧ t.core p.val = { c with seq := { c.seq with passNum := s.ledger.passNum, launchT := s.ledger.tLaunch, armed := true, mode := .waitTime } })
    ∧ (s.ledger.parts = [p.val] → c.seq.armed = true → c.seq.launchT.toNat ≤ (State.coreTime { s with tclk := s.tclk + dt } p.val).toNat →
      ∃ t, exec (.timedStart dt) s = .next t ∧ t.ledger = { s.ledger with state := .running } ∧ (∀ q ≠ p.val, t.core q = s.core q)
        ∧ (t.core p.val).seq.pc = 0 ∧ (t.core p.val).seq.armed = false)

/-- R34, R46, R47: with one ready pass, an idle ledger and nothing held, a pick takes it out of the queue and launches it under the next pass number;
a running pass ends with TIME_LIMIT once its limit has passed.
R242, R243, R49: the standalone flip waits for its time and then makes the back placement front and launches; a hint is followed when the
loader is free; a pin lapses 100 ms after it was set; NEXT_PASS_FILL does nothing while no pass runs. -/
def Obligations.PickingAndFilling : Prop :=
  ((∀ (s : State) (dt : Nat), s.ledger.state = .running →
    ((State.g0Time { s with tclk := s.tclk + dt }).toNat < s.ledger.tLaunch.toNat + s.ledger.limitMs.toNat * 1000000 →
      exec (.passTimeLimit dt) s = .next { s with tclk := s.tclk + dt })
    ∧ (s.ledger.tLaunch.toNat + s.ledger.limitMs.toNat * 1000000 ≤ (State.g0Time { s with tclk := s.tclk + dt }).toNat →
      (∃ p ∈ s.ledger.parts, s.ledger.acked.contains p = false ∧ s.ledger.lost.contains p = false ∧ s.stopPruned p = false) →
      exec (.passTimeLimit dt) s = .next (State.edge { s with tclk := s.tclk + dt, ledger := { s.ledger with
        outcome := .aborted, reason := 7, tOutcome := State.g0Time { s with tclk := s.tclk + dt }, state := .quiescing, abortAt := s.tclk + dt
        pruned := s.ledger.parts.filter s.stopPruned } } 0 592)))
  ∧ (∀ (s u : State) (x : Picked) (ps : List Nat), s.ledger.state = .idle → s.launchHeld = false → s.sched.picked = some x → x.flipT = none →
    s.refusal x.pass = none → s.isStale x.pass.handle.toNat = false → s.resident x.pass.handle.toNat = true →
    ps = s.physOf (s.entry x.pass.handle.toNat).cores → u = s.ungate ps → u.coresReady ps = true → x.pass.flip = false →
    u.inBack x.pass.handle.toNat = false → x.pass.timed = false →
    exec .schedulerPick s = .next (u.launchNow x (BitVec.ofNat 64 u.g0Time.toNat)))
  ∧ (∀ s : State, s.ledger.state ≠ .idle → exec .schedulerPick s = .next s)
  ∧ (∀ (s : State) (x : Picked) (v : BitVec 64), (s.launchNow x v).ledger.state = .launching
    ∧ (s.launchNow x v).ledger.passNum = (if s.ledger.passNum = 0xFFFFFFFF then 1 else s.ledger.passNum + 1)
    ∧ (s.launchNow x v).ledger.tLaunch = v ∧ (s.launchNow x v).sched.picked = none))
  ∧ ((∀ (s : State) (dt : Nat) (x : Picked) (v : BitVec 64), s.sched.picked = some x → x.flipT = some v → s.ledger.state = .idle →
    (State.g0Time { s with tclk := s.tclk + dt } < v → exec (.standaloneFlip dt) s = .next { s with tclk := s.tclk + dt })
    ∧ (v ≤ State.g0Time { s with tclk := s.tclk + dt } → x.pass.timed = false → exec (.standaloneFlip dt) s = .next
      ((State.flipTo { s with tclk := s.tclk + dt } x.pass.handle.toNat).launchNow { x with flipT := none }
        (State.flipTo { s with tclk := s.tclk + dt } x.pass.handle.toNat).g0Time)))
  ∧ (∀ (s : State) (h : Nat), s.fill.queue = [] → s.fill.running = none → s.hintWanted = some h →
    exec .hintFill s = .next { s with fill := { s.fill with
      queue := [{ handle := BitVec.ofNat 19 h, host := none, cmds := [], sched := false }] } })
  ∧ (∀ (s : State) (n : Nat) (c : Ctx) (h : BitVec 19) (dt : Nat), s.openCtxs = [n] → s.ctx n = some c → c.pin = some h →
    (s.tclk + dt < c.pinAt + 100000000 → exec (.pinLapse h dt) s = .next { s with tclk := s.tclk + dt })
    ∧ (c.pinAt + 100000000 ≤ s.tclk + dt → exec (.pinLapse h dt) s = .next
      ((State.setCtx { s with tclk := s.tclk + dt } n (some { c with pin := none })).modEntry h.toNat fun e => { e with pinned := false })))
  ∧ (∀ s : State, s.ledger.state = .idle → exec .nextPassFill s = .next s)
  ∧ (∀ (s : State) (q : QPass) (t : State), s.ledger.state = .running → s.nextPass = some q →
    t = State.ungate { s with sched := { s.sched with chosen := some q.handle } } (s.physOf (s.entry q.handle.toNat).cores) →
    s.resident q.handle.toNat = true → s.isStale q.handle.toNat = false → exec .nextPassFill s = .next t))

/-- R20, R21, R380, R408: a map change waits for the pass under way; else what waits applies at once, the generation advances by one, and the lists that
the next bring-up starts from hold it. CORE_READY sets the READY bit of an ungated core. -/
def Obligations.MapChangeRows : Prop :=
  (∀ s : State, s.power.jobs = [] → (s.ledger.state ≠ .idle ∨ s.map.waiting = [] ∨ s.map.published = false) → exec .mapChange s = .next s)
  ∧ (∀ s : State, s.ledger.state = .idle → s.map.waiting ≠ [] → s.map.published = true →
    ∃ t, exec .mapChange s = .next t ∧ t.map.gen = s.map.gen + 1 ∧ t.map.waiting = [] ∧ t.map.published = true ∧ t.ledger = s.ledger
      ∧ (∀ k, MapItem.deadSite k ∈ s.map.waiting → k ∈ t.nv.deadSites) ∧ (∀ p, MapItem.deadCore p ∈ s.map.waiting → p ∈ t.nv.deadCores)
      ∧ (∀ k ∈ s.nv.deadSites, k ∈ t.nv.deadSites) ∧ ∀ p ∈ s.nv.deadCores, p ∈ t.nv.deadCores)
  ∧ (∀ (s : State) (p : PCore), s.sched.picked = none →
    (bit (s.sett (siteOf p.val)).gate (s.gateBit p.val) = false → exec (.coreReady p) s = .next
      (s.setSett (siteOf p.val) { s.sett (siteOf p.val) with coreReady := setBit (s.sett (siteOf p.val)).coreReady (s.gateBit p.val) true }))
    ∧ (bit (s.sett (siteOf p.val)).gate (s.gateBit p.val) = true → exec (.coreReady p) s = .next s))

/-- R249, R274 to R280: at a READY stack a read or write that no region admits is refused and counted; one that is admitted, or comes as SYS, reads
or stores the bytes at its stack offset and is answered. A hint stages its stripes, one that nothing reads lapses after 100 µs, and a retract
drops what it names. -/
def Obligations.PacketsAtStacks : Prop :=
  (∀ (s u : State) (k : Packet) (i off : Nat) (x : Sump), u = s.take k → x = u.sump i → x.ready = true → decodeAddr k.daddr.toNat = .hbm i off →
    (isPacket k 1 → k.sclass ≠ 4 → x.admits k.ctx.toNat off k.len.toNat false = false →
      exec (.rdReq k) s = .next ((u.setSump i (x.refuse k.sclass k.ctx.toNat)).send
        [readAnswer k (u.answerSrc k) (answerCls (u.answerSrc k)) stRegion []]))
    ∧ (isPacket k 1 → (k.sclass = 4 ∨ x.admits k.ctx.toNat off k.len.toNat false = true) → x.clean →
      exec (.rdReq k) s = .next ((u.setSump i x).send
        [readAnswer k (u.answerSrc k) (answerCls (u.answerSrc k)) stOk (Memory.read x.mem off k.len.toNat)]))
    ∧ (isPacket k 3 → k.sclass ≠ 4 → x.admits k.ctx.toNat off (payloadOf k).length true = false →
      exec (.wr k) s = .next ((u.setSump i (x.refuse k.sclass k.ctx.toNat)).send [ackOf k (u.answerSrc k) (answerCls (u.answerSrc k)) stRegion]))
    ∧ (isPacket k 3 → (k.sclass = 4 ∨ x.admits k.ctx.toNat off (payloadOf k).length true = true) → x.clean →
      exec (.wr k) s = .next ((u.setSump i { x with mem := Memory.write x.mem off (payloadOf k) }).send
        [ackOf k (u.answerSrc k) (answerCls (u.answerSrc k)) stOk])))
  ∧ (∀ (s u : State) (k : Packet) (i : Nat) (x : Sump), u = s.take k → x = u.sump i → x.ready = true → i < 32 → k.didx.toNat = 256 + i →
    (isPacket k 9 → k.sclass ≠ 4 → (∃ e ∈ hintStripes k i, x.admits k.ctx.toNat e.1 e.2 false = false) →
      exec (.hintPkt k) s = .next (u.setSump i (x.refuse k.sclass k.ctx.toNat)))
    ∧ (isPacket k 9 → (∀ e ∈ hintStripes k i, x.admits k.ctx.toNat e.1 e.2 false = true) →
      exec (.hintPkt k) s = .next (u.setSump i ((hintStripes k i).foldl (fun y e => y.stage u.tclk (e.1 / 4096) k.src k.seq) x)))
    ∧ (isPacket k 8 → u.flight = [] → exec (.retract k) s = .next (u.setSump i (x.retract k.src k.seq (nfld k.aux.toNat 15 0))))
    ∧ (∀ q, isPacket k 8 → u.flight = [q] → retracts k q 1 = true →
      exec (.retract k) s = .next ((State.send { u with flight := [] } [readAnswer q (u.answerSrc q) (answerCls (u.answerSrc q)) stRetracted []]).setSump i
        (x.retract k.src k.seq (nfld k.aux.toNat 15 0)))))
  ∧ ∀ (s : State) (i : Stack) (dt : Nat) (l : HintLine), (s.sump i.val).hints = [l] → l.taken = false →
    (l.staged + 100000 ≤ s.tclk + dt → exec (.hintLineLapse i l.stripe dt) s = .next ((s.pass dt).modSump i.val fun x =>
      { x with hints := [], hintStat := satFld x.hintStat 47 32 1 }))
    ∧ (s.tclk + dt < l.staged + 100000 → exec (.hintLineLapse i l.stripe dt) s = .next ((s.pass dt).modSump i.val id))

/-- R134, R141, R163, R249, R253: at a live core a read of front banks is answered with their bytes; a write runs its window check; a read answer
lands in the scratchpad of the transfer that waits for it; an acknowledgement takes its piece off the transfer; tokens and credits add to
their counters. A fenced core answers DEST_ABSENT. -/
def Obligations.PacketsAtCores : Prop :=
  (∀ (s u : State) (k : Packet) (l off p : Nat) (c : Core) (a : BitVec 4 → Packet), u = s.take k → c = u.core p → u.liveCore l = some p →
    decodeAddr k.daddr.toNat = .pad l off → a = ackOf k (srcCore l) (answerCls (srcCore l)) → k.mcx = none →
    (c.fenced = true → (isPacket k 1 → exec (.rdReq k) s = .next (u.send [readAnswer k (srcCore l) (answerCls (srcCore l)) stAbsent []]))
      ∧ (isPacket k 3 → exec (.wr k) s = .next (u.send [a stAbsent])) ∧ (isPacket k 6 → exec (.token k) s = .next (u.send [a stAbsent]))
      ∧ (isPacket k 7 → exec (.credit k) s = .next (u.send [a stAbsent])))
    ∧ (c.fenced = false → (isPacket k 1 → c.ownOk off k.len.toNat = true → c.sp.errs = [] →
        exec (.rdReq k) s = .next ((u.setCore p c).send [readAnswer k (srcCore l) (answerCls (srcCore l)) stOk (Memory.read c.sp.mem off k.len.toNat)]))
      ∧ (isPacket k 3 → c.seq.blocked = none → (c.remoteWrite k.sclass.toNat (k.src.toNat % 0x4000) off (payloadOf k)).2 = stWindow →
        exec (.wr k) s = .next ((u.setCore p (c.remoteWrite k.sclass.toNat (k.src.toNat % 0x4000) off (payloadOf k)).1).send [a stWindow]))
      ∧ (isPacket k 3 → c.seq.blocked = none → (c.remoteWrite k.sclass.toNat (k.src.toNat % 0x4000) off (payloadOf k)).2 = stOk →
        exec (.wr k) s = .next ((u.setCore p ((c.remoteWrite k.sclass.toNat (k.src.toNat % 0x4000) off (payloadOf k)).1.ringCount k.stream
          (payloadOf k).length)).send [a stOk]))
      ∧ (isPacket k 6 → c.seq.blocked = none → c.cbForTok (nfld k.aux.toNat 20 16) = none →
        c.tokCount (nfld k.aux.toNat 20 16) + nfld k.aux.toNat 15 0 ≤ 65535 → exec (.token k) s = .next
          ((u.setCore p (c.setTok (nfld k.aux.toNat 20 16) (c.tokCount (nfld k.aux.toNat 20 16) + nfld k.aux.toNat 15 0))).send [a stOk]))
      ∧ (isPacket k 7 → c.seq.blocked = none → c.crdCount (nfld k.aux.toNat 20 16) + nfld k.aux.toNat 15 0 ≤ c.crdLimit (nfld k.aux.toNat 20 16) →
        exec (.credit k) s = .next
          ((u.setCore p (c.setCrd (nfld k.aux.toNat 20 16) (c.crdCount (nfld k.aux.toNat 20 16) + nfld k.aux.toNat 15 0))).send [a stOk]))))
  ∧ (∀ (s u : State) (k : Packet) (l off p : Nat) (c : Core) (x : Xfer) (e : Piece), u = s.take k → c = u.core p → u.liveCore l = some p →
    decodeAddr k.daddr.toNat = .pad l off → isPacket k 2 → ¬ (k.stream = streamTap ∧ k.src.toNat / 0x1000 = 5) →
    ¬ (288 ≤ k.didx.toNat ∧ k.didx.toNat < 292) → c.seq.blocked = none → c.units.xfers = [x] → x.kind = .frd → x.spec = false → x.cancelled = false →
    x.left = [e] → e.hits k = true → k.status = stOk → k.data ≠ [] → c.sp.errs = [] → e.bytes ≤ k.data.length →
    exec (.rdRsp k) s = .next (u.setCore p
      { Core.ringCount { c with units := { c.units with xfers := [{ x with left := [] }] } } k.stream k.data.length with
        sp := { c.sp with mem := Memory.write c.sp.mem (k.daddr.toNat % 0x400000) k.data } }))
  ∧ (∀ (s u : State) (k : Packet) (p : PCore) (c : Core) (x : Xfer) (e : Piece), u = s.take k → c = u.core p.val → isPacket k 4 → c.seq.blocked = none →
    c.units.held = [] → c.units.xfers = [x] → x.kind = .fwr → x.left = [e] → e.hits k = true → nfld k.aux.toNat 47 32 = 1 →
    exec (.ack (some p) k) s = .next (u.setCore p.val { c with units := { c.units with xfers := [{ x with
      left := [], status := firstBad x.status k.status, delivered := 0, pruned := 0 }] } }))
  ∧ ∀ (s u : State) (k : Packet) (m : McExt) (i n p : Nat) (r : State × BitVec 4) (e : Combine) (h : Node), u = s.take k → isPacket k 5 → k.mcx = some m →
    k.didx ≠ m.root → i < 272 → k.didx.toNat = 320 + i → u.sitePowered i = true → m.sctl = false → bitsOf 64 m.cores.toNat = [n] →
    ((u.settAt i).bind fun sid => u.coreAt (64 * sid + n)) = some p → (u.core p).fenced = false →
    r = u.writeCorePad p k (k.daddr.toNat % 0x400000) → h = holderOf (rootNode m.root.toNat) i →
    (r.1.router h).combine.find? (fun z => z.of k.src k.stream k.seq) = some e → 2 ≤ e.waiting →
    exec (.mcwPkt k) s = .next (r.1.modRouter h fun x => { x with combine := x.combine.map fun z => if z = e then
      { e with waiting := e.waiting - 1, delivered := e.delivered + 1, status := firstBad e.status (firstBad 0 r.2) } else z })

/-- R231, R234 to R241: LOAD_START claims the cores of a load at the head of the queue, or ends a load whose entry is absent; LOAD applies the next
record of a segment to its core's back slot, or fails the segment at a record that breaks its rules; LOAD_COMPLETE ends a load whose segments
are done; HOST_SEGMENT_FETCH lands the next bytes of a host segment in its home stack. -/
def Obligations.ResidencyLoadRows : Prop :=
  (∀ (s : State) (q : LoadReq) (qs : List LoadReq) (e : DirEntry), s.fill.running = none → s.fill.queue = q :: qs → s.sched.held = false →
    s.displacesFlip q.handle.toNat = false → e = s.entry q.handle.toNat →
    (e.valid = false → exec .loadStart s = .next (s.endHead q 0x0D 0))
    ∧ (e.valid = true → (e.invalid = true ∨ s.entryValid e = false) → exec .loadStart s = .next (s.endHead q 0x20 0))
    ∧ (∀ hdr n, e.valid = true → e.invalid = false → s.entryValid e = true → q.host.isSome = true →
        s.hbmRead (some e.ctx.toNat) e.img.toNat 1024 = (s, .ok hdr) →
        (headerOk hdr = false → exec .loadStart s = .next (s.endHead q 0x27 0))
        ∧ ∀ cores : List (Nat × Nat), headerOk hdr = true → (List.range 32).all (segHomeOk hdr) = true → n = entryOf e.ctx.toNat e.img.toNat hdr →
          bitsOf 256 n.meshSet.toNat = [] →
          cores = (((bitsOf 256 n.setts.toNat).flatMap fun sid => (List.range 64).map fun k => 64 * sid + k).filterMap fun l =>
            (s.coreAt l).bind fun p => if (s.core p).fenced then none else some (l, p)) →
          (∀ c ∈ cores, (s.core c.2).frontSlot.has q.handle.toNat = false ∧ (s.core c.2).frontBanks &&& n.banks = 0
            ∧ (s.core c.2).backSlot.state = .empty) →
          exec .loadStart s = .next (s.claimLoad q { n with pinned := e.pinned } hdr cores [])))
  ∧ (∀ (s : State) (seg : Fin 32) (l : Load) (e : DirEntry) (off n : Nat) (h32 bs : List Byte) (r : SegRec), s.fill.running = some l →
    e = s.entry l.req.handle.toNat → off = Tab.get 0 l.offs seg.val → n = segLen l.header seg.val → l.status = 0 → l.req.host = none →
    l.done.contains seg.val = false → off + (parseRec h32).size ≤ n →
    s.hbmRead (some e.ctx.toNat) (segAddr l.header seg.val + off) 32 = (s, .ok h32) →
    s.hbmRead (some e.ctx.toNat) (segAddr l.header seg.val + off) (parseRec h32).size = (s, .ok bs) → r = parseRec bs →
    (r.ok seg.val e = false → exec (.load seg) s = .next (s.failSeg l seg.val 0x27))
    ∧ (∀ p, r.ok seg.val e = true → r.kind = 2 → l.cores = [(64 * r.sett + r.core, p)] → (s.core p).fenced = false →
        (s.core p).backSlot.state = .loading →
        exec (.load seg) s = .next { s.setCore p (({ s.core p with sp := (s.core p).sp.store r.off r.payload } : Core).modBack fun x =>
            { x with bytes := BitVec.ofNat 22 (min 0x300000 (x.bytes.toNat + r.len)) }) with
          fill := { s.fill with running := some (l.count seg.val off r (some p)), bytes := BitVec.ofNat 64 (l.bytes + r.size) } }))
  ∧ (∀ (s : State) (l : Load) (h : Nat), s.fill.running = some l → h = l.req.handle.toNat → l.status = 0 →
    ((∃ i ∈ segsOf l.header, i ∉ l.done) → exec .loadComplete s = .next s)
    ∧ (∀ u v, (∀ i ∈ segsOf l.header, i ∈ l.done) → namedOk l.named (s.entry h) = true → l.req.cmds = [] → u.sched.picked = none →
        u = l.sites.foldl (fun t k => t.modSett k.2 fun x => x.setBackHandle (some l.req.handle)) (s.endSlots l 0) →
        v = u.modEntry h (fun x => { x with cores := l.named, pairs := l.pairs, joins := l.joins }) → v.openCtxs = [] →
        exec .loadComplete s = .next { v.modEntry h fun x => { x with invalid := x.invalid || !v.entryValid x } with
          fill := { v.fill with running := none, fills := v.fill.fills + 1, bytes := BitVec.ofNat 64 l.bytes
                                ready := BitVec.ofNat 15 (l.cores.filter fun c =>
                                  (s.core c.2).backSlot.state = .ready && l.named.contains c.1).length } }))
  ∧ ∀ (s : State) (g : Gal) (seg : Fin 32) (l : Load) (data : List Byte) (e : DirEntry) (done : Nat), s.fill.running = some l →
    e = s.entry l.req.handle.toNat → done = Tab.get 0 l.landed seg.val → l.req.host.isSome = true → segGallery seg.val = g.val → l.status = 0 →
    done < segLen l.header seg.val →
    ((s.gal g.val).linkUp = false → exec (.hostSegmentFetch g seg (.ok data)) s = .next (s.failSeg l seg.val 0x12))
    ∧ (∀ t, (s.gal g.val).linkUp = true → (∃ c, s.ctx e.ctx.toNat = some c ∧ c.onPort g.val = true) →
        s.hbmWrite (some e.ctx.toNat) (segAddr l.header seg.val + done) (data.take (min 65536 (segLen l.header seg.val - done))) = (t, 0) →
        t.fill = s.fill →
        exec (.hostSegmentFetch g seg (.ok data)) s = .next { t with fill := { s.fill with running := some { l with
          landed := Tab.set 0 l.landed seg.val (done + (data.take (min 65536 (segLen l.header seg.val - done))).length) } } })

/-- R217, R221 to R224: a message whose path serves its queues lands as remote writes in the core its flow names and is acknowledged; one of another
pass, one that meets a fenced core and one that reaches another core are dropped; a path that nothing serves keeps it. Hop queues are
flushed only between passes. A failed lane unit is counted, and 16 in a row make the lane dead for the next map. -/
def Obligations.MeshRows : Prop :=
  (∀ (s gone : State) (id : Nat) (m : MeshMsg), s.mesh.find? (fun m => m.id = id) = some m → gone = { s with mesh := s.mesh.filter fun x => x.id ≠ id } →
    (m.tag ≠ s.ledger.passNum.setWidth 4 → exec (.meshMessageLand id) s = .next (gone.modCore m.src fun c =>
      { c with mesh := { c.mesh with stat := satFld c.mesh.stat 15 0 1 } }))
    ∧ (m.tag = s.ledger.passNum.setWidth 4 →
      (s.meshPath m = .waits → exec (.meshMessageLand id) s = .next s)
      ∧ (s.meshPath m = .lost → exec (.meshMessageLand id) s = .next gone)
      ∧ ∀ a lanes t p, s.meshPath m = .lands a lanes → t = lanes.foldl State.laneGood gone → t.coreAt a = some p →
        (a ≠ m.dest.toNat → exec (.meshMessageLand id) s = .next (t.modCore p fun c =>
          { c with mesh := { c.mesh with stat := satFld c.mesh.stat 31 16 1 } }))
        ∧ ∀ src r, a = m.dest.toNat → t.logicalOf m.src = some src →
          r = landMesh src (m.data.length / 128 + 1) (t.core p, stOk) m.off m.data →
          exec (.meshMessageLand id) s = .next ((t.setCore p r.1).send [meshAck m src a r.2])))
  ∧ (∀ (s : State) (i : Site), ((s.ledger.state = .ended ∨ s.ledger.state = .idle) →
      exec (.hopQueueFlush i) s = .next { s with mesh := s.mesh.filter fun m => siteOf m.src ≠ i.val })
    ∧ (s.ledger.state ≠ .ended → s.ledger.state ≠ .idle → exec (.hopQueueFlush i) s = .next s))
  ∧ ∀ (s : State) (i : Site) (lane : Fin 10),
    exec (.meshLaneReplay i lane) s = .next (s.setSett i.val { s.sett i.val with
      meshErr := satFld (s.sett i.val).meshErr 31 16 1, laneFails := Tab.mod 0 (s.sett i.val).laneFails lane.val (· + 1) })
    ∧ (16 ≤ Tab.get 0 (s.sett i.val).laneFails lane.val → exec (.meshLaneDead i lane) s = .next { s with
        setts := Tab.set s.settDefault s.setts i.val { s.sett i.val with meshDead := setBit (s.sett i.val).meshDead lane.val true }
        map := { s.map with waiting := addOnce s.map.waiting (MapItem.deadLane i.val lane.val) } })
    ∧ (Tab.get 0 (s.sett i.val).laneFails lane.val < 16 → exec (.meshLaneDead i lane) s = .next s)

/-- R247, R250 to R257, R266: what a router does with a packet. An entry that is not valid drops it, and a request is answered DEST_ABSENT; code 0
delivers; else it goes on, on the high virtual channel after a turn out of a row or over the date line, turns at a folded port, and is
dropped where the other port is folded too. A link folds at both routers once it is dead, and at one where its receiver loses it. -/
def Obligations.RouterRows : Prop :=
  (∀ (s : State) (n : Node) (a : Arrival) (k : Packet) (x : Router) (e : BitVec 32) (i code port : Nat), k ∈ s.flight → x = s.router n →
    i = (if arrivalPort n a = 15 then 0 else arrivalPort n a) → e = x.entryFor k → code = entryField e a →
    port = (if code = 7 then arrivalPort n a else code) →
    (packetOk k = false → exec (.routePacket n a k) s = .next ((s.take k).modRouter n fun x => { x with err := satFld x.err 15 8 1 }))
    ∧ (packetOk k = true →
      ((bit e 31 = false ∨ code = 15) →
        (expectsReply k.opc.toNat = false → exec (.routePacket n a k) s = .next ((s.take k).modRouter n fun x => { x with err := satFld x.err 47 32 1 }))
        ∧ (expectsReply k.opc.toNat = true → exec (.routePacket n a k) s = .next
            (((s.take k).modRouter n fun x => { x with err := satFld x.err 47 32 1 }).send [refuseReply k (s.answerSrc k) 4 stAbsent])))
      ∧ (bit e 31 = true → code = 0 → exec (.routePacket n a k) s = .next ((s.modRouter n fun x =>
          { x with pkts := Tab.mod 0 x.pkts 0 (· + 1) }).drift n i 0))
      ∧ ∀ g d leg cross, bit e 31 = true → code ≠ 15 → code ≠ 0 → portRing n port = some (g, d) →
        leg = (if code = 7 ∨ port = arrivalPort n a then k else
          { k with vc := (match a, g with | .injected, _ => false | _, .row _ => true | _, _ => false) }) →
        cross = (crossesDate n g d && !bit x.ctrl (lineBit n g)) →
        (x.folded port = false → (cross = false ∨ leg.vc = false ∨ leg.turned = true) →
          exec (.routePacket n a k) s = .next ((((s.swap k (if cross = true ∧ leg.turned = false then { leg with vc := true } else leg)).modRouter n fun x =>
            { x with pkts := Tab.mod 0 x.pkts port (· + 1) }).drift n i port).modRouter n fun x => { x with fails := Tab.set 0 x.fails port 0 }))
        ∧ (x.folded port = false → cross = true → leg.vc = true → leg.turned = false →
          exec (.routePacket n a k) s = .next ((s.take k).modRouter n fun x => { x with err := satFld x.err 7 0 1 }))
        ∧ (x.folded port = true → leg.turned = false → x.folded (otherPort n port) = false →
          exec (.routePacket n a k) s = .next ((((s.swap k { leg with vc := true, turned := true }).modRouter n fun x =>
            { x with pkts := Tab.mod 0 x.pkts (otherPort n port) (· + 1) }).drift n i (otherPort n port)).modRouter n fun x =>
              { x with err := satFld x.err 31 16 1 }))
        ∧ (x.folded port = true → (leg.turned = true ∨ x.folded (otherPort n port) = true) →
          exec (.routePacket n a k) s = .next ((s.take k).modRouter n fun x => { x with err := satFld x.err 63 48 1 }))))
  ∧ ∀ (s : State) (n : Node) (p : Fin 12), (portRing n p.val).isSome = true →
    exec (.flitReplay n p) s = .next (s.modRouter n fun x =>
      { x with links := Tab.mod 0 x.links p.val (fun v => setFld v 30 0 (fld v 30 0 + 1)), fails := Tab.mod 0 x.fails p.val (· + 1) })
    ∧ exec (.linkLockLoss n p) s = .next (s.modRouter n fun x => x.foldHw p.val)
    ∧ exec (.linkIdleTimeout n p) s = .next (s.modRouter n fun x => x.foldHw p.val)
    ∧ (∀ m q, 16 ≤ Tab.get 0 (s.router n).fails p.val → farEnd n p.val = some (m, q) →
      exec (.ringLinkDead n p) s = .next { (((s.modRouter n fun x => x.foldHw p.val).modRouter m fun x => x.foldHw q).modRouter n fun x =>
          { x with links := Tab.mod 0 x.links p.val fun v => setBit v 31 true, fails := Tab.set 0 x.fails p.val 0 }) with
        map := { s.map with waiting := addOnce s.map.waiting (MapItem.deadLink n p.val) } })
    ∧ (Tab.get 0 (s.router n).fails p.val < 16 → exec (.ringLinkDead n p) s = .next s)

/-- R259 to R261, R265, R350 to R355: a drain starts on START, holds its classes at a beacon once the ledger is idle, is DRAINED after two empty censuses
and ends at its limit without switching; combine entries older than WAIT_US answer TIMEOUT; a beacon sets an island's time by its error,
a broken or missing one is counted, and TIME_CTRL takes a requested step. -/
def Obligations.DrainAndBeaconRows : Prop :=
  (∀ (s : State) (v : BitVec 64) (d : Drain), d = { s.drain with reg := setFld (setFld s.drain.reg 51 43 (fld v 51 43)) 31 0 (fld v 31 0) } →
    (bit v 42 = true → s.drain.busy = false → exec (.drainStart v) s = .next (State.edge { s with drain :=
      { d with reg := setFld d.reg 63 61 1, steps := 0, empty := 0 } } 0 593))
    ∧ ((bit v 42 = false ∨ s.drain.busy = true) → exec (.drainStart v) s = .next { s with drain := d }))
  ∧ (∀ (s t : State) (dt : Nat), t = { s with tclk := s.tclk + dt } →
    (s.drain.state = 2 → s.drain.heldAt + fld s.drain.reg 31 0 * 1000 ≤ s.tclk + dt → exec (.drainLimit dt) s = .next
      ((({ t with drain := { t.drain with reg := setFld t.drain.reg 63 61 5 } }).endDrain 0x17).drainEdge 2))
    ∧ ((s.drain.state ≠ 2 ∨ s.tclk + dt < s.drain.heldAt + fld s.drain.reg 31 0 * 1000) → exec (.drainLimit dt) s = .next t)
    ∧ (((s.island (.gal 0)).live = false ∨ t.g0Time.toNat % 1024 ≠ 0) → exec (.beacon dt) s = .next t)
    ∧ (∀ u, (s.island (.gal 0)).live = true → t.g0Time.toNat % 1024 = 0 →
        u = (if bit s.timeSvc.ctrl 63 && t.stepAllowed then
          State.edge { t.modIsland (.gal 0) (fun x => { x with timeOff := setFld s.timeSvc.stepVal 9 0 0 - BitVec.ofNat 64 t.tclk, slew := 0, slewAt := t.tclk
                                                               timeStat := satFld x.timeStat 23 16 1 }) with
            timeSvc := { t.timeSvc with ctrl := setBit t.timeSvc.ctrl 63 false } } 0 594 else t) →
        (s.drain.state = 0 → exec (.beacon dt) s = .next (u.applyDrain (.gal 0) 0 0 false))
        ∧ (u.drain = s.drain → s.drain.state = 1 → s.drain.steps = 0 → u.ledger.state = .idle → exec (.beacon dt) s = .next { u with drain := { u.drain with steps := 1 } })
        ∧ (u.drain = s.drain → s.drain.state = 2 → u.census = true → 1 ≤ s.drain.empty → exec (.beacon dt) s = .next (State.drainEdge { u with drain :=
            { u.drain with reg := setFld u.drain.reg 63 61 3, empty := u.drain.empty + 1, steps := 3 } } 2))
        ∧ (u.drain = s.drain → s.drain.state = 2 → u.census = false → exec (.beacon dt) s = .next { u with drain := { u.drain with empty := 0 } }))
    ∧ ∀ (n : Node) (e : Combine), (t.router n).combine = [e] → t.rootOf n e = n →
      (e.since + (t.router n).waitNs < t.tclk → exec (.combineTimeout n dt) s = .next ((t.modRouter n fun x => { x with combine := x.combine.erase e }).send
        [combineAck e (nodeSrc n) stTimeout]))
      ∧ (t.tclk ≤ e.since + (t.router n).waitNs → exec (.combineTimeout n dt) s = .next t))
  ∧ (∀ (s : State) (n : Node), n ≠ .gal 0 → (s.island n).live = true →
    (∀ f : BitVec 128, beaconOk f = false → exec (.beaconReceive n f) s = .next (s.modIsland n fun x =>
      if 3 ≤ x.missRun then { x with timeStat := setBit (satFld x.timeStat 15 8 1) 31 false, missRun := x.missRun + 1 }
      else { x with timeStat := satFld x.timeStat 15 8 1, missRun := x.missRun + 1 }))
    ∧ (∀ (f : BitVec 128) (e : Int) (cur tm : BitVec 64) (x y : Island) (st : BitVec 32), beaconOk f = true → x = s.island n → cur = x.time s.tclk → tm = beaconTime f →
        e = (tm - cur).toInt → st = setFld x.timeStat 7 0 (wrapN 8 (max (-128) (min 127 e))) →
        y = (if bit f 40 ∨ 64 < e then { x with timeOff := tm - BitVec.ofNat 64 s.tclk, slew := 0 }
             else { x with timeOff := cur - BitVec.ofNat 64 s.tclk, slew := e }) →
        exec (.beaconReceive n f) s = .next ((s.modIsland n fun _ => { y with
            slewAt := s.tclk, missRun := 0, timePath := BitVec.ofNat 32 (fld f 39 32 * 2 ^ 24 + fld f 69 50)
            timeStat := setBit (if bit f 40 ∨ 64 < e ∨ e < -64 then satFld st 23 16 1 else st) 31 true }).applyDrain n (fld f 49 46) (fld f 45 42) (bit f 41)))
    ∧ exec (.syncLoss n) s = .next (s.modIsland n fun x =>
        { x with timeStat := setBit (satFld x.timeStat 15 8 (4 - x.missRun)) 31 false, missRun := max 4 x.missRun }))
  ∧ ∀ (s : State) (v : BitVec 64), exec (.timeStep v) s = .next { s with timeSvc := { s.timeSvc with
      ctrl := setBit (setBit s.timeSvc.ctrl 62 (bit v 62)) 63 (bit s.timeSvc.ctrl 63 || bit v 63) } }

/-- R341 to R349: what happens to a clock island. Its selected reference lost, it holds over and selects the next one; a listed input locks it; a
generator that fails takes its site with it. ACLK moves one step toward the lowest limit and no higher, and a violation sends it to the
safe path. A droop lowers DROOP by one step, at most one in a microsecond, and 1 ms without one raises it by one. -/
def Obligations.ClockRows : Prop :=
  (∀ (s : State) (n : Node) (i : RefInput) (x : Island), x = s.island n →
    (fld x.status 31 28 = 2 → fld x.status 27 24 = i.toNat → exec (.referenceLoss n i) s = .next (State.edge (s.modIsland n fun x =>
      ({ x with status := setFld x.status 31 28 3 } : Island).select (nextInput (refList (s.refCfg n)) i.toNat)) 0 594))
    ∧ ((fld x.status 31 28 ≠ 2 ∨ fld x.status 27 24 ≠ i.toNat) → exec (.referenceLoss n i) s = .next s)
    ∧ ((refList (s.refCfg n)).contains i.toNat = true →
      (fld x.status 31 28 = 1 → ∃ t, exec (.inputQualified n i) s = .next t
        ∧ t = s.modIsland n (fun y => { y with status := (t.island n).status, timeOff := -(BitVec.ofNat 64 s.tclk), slew := 0, slewAt := s.tclk })
        ∧ fld (t.island n).status 31 28 = 2 ∧ fld (t.island n).status 27 24 = i.toNat ∧ fld (t.island n).status 23 18 = fld x.status 23 18)
      ∧ (fld x.status 31 28 = 3 → n ≠ .gal 0 → exec (.inputQualified n i) s = .next (s.modIsland n fun y => (y.select i.toNat).setState 2)))
    ∧ ((refList (s.refCfg n)).contains i.toNat = false → exec (.inputQualified n i) s = .next s)
    ∧ (fld x.status 31 28 ≠ 0 → fld x.status 31 28 ≠ 4 → exec (.vcoLockFail n) s = .next (match n with
        | .sett k => (s.modIsland n fun y => { y with status := setFld y.status 31 28 4 }).siteDies k.val
        | .sump k => (s.modIsland n fun y => { y with status := setFld y.status 31 28 4 }).stackDies k.val
        | .gal g => (s.modIsland n fun y => { y with status := setFld y.status 31 28 4 }).galleryDies g.val))
    ∧ ((fld x.status 31 28 = 0 ∨ fld x.status 31 28 = 4) → exec (.vcoLockFail n) s = .next s))
  ∧ (∀ (s : State) (i : Site) (x : Sett) (k : Island) (cur goal : Nat), x = s.sett i.val → k = x.clk → k.live = true → cur = fld k.status 10 0 →
    goal = fld k.aclk 62 56 →
    (k.safe = false → exec (.aclkStep i) s = .next (s.setSett i.val { x with clk :=
        if cur < 25 * goal then { k with status := setFld k.status 10 0 (cur + 25) }
        else if 25 * goal < cur then { k with status := setFld k.status 10 0 (cur - 25) } else k }))
    ∧ (k.safe = true → exec (.aclkStep i) s = .next (s.setSett i.val { x with clk := if 25 * goal < cur then k.toSafe (safeDiv goal) else k }))
    ∧ (∀ duty st y, st = setFld k.status 20 19 (if duty then 2 else 1) →
        y = { k with events := if duty then satFld k.events 23 16 1 else satFld k.events 31 24 1
                     status := if k.safe = false ∧ passed k.safeAt s.tclk 1000000 = false then setBit st 18 true else st } →
        exec (.clockViolation i duty) s = .next (s.setSett i.val { x with clk := y.toSafe (safeDiv (if k.safe then min goal (cur / 25) else goal)) }))
    ∧ exec (.safeClear i) s = .next (s.setSett i.val { x with clk := if k.safe = true ∧ bit k.status 18 = false then
        { k with status := setFld (setBit k.status 23 false) 22 21 0, safeAt := some s.tclk } else k })
    ∧ (∀ (row : Fin 8) (y : Sett), y = { x with clk := { k with
          events := satFld k.events 15 8 1, status := setFld k.status 20 19 3, droopAt := some s.tclk } } →
        (passed k.droopStep s.tclk 1000 = false → exec (.droop i row) s = .next (s.setSett i.val y))
        ∧ (passed k.droopStep s.tclk 1000 = true → exec (.droop i row) s = .next (s.setSett i.val (Sett.retarget { y with clk := { y.clk with
            droopStep := some s.tclk
            aclk := setFld k.aclk 30 24 (if fld k.aclk 30 24 = 127 then fld k.aclk 54 48 else fld k.aclk 30 24 - 1) } })))))
  ∧ ∀ (s : State) (i : Site) (dt : Nat) (x : Sett) (d now : Nat), x = s.sett i.val → d = fld x.clk.aclk 30 24 → now = s.tclk + dt →
    ((d = 127 ∨ passed x.clk.droopAt now 1000000 = false ∨ passed x.clk.droopStep now 1000000 = false) →
      exec (.droopRecovery i dt) s = .next ({ s with tclk := now }.setSett i.val x))
    ∧ (d ≠ 127 → passed x.clk.droopAt now 1000000 = true → passed x.clk.droopStep now 1000000 = true →
      exec (.droopRecovery i dt) s = .next ({ s with tclk := now }.setSett i.val (Sett.retarget { x with clk := { x.clk with
        droopStep := some now, aclk := setFld x.clk.aclk 30 24 (if fld x.clk.aclk 54 48 < d + 1 then 127 else d + 1) } })))

/-- R362 to R369, R374, R375, R381: an e-fuse trip darkens its meadow, records state, cause and count, and takes its cores from the panel; a second
SHORT within an hour locks it, and the rim's trip resets the panel. An open connector lowers its region's limit, and with fewer than two left
the meadow is switched off. Estimates fill the baseline, then give the ratio, and a step of it trips. Lost phases lower the cap, the last
one kills the site; a failed regulator joins rows, leaves them dark or kills the site. -/
def Obligations.PowerFailureRows : Prop :=
  (∀ (s : State) (r : Fin 9) (cause : BitVec 4) (m : Nat), m = r.val →
    ((cause = 0 ∨ 6 < cause.toNat) → exec (.efuseTrip r cause) s = .next s)
    ∧ (1 ≤ cause.toNat → cause.toNat ≤ 6 → m < 8 → 2 ≤ s.meadowState m → s.meadowState m ≤ 4 →
      ∃ t, exec (.efuseTrip r cause) s = .next t
        ∧ (∀ a, cause = 1 → Tab.get 0 s.power.shortAt m = a + 1 → s.tclk ≤ a + 3600000000000 → t.meadowState m = 6)
        ∧ ((cause ≠ 1 ∨ ∀ a, Tab.get 0 s.power.shortAt m = a + 1 → a + 3600000000000 < s.tclk) → t.meadowState m = 5)
        ∧ fld (t.meadow m) 3 0 = cause.toNat ∧ fld (t.meadow m) 15 8 = min 255 (fld (s.meadow m) 15 8 + 1) ∧ fld (t.meadow m) 47 32 = 0
        ∧ (∀ k, k ≠ m → t.meadow k = s.meadow k) ∧ t.cores = (s.cores.filter fun e => meadowOf (siteOf e.1) ≠ m)
        ∧ (cause ≠ 6 → bit t.alert 4 = true) ∧ (s.meadowOn m = true → MapItem.meadowDark m ∈ t.map.waiting)))
  ∧ (∀ (s t : State), t = { State.resetWith { s.nv with lastReady := s.nv.lastReady && !s.boot.running } with
        pending := s.pending, free := s.free, pins := { s.pins with rimGood := false, thermtrip := false } } →
    exec .rimPowerLoss s = .next { t with boot := { t.boot with running := false } }
    ∧ ∀ cause : BitVec 4, 1 ≤ cause.toNat → cause.toNat ≤ 6 → exec (.efuseTrip 8 cause) s = .next { t with boot := { t.boot with running := false } })
  ∧ (∀ (s : State) (n : Fin 36) (r left : Nat), r = n.val / 4 → left = ((feedsOf r).filter fun k => k ≠ n.val && !bit (s.feed k) 61).length →
    (bit (s.feed n.val) 61 = true → exec (.connectorOpen n) s = .next s)
    ∧ (bit (s.feed n.val) 61 = false → (2 ≤ left ∨ r < 8) → ∃ t, exec (.connectorOpen n) s = .next t
      ∧ t.feed n.val = setBit (s.feed n.val) 61 true ∧ bit t.alert 5 = true ∧ (r < 8 → fld (t.meadow r) 31 16 = t.regionLimit r)
      ∧ t.power.turnOff = (if left < 2 ∧ s.meadowState r = 3 then addOnce s.power.turnOff r else s.power.turnOff))
    ∧ (bit (s.feed n.val) 61 = false → left < 2 → r = 8 → ∃ t, exec (.connectorOpen n) s = .next t
      ∧ t.pins.rimGood = false ∧ t.cores = [] ∧ t.flight = [] ∧ t.powerState = 0))
  ∧ (∀ (s u : State) (n : Fin 36) (ohm : Nat) (amp : BitVec 16) (dt base ratio : Nat) (l : List Nat),
    u = (s.pass dt).modFeed n.val (fun x => setFld x 15 0 amp.toNat) → base = fld (s.feed n.val) 31 16 → ratio = ohm * 1000 / base →
    l = Tab.get [] s.power.feedSum n.val →
    (amp.toNat ≤ 2000 → exec (.connectorEstimate n ohm amp dt) s = .next u)
    ∧ (2000 < amp.toNat →
      (base = 0 → l.length < 5999 → exec (.connectorEstimate n ohm amp dt) s = .next { u with power := { u.power with
        feedSum := Tab.set [] u.power.feedSum n.val (l ++ [ohm]) } })
      ∧ (base = 0 → 5999 ≤ l.length → exec (.connectorEstimate n ohm amp dt) s = .next
        (State.modFeed { u with power := { u.power with feedSum := Tab.erase u.power.feedSum n.val } } n.val fun x =>
          setFld x 31 16 (min 65535 (median (l ++ [ohm])))))
      ∧ (base ≠ 0 → ratio ≤ 1500 → ratio ≤ Tab.get 0 s.power.lastEst n.val + 500 → exec (.connectorEstimate n ohm amp dt) s = .next
        (State.modFeed { u with power := { u.power with lastEst := Tab.set 0 u.power.lastEst n.val ratio, lastCur := Tab.set 0 u.power.lastCur n.val amp.toNat
                                                        highAt := Tab.set 0 u.power.highAt n.val 0 } } n.val fun x => setFld x 47 32 ratio))
      ∧ (base ≠ 0 → Tab.get 0 s.power.lastEst n.val ≠ 0 → Tab.get 0 s.power.lastEst n.val + 500 < ratio → amp.toNat = Tab.get 0 s.power.lastCur n.val →
        n.val < 32 → s.meadowState (n.val / 4) = 3 → ∃ t, exec (.connectorEstimate n ohm amp dt) s = .next t
        ∧ t.meadowState (n.val / 4) = 5 ∧ fld (t.meadow (n.val / 4)) 3 0 = 5)))
  ∧ (∀ (s : State) (i : Site) (ph : Fin 8) (x y : Sett), x = s.sett i.val → y = { x with pwrStat := setBit x.pwrStat (40 + ph.val) false } →
    (bit x.pwrStat (40 + ph.val) = false → exec (.phaseFail i ph) s = .next s)
    ∧ (bit x.pwrStat (40 + ph.val) = true → y.phases ≠ 0 → exec (.phaseFail i ph) s = .next (s.setSett i.val { y with
        cap := setFld y.cap 15 0 (min (fld y.cap 15 0) (if 6 ≤ y.phases then 1100 else (1100 * y.phases + 3) / 6)) }))
    ∧ (bit x.pwrStat (40 + ph.val) = true → y.phases = 0 → ∃ t, exec (.phaseFail i ph) s = .next t ∧ fld (t.sett i.val).pwrStat 23 20 = 3
        ∧ MapItem.deadSite i.val ∈ t.map.waiting ∧ ∀ p ∈ s.coresOfSite i.val, (t.core p).fenced = true))
  ∧ ∀ (s : State) (i : Site) (v : Fin 9) (tm : BitVec 7) (x : Sett) (fails : Nat), x = s.sett i.val →
    fails = fld (setBit x.pwrStat (31 + v.val) true) 38 31 →
    (bit x.pwrStat (31 + v.val) = true → exec (.ivrFail i v tm) s = .next s)
    ∧ (bit x.pwrStat (31 + v.val) = false → v.val = 8 → ∃ t, exec (.ivrFail i v tm) s = .next t ∧ fld (t.sett i.val).pwrStat 23 20 = 3
        ∧ MapItem.deadSite i.val ∈ t.map.waiting)
    ∧ (bit x.pwrStat (31 + v.val) = false → v.val < 8 → ∃ t, exec (.ivrFail i v tm) s = .next t
        ∧ t.sett i.val = Sett.retarget { x with
            pwrStat := setFld (setBit x.pwrStat (31 + v.val) true) 30 24 (tiesOf fails)
            cap := setFld x.cap 22 16 (if tiesOf fails = 0 then 127 else tm.toNat) }
        ∧ ∀ r ∈ darkRows fails, r ∉ darkRows (fld x.pwrStat 38 31) → MapItem.darkRow i.val r ∈ t.map.waiting
            ∧ ∀ p ∈ s.coresOfSite i.val, rowOf p = r → (t.core p).fenced = true)

/-- R370 to R373, R376 to R381: the allocation gives every live site its share; a sett above its cap steps down, one well below it steps up; above the
panel's cap every sett loses eight steps. The oldest in-rush request is granted its headroom or deferred, a granted meadow comes up in five
phases, planned darkness waits for a drain, and gating resets a core's logic, never its memories. -/
def Obligations.PowerSharingRows : Prop :=
  (∀ (s t : State) (power : List (Site × Nat)) (rim : Nat) (mv : List (Fin 9 × Nat)) (dt total : Nat), total = rim + sumN (power.map Prod.snd) →
    t = { s with tclk := s.tclk + dt
                 power := { s.power with planeMv := mv.foldl (fun a e => Tab.set 12000 a e.1.val e.2) s.power.planeMv
                                         panel := setFld (setFld s.power.panel 63 48 (min 65535 (total / 100))) 31 16 (min 65535 (rim / 100)) } } →
    ∃ u, exec (.allocationTick power rim mv dt) s = .next u ∧ u = { t with setts := u.setts } ∧ ∀ i < 272, i ∈ s.liveSites →
      ∀ demand : Nat → Nat, demand = (fun k => min (s.sett k).maxPower (((power.find? fun e => e.1.val = k).map Prod.snd).getD 0 + 100)) →
      fld (u.sett i).cap 15 0 = min (demand i) (min
        (levelOf (s.liveSites.map demand) (100 * t.capPanel - (rim + 100 * t.reserve + 100 * t.grants)))
        (levelOf ((s.liveSites.filter fun k => meadowOf k = meadowOf i).map demand) (t.regionPower (meadowOf i)))))
  ∧ (∀ (s : State) (i : Site) (p : BitVec 16) (low : Bool) (x : Sett) (pwr cap : Nat), x = { s.sett i.val with
        pwrStat := setFld (s.sett i.val).pwrStat 63 48 p.toNat } → pwr = fld x.clk.aclk 38 32 → cap = min (fld x.cap 15 0) (phaseMax x.phases) →
    (cap < p.toNat → exec (.capCompare i p low) s = .next (s.setSett i.val (x.setPwr (pwr - 1))))
    ∧ (p.toNat ≤ cap → low = true → pwr < min (fld x.cap 22 16) (fld x.clk.aclk 54 48) →
        exec (.capCompare i p low) s = .next (s.setSett i.val (x.setPwr (pwr + 1))))
    ∧ (p.toNat ≤ cap → (low = false ∨ min (fld x.cap 22 16) (fld x.clk.aclk 54 48) ≤ pwr) →
        exec (.capCompare i p low) s = .next (s.setSett i.val x)))
  ∧ (∀ (s : State) (p : Nat), (p ≤ 100 * s.capPanel → exec (.panelClamp p) s = .next s)
    ∧ (100 * s.capPanel < p → ∃ t, exec (.panelClamp p) s = .next t ∧ t.power.panel = satFld s.power.panel 7 0 1 ∧ t.cores = s.cores ∧
        ∀ i < 272, t.sett i = if i ∈ s.liveSites then (s.sett i).setPwr (fld (s.sett i).clk.aclk 38 32 - 8) else s.sett i))
  ∧ (∀ (s : State) (p : Nat) (q : InrushReq) (rest : List InrushReq) (g : Nat), s.power.requests = q :: rest → g = s.grantFor p →
    (q.cmd = none ∨ s.fw.cmd = none) →
    (s.inrushAllowed = true → 4000 ≤ g → exec (.inrushGrant p) s = .next { s with power := { s.power with
        meadow := Tab.mod 0 s.power.meadow q.meadow fun x => setFld (setFld (setFld x 63 60 2) 59 58 (bandOf g)) 47 32 (g / 100)
        requests := rest, phase := Tab.set 0 s.power.phase q.meadow 1 } })
    ∧ ((s.inrushAllowed = false ∨ g < 4000) → exec (.inrushGrant p) s = .next (s.deferHead q)))
  ∧ (∀ (s t : State) (p dt : Nat), t = { s with tclk := s.tclk + dt } →
    (∀ q rest, s.power.requests = q :: rest → q.deferred = true → exec (.inrushReevaluate p dt) s = exec (.inrushGrant p) t)
    ∧ ((∀ q ∈ s.power.requests, q.deferred = false) → exec (.inrushReevaluate p dt) s = .next t))
  ∧ (∀ (s : State) (m : Meadow) (ph : Nat), ph = Tab.get 0 s.power.phase m.val →
    ((s.meadowState m.val ≠ 2 ∨ ph = 0) → exec (.turnOnPhase m) s = .next s)
    ∧ (s.meadowState m.val = 2 →
      (ph = 1 ∨ ph = 2 ∨ ph = 4 → exec (.turnOnPhase m) s = .next { s with power := { s.power with phase := Tab.set 0 s.power.phase m.val (ph + 1) } })
      ∧ (ph = 3 → ∃ t, exec (.turnOnPhase m) s = .next t ∧ Tab.get 0 t.power.phase m.val = 4 ∧ t.cores = s.cores
          ∧ ∀ i ∈ sitesOf m.val, fld (t.sett i).pwrStat 23 20 = (if i ∈ s.nv.deadSites then 3 else 1))
      ∧ (5 ≤ ph → ∃ t, exec (.turnOnPhase m) s = .next t ∧ t.meadowState m.val = 3 ∧ fld (t.meadow m.val) 47 32 = 0
          ∧ Tab.get 0 t.power.phase m.val = 0 ∧ ∀ i ∈ sitesOf m.val, fld (s.sett i).pwrStat 23 20 = 1 → fld (t.sett i).pwrStat 23 20 = 2)))
  ∧ (∀ (s : State) (ms : List Nat), ms = s.power.turnOff → ms ≠ [] → s.ledger.state = .idle → s.drain.busy = false →
    ((s.power.draining = false ∨ s.drain.state ≠ 4) → ∃ t, exec .meadowPowerDown s = .next t ∧ t.drain.state = 1 ∧ t.power.draining = true
      ∧ t.drain.classes = 15 ∧ ∀ m ∈ ms, t.meadowState m = 4)
    ∧ (s.power.draining = true → s.drain.state = 4 → ∃ t, exec .meadowPowerDown s = .next t ∧ t.power.turnOff = [] ∧ t.power.draining = false
      ∧ ∀ m ∈ ms, t.meadowState m = 0 ∧ fld (t.meadow m) 3 0 = 0))
  ∧ ∀ (s : State) (i : Site) (v : BitVec 64), s.ledger.state = .idle → (∀ e ∈ s.cores, e.2.meshBusy = false) →
    ∃ t, exec (.coreGate i v) s = .next t
      ∧ t = { s with cores := t.cores, setts := (s.setSett i.val { s.sett i.val with gate := v, coreReady := (s.sett i.val).coreReady &&& ~~~v }).setts }
      ∧ ∀ p, (t.core p).sp = (s.core p).sp ∧ (t.core p).istore = (s.core p).istore ∧ (t.core p).res0 = (s.core p).res0
        ∧ (t.core p).res1 = (s.core p).res1 ∧ (t.core p = s.core p ∨ t.core p = (s.core p).gated)
        ∧ ∀ sid k, s.settAt i.val = some sid → k < 64 → s.coreAt (64 * sid + k) = some p → bit v k = true → bit (s.sett i.val).gate k = false →
          t.core p = (s.core p).gated

/-- R382 to R394: readings of the coolant enter its registers, six low flows in a row or too fast a rise declare a coolant stop, which floors every
running sett and aborts the pass with COOLING_LOST; five failed reads raise the stale alarm. Samples enter a sett's registers and its guard
floors it at 108 °C; a suspect sensor is set aside; the manager lowers at once and raises by one step; the comparators open every e-fuse. -/
def Obligations.ThermalRows : Prop :=
  (∀ (s t : State) (dt : Nat) (x : Thermal), t = (s.pass dt).edge 0 598 → x = s.thermal →
    (∀ inl out flow, x.rises out = false → (x.stopFlow flow.toNat = false ∨ x.lowRun < 5) →
      exec (.coolantRead (some (inl, out, flow)) dt) s = .next { t with thermal := x.read inl out flow t.tclk })
    ∧ (∀ inl out flow, (x.rises out = true ∨ (x.stopFlow flow.toNat = true ∧ 5 ≤ x.lowRun)) → bit x.status 62 = false →
      ∃ u, exec (.coolantRead (some (inl, out, flow)) dt) s = .next u ∧ bit u.thermal.status 62 = true ∧ u.thermal.lostAt = s.tclk + dt ∧ bit u.alert 1 = true
        ∧ (∀ i < 272, (s.sett i).clk.live = true → fld (u.sett i).clk.aclk 46 40 = 8)
        ∧ (s.ledger.state = .running → u.ledger.outcome = .aborted ∧ u.ledger.reason = BitVec.ofNat 8 abCooling))
    ∧ (x.badRun ≠ 4 → exec (.coolantRead none dt) s = .next { t with thermal := { x with
        coolant := satFld x.coolant 7 0 1, badRun := x.badRun + 1, lowRun := 0, outlets := x.outlets.drop 1 } })
    ∧ (x.badRun = 4 → exec (.coolantRead none dt) s = .next ((State.alertBit { t with thermal := { x with
        coolant := setBit (satFld x.coolant 7 0 1) 15 true, badRun := 5, lowRun := 0, outlets := x.outlets.drop 1, ratedAt := none, goodAt := none } } 3).panelEvent
          (event 0x86 0xFFFFFFFF 0))))
  ∧ (∀ (s t : State) (dt : Nat) (x : Thermal), t = { s with tclk := s.tclk + dt } → x = s.thermal →
    (∀ a, x.slowAt = some a → a + 1000000000 ≤ t.tclk → (x.flowEvAt = none ∨ bit x.status 61 = false) →
      exec (.flowLow dt) s = .next ((State.alertBit { t with thermal := { x with status := setBit x.status 61 true, flowEvAt := some t.tclk } } 2).panelEvent
        ({ x with status := setBit x.status 61 true, flowEvAt := some t.tclk } : Thermal).flowEvent))
    ∧ (∀ a b, x.slowAt = some a → a + 1000000000 ≤ t.tclk → x.flowEvAt = some b → bit x.status 61 = true → t.tclk < b + 10000000000 →
      exec (.flowLow dt) s = .next (State.alertBit { t with thermal := { x with status := setBit x.status 61 true } } 2))
    ∧ ((∀ a, x.slowAt = some a → t.tclk < a + 1000000000) → exec (.flowLow dt) s = .next t)
    ∧ (∀ a, x.ratedAt = some a → a + 1000000000 ≤ t.tclk → exec (.coolLostClear dt) s = .next { t with thermal := { x with
        status := setBit x.status 62 false, lowRun := 0 } })
    ∧ ((∀ a, x.ratedAt = some a → t.tclk < a + 1000000000) → exec (.coolLostClear dt) s = .next t)
    ∧ ∀ i : Site,
      (∀ a, (s.sett i.val).guardOn = true → (s.sett i.val).coolAt = some a → a + 1000000 ≤ t.tclk →
        exec (.guardRelease i dt) s = .next (t.setSett i.val { s.sett i.val with guardOn := false, coolAt := none }))
      ∧ (((s.sett i.val).guardOn = false ∨ ∀ a, (s.sett i.val).coolAt = some a → t.tclk < a + 1000000) →
        exec (.guardRelease i dt) s = .next (t.setSett i.val (s.sett i.val))))
  ∧ (∀ (s : State) (i : Site) (k : Fin 16) (temp : BitVec 16),
    ((s.sett i.val).powered = false → exec (.sensorSample i k temp) s = .next s)
    ∧ ((s.sett i.val).powered = true → ∃ t, exec (.sensorSample i k temp) s = .next t ∧ t = { s with setts := t.setts, free := t.free }
      ∧ (∀ j, j ≠ i.val → t.sett j = s.sett j) ∧ (∀ j, j ≠ k.val → (t.sett i.val).temp j = (s.sett i.val).temp j)
      ∧ fld ((t.sett i.val).temp k.val) 15 0 = temp.toNat ∧ bit ((t.sett i.val).temp k.val) 30 = bit ((s.sett i.val).temp k.val) 30
      ∧ (bit ((t.sett i.val).temp k.val) 31 = true ↔ -640 ≤ temp.toInt ∧ temp.toInt ≤ 2400)
      ∧ ∀ j ∈ (t.sett i.val).governing, 1728 ≤ (t.sett i.val).reading j → (t.sett i.val).guardOn = true ∧ fld (t.sett i.val).clk.aclk 46 40 = 8))
  ∧ (∀ (s : State) (i : Site) (p : Fin 8) (est : BitVec 16) (since k : Nat), since = Tab.get 0 (s.sett i.val).disagree p.val →
      k = (s.sett i.val).farther p.val est.toInt →
    ((since = 0 ∨ s.tclk + 1 ≤ since + 100000000) → exec (.sensorDisagree i p est) s = .next s)
    ∧ (since ≠ 0 → since + 100000000 < s.tclk + 1 → ∃ t, exec (.sensorDisagree i p est) s = .next t ∧ bit ((t.sett i.val).temp k) 30 = true
      ∧ Tab.get 0 (t.sett i.val).disagree p.val = 0 ∧ bit t.alert 6 = true ∧ fld t.thermal.status 39 32 = min 255 (fld s.thermal.status 39 32 + 1)))
  ∧ (∀ (s : State) (f : Forecast) (dt : Nat), (s.sett f.site.val).powered = true →
    (∀ y, bit s.thermal.status 62 = false → y = { s.sett f.site.val with therm := setFld (s.sett f.site.val).therm 63 48 f.temp.toNat } →
      ∃ t, exec (.thermalTick [f] dt) s = .next t ∧ t = { s with tclk := s.tclk + dt, setts := t.setts, thermal := t.thermal }
      ∧ t.sett f.site.val = (if y.guardOn then y.setTherm 8 else if f.maxStep.toNat < fld y.clk.aclk 46 40 then y.setTherm f.maxStep.toNat
          else y.setTherm (min (fld y.clk.aclk 46 40 + 1) f.maxStep.toNat)))
    ∧ (bit s.thermal.status 62 = true → f.crosses = true → s.ledger.state = .idle → ∃ t, exec (.thermalTick [f] dt) s = .next t
      ∧ fld (t.sett f.site.val).clk.aclk 46 40 = 8 ∧ ∀ m ∈ s.nextDark, m ∈ t.power.turnOff))
  ∧ ∀ (s : State) (hbm : Bool) (src : BitVec 9),
    ((bit s.thermal.status 63 = true ∨ s.pins.rimGood = false) → exec (.thermtrip hbm src) s = .next s)
    ∧ (bit s.thermal.status 63 = false → s.pins.rimGood = true → ∃ t, exec (.thermtrip hbm src) s = .next t
      ∧ bit t.thermal.status 63 = true ∧ bit t.thermal.status 60 = hbm ∧ fld t.thermal.status 59 51 = src.toNat ∧ t.pins.thermtrip = true
      ∧ bit t.alert 0 = true ∧ ∀ m < 8, 2 ≤ s.meadowState m → s.meadowState m ≤ 4 → t.meadowState m = 5 ∧ fld (t.meadow m) 3 0 = 6)

/-- R272, R273: the stack and the stack offset of an interleaved address, as the hash of its group fixes them; the interleaved address and the pair of
stack and offset determine each other over the whole range, and the stack-local address of the pair reaches the same byte. -/
def Obligations.InterleaveIsABijection : Prop :=
  (∀ a g h : Nat, a < 0x20000000000 → g = a / 4096 / 32 → h = (g ^^^ g / 2 ^ 5 ^^^ g / 2 ^ 10 ^^^ g / 2 ^ 15 ^^^ g / 2 ^ 20) % 32 →
    hbmStack a = (a / 4096 % 32) ^^^ h ∧ hbmOff a = g * 4096 + a % 4096 ∧ hbmStack a < 32 ∧ hbmOff a < 0x1000000000
    ∧ hbmAddr (hbmStack a) (hbmOff a) = a ∧ decodeAddr a = .hbm (hbmStack a) (hbmOff a)
    ∧ decodeAddr (0x200000000000 + hbmStack a * 2 ^ 36 + hbmOff a) = .hbm (hbmStack a) (hbmOff a))
  ∧ ∀ k off : Nat, k < 32 → off < 0x1000000000 → hbmAddr k off < 0x20000000000 ∧ hbmStack (hbmAddr k off) = k ∧ hbmOff (hbmAddr k off) = off

/-- R269, R270, R278, R281 to R288: training sets a stack's rate or fails it; a readout sets HOT and TEMP; a bank is refreshed unless its group is
paused; the patrol reads one unit and goes on; a listed row is repaired or retired; a failed stack shows it; a filled region reads 0 and
becomes valid. -/
def Obligations.StackRows : Prop :=
  (∀ (s : State) (k : Stack) (x : Sump), x = s.sump k.val →
    (∀ (r : BitVec 2) lanes, fld s.boot.status 63 60 = 3 → x.state = 1 → r ≠ 3 → exec (.hbmTraining k (some r) lanes) s = .next (s.setSump k.val { x with
        status := setFld (setFld (setFld x.status 31 28 2) 27 26 r.toNat) 23 16 lanes.toNat }))
    ∧ (∀ lanes, fld s.boot.status 63 60 = 3 → x.state = 1 → exec (.hbmTraining k none lanes) s = .next (s.setSump k.val { x with
        status := setFld x.status 31 28 3, told := true }))
    ∧ (∀ r lanes, (fld s.boot.status 63 60 ≠ 3 ∨ x.state ≠ 1) → exec (.hbmTraining k r lanes) s = .next s)
    ∧ (∀ v : BitVec 8, x.ready = true → exec (.stackReadout k (some v)) s = .next (s.setSump k.val { x with
        ref := setBit x.ref 8 (85 < v.toNat), status := if fld s.boot.status 63 60 = 6 then setFld x.status 15 8 v.toNat else x.status }))
    ∧ (∀ v, (v = none ∨ x.ready = false) → exec (.stackReadout k v) s = .next s)
    ∧ (∀ rfm bank, x.ready = true → x.paused (bank % 32 / 8) = false → exec (.refresh k rfm bank) s = .next (s.setSump k.val { x with
        refreshed := x.refreshed + 1 }))
    ∧ (∀ rfm bank, (x.ready = false ∨ x.paused (bank % 32 / 8) = true) → exec (.refresh k rfm bank) s = .next s)
    ∧ (∀ ups dt y, x.ready = true → bit x.scrub 31 = true → y = { x with errs := (ups.filter fun (u : Upset) => decide (u.word < 2 ^ 33)).foldl strike x.errs } →
        (y.retiredAt (x.scrubPos * 128) 128 = true → exec (.patrolScrub k ups dt) s = .next ({ s with tclk := s.tclk + dt }.setSump k.val
          { y with scrubPos := (x.scrubPos + 1) % 2 ^ 29 }))
        ∧ ∀ z, y.retiredAt (x.scrubPos * 128) 128 = false → z = (y.check (x.scrubPos * 128) 128).1 → z.state ≠ 3 → exec (.patrolScrub k ups dt) s = .next
          ({ s with tclk := s.tclk + dt }.setSump k.val { z with scrubPos := (x.scrubPos + 1) % 2 ^ 29 }))
    ∧ (∀ ups dt, (x.ready = false ∨ bit x.scrub 31 = false) → exec (.patrolScrub k ups dt) s = .next { s with tclk := s.tclk + dt })
    ∧ (∀ u : BitVec 21, x.ready = true → x.spall.contains u.toNat = true →
        exec (.hbmRowRepair k u true) s = .next { s.setSump k.val { x with spall := x.spall.erase u.toNat, repaired := addOnce x.repaired u.toNat } with
          nv := { s.nv with hbmSpall := addOnce s.nv.hbmSpall (k.val, u.toNat) } }
        ∧ ∀ z, z = Sump.retire { x with spall := x.spall.erase u.toNat } u.toNat → z.state ≠ 3 → exec (.hbmRowRepair k u false) s = .next { s.setSump k.val z with
          nv := { s.nv with hbmSpall := s.nv.hbmSpall.erase (k.val, u.toNat), hbmRetired := addOnce s.nv.hbmRetired (k.val, u.toNat) } })
    ∧ (∀ u res, (x.ready = false ∨ x.spall.contains u.toNat = false) → exec (.hbmRowRepair k u res) s = .next s)
    ∧ (x.told = true → exec (.stackFailed k) s = .next s)
    ∧ (x.told = false → ∃ t, exec (.stackFailed k) s = .next t ∧ t.cores = s.cores ∧ t.setts = s.setts ∧ t.ledger = s.ledger ∧ t.dir = s.dir
        ∧ t.sumps = (s.setSump k.val { x with status := setFld (setFld x.status 31 28 3) 15 8 0, told := true }).sumps)
    ∧ (x.fills = [] → exec (.regionZeroFillDone k) s = .next s)
    ∧ ∀ f rest, x.fills = f :: rest → s.host.inProg = [] → ∃ t, exec (.regionZeroFillDone k) s = .next t ∧ t = { s with sumps := t.sumps }
        ∧ (∀ j, j ≠ k.val → t.sump j = s.sump j) ∧ (t.sump k.val).fills = rest
        ∧ (t.sump k.val).regions = Tab.set 0 x.regions f.index f.entry ∧ ∀ a, Tab.get 0 (t.sump k.val).mem a =
          if fld f.entry 23 0 * 4096 ≤ a ∧ a < fld f.entry 23 0 * 4096 + (fld f.entry 47 24 + 1 - fld f.entry 23 0) * 4096 then 0
          else Tab.get 0 x.mem a)

/-- R395 to R409, R417, R418: reset and bring-up. The reset pin held low resets the panel, its release and rim power good begin bring-up, whose phases
follow in order up to READY, when the shape is published; an image that fails its checks waits in recovery, where GO reports why or restarts
with a good one; a bench runs its steps in order and is done or skipped; the soaks pause each group twice. -/
def Obligations.BringUpRows : Prop :=
  (∀ s : State,
    (∃ t, exec (.panelResetPin false) s = .next t ∧ t.pins.panelResetN = false ∧ t.pins.rimGood = s.pins.rimGood ∧ t.boot.running = false
      ∧ t.cores = [] ∧ t.setts = [] ∧ t.sumps = [] ∧ t.gals = [] ∧ t.flight = [] ∧ t.tclk = 0 ∧ t.nv.image = s.nv.image ∧ t.nv.vault = s.nv.vault)
    ∧ (s.pins.panelResetN = true → exec (.panelResetPin true) s = .next s)
    ∧ (s.pins.panelResetN = false → exec (.panelResetPin true) s = .next { s with
        pins := { s.pins with panelResetN := true }, boot := { s.boot with running := s.pins.rimGood, started := s.tclk } })
    ∧ (s.pins.rimGood = true → exec .rimPowerGood s = .next s)
    ∧ (s.pins.rimGood = false → exec .rimPowerGood s = .next { s with
        pins := { s.pins with rimGood := true }, boot := { s.boot with running := s.pins.panelResetN, started := s.tclk } }))
  ∧ (∀ (s u : State) (f : PhaseFindings) (dt ph : Nat), u = { s with tclk := s.tclk + dt } → ph = fld s.boot.status 63 60 →
    (∀ a, s.boot.resetAt = some a → a ≤ s.tclk + dt → ∃ t, exec (.bringupPhase f dt) s = .next t ∧ t.boot.status = 0 ∧ t.cores = []
      ∧ t.boot.running = (s.pins.rimGood && s.pins.panelResetN))
    ∧ (s.boot.resetAt = none → (s.boot.running = false ∨ s.boot.recovery = true) → exec (.bringupPhase f dt) s = .next u)
    ∧ (s.boot.resetAt = none → s.boot.running = true → s.boot.recovery = false →
      ((f.g0Fails = true ∨ (ph = 0 ∧ s.nv.part = 3)) → ∃ t, exec (.bringupPhase f dt) s = .next t ∧ fld t.boot.status 63 60 = 7 ∧ t.boot.running = false
          ∧ t.nv.lastReady = false)
      ∧ (f.g0Fails = false →
        (ph = 0 → s.nv.part ≠ 3 → exec (.bringupPhase f dt) s = .next { u with boot := { u.boot with status := setFld u.boot.status 63 60 1 } })
        ∧ (ph = 1 → s.nv.imageOk = false → exec (.bringupPhase f dt) s = .next { u with boot := { u.boot with recovery := true } })
        ∧ (ph = 1 → s.nv.imageOk = true → ∃ t, exec (.bringupPhase f dt) s = .next t ∧ fld t.boot.status 63 60 = 2
            ∧ t.fw.version = imageVersion s.nv.image ∧ t.fw.svn = imageSvn s.nv.image ∧ ∀ g < 4, ∀ b < 4, t.mcState g b = 1)
        ∧ (ph = 2 → ∃ t, exec (.bringupPhase f dt) s = .next t ∧ fld t.boot.status 63 60 = 3
            ∧ bit t.boot.status 59 = (bit s.nv.bootCfg 31 && decide (s.nv.forced s.fw.version = 0))
            ∧ fld t.boot.status 58 56 = s.nv.forced s.fw.version ∧ ∀ k < 32, (t.sump k).state = 1)
        ∧ (ph = 3 → (∃ k < 32, (s.sump k).state = 1) → exec (.bringupPhase f dt) s = .next u)
        ∧ (ph = 3 → (∀ k < 32, (s.sump k).state ≠ 1) → ∃ t, exec (.bringupPhase f dt) s = .next t ∧ fld t.boot.status 63 60 = 4
            ∧ (∀ k < 32, (t.sump k).mem = []) ∧ t.boot.soaking = !bit s.boot.status 59)
        ∧ (ph = 4 → s.bench = none → exec (.bringupPhase f dt) s = .next { u with boot := { u.boot with status := setFld u.boot.status 63 60 5 } })
        ∧ (ph = 5 → s.boot.soaking = true → exec (.bringupPhase f dt) s = .next u)
        ∧ (ph = 5 → s.boot.soaking = false → ∃ t, exec (.bringupPhase f dt) s = .next t ∧ fld t.boot.status 63 60 = 6 ∧ t.boot.running = false
            ∧ t.map.published = true ∧ t.map.waiting = [] ∧ t.map.gen = s.map.gen + 1 ∧ t.nv.lastReady = true))))
  ∧ (∀ (s u : State) (f : Findings) (dt b c : Nat) (lit : List Nat), u = (s.pass dt).dropLateRequests → c = fld s.boot.status 42 40 →
    lit = ((benchMeadows b).filter fun m => u.meadowState m = 3) → fld s.boot.status 63 60 = 4 → s.bench = some b →
    (c = 1 → (∃ m ∈ benchMeadows b, u.meadowState m = 2 ∨ ∃ r ∈ u.power.requests, r.meadow = m) → exec (.benchStep f dt) s = .next u)
    ∧ ((c ≠ 1 ∨ ∀ m ∈ benchMeadows b, u.meadowState m ≠ 2 ∧ ∀ r ∈ u.power.requests, r.meadow ≠ m) →
      (lit = [] → ∃ t, exec (.benchStep f dt) s = .next t ∧ bit t.boot.status (48 + b) = true)
      ∧ (lit ≠ [] → c = 7 → ∃ t, exec (.benchStep f dt) s = .next t ∧ bit t.boot.status (52 + b) = true ∧ t.boot.found = [] ∧ t.nv.mapStored = true)
      ∧ (lit ≠ [] → c ≠ 7 → ∃ t, exec (.benchStep f dt) s = .next t ∧ fld t.boot.status 42 40 = stepAfter (bit s.boot.status 59) c)))
  ∧ (∀ (s : State) (f : Findings) (dt m c : Nat) (rest : List (Nat × Nat)), fld s.boot.status 63 60 = 6 → s.power.tests = (m, c) :: rest →
    ∃ t, exec (.benchStep f dt) s = .next t ∧ t.power.tests = if c = 7 then rest else (m, if c = 5 then 7 else c + 1) :: rest)
  ∧ (∀ (s : State) (g : Fin 4) (rows : List (Stack × BitVec 21)), s.boot.soaking = true → s.boot.soakDone / 2 = g.val →
    ∃ t, exec (.retentionSoak g rows) s = .next t ∧ t.boot.soakDone = s.boot.soakDone + 1 ∧ t.boot.soaking = decide (s.boot.soakDone + 1 < 8)
      ∧ (s.boot.soakDone = 7 → bit t.boot.status 47 = true)
      ∧ ∀ k < 32, (s.sump k).ready = true → fld (t.sump k).ref 3 0 = if s.boot.soakDone = 7 then 0 else 2 ^ ((s.boot.soakDone + 1) / 2))
  ∧ ∀ (s : State) (r : HostRead) (len : Nat), len = fld s.boot.recCtrl 14 0 → s.boot.recovery = true → fld s.boot.recCtrl 30 28 = 0 →
    ((len < 8 ∨ 16384 < len) → exec (.go r) s = .next { s with boot := { s.boot with recCtrl := setFld s.boot.recCtrl 27 24 1 } })
    ∧ (∀ st, 8 ≤ len → len ≤ 16384 → r = .fail st → exec (.go r) s = .next { s with boot := { s.boot with recCtrl := setFld s.boot.recCtrl 27 24 5 } })
    ∧ ∀ data, 8 ≤ len → len ≤ 16384 → r = .ok data → 1024 * len ≤ data.length →
      (∀ e, imageError s.nv (data.take (1024 * len)) = some e →
        exec (.go r) s = .next { s with boot := { s.boot with recCtrl := setFld s.boot.recCtrl 27 24 e } })
      ∧ (imageError s.nv (data.take (1024 * len)) = none → ∃ t, exec (.go r) s = .next t ∧ t.nv.image = data.take (1024 * len) ∧ t.nv.imageOk = true
          ∧ t.boot.status = 0 ∧ t.boot.recovery = false ∧ t.boot.running = true ∧ t.cores = [] ∧ t.nv.vault = s.nv.vault)

/-- R413, R419 to R423: a management core that stops is restarted, and FAILED when it stops again within 10 minutes; a sett controller silent three times
is dead. A controller takes the good chunks of the announced version and stages support code in its cores; repair follows in at most three
rounds; three failed flash writes end the update; the hold fixes the activation time, at which every complete receiver switches. -/
def Obligations.FirmwareRows : Prop :=
  (∀ (s : State) (g : Gal) (b : Fin 4) (dt last : Nat), last = Tab.get 0 (s.gal g.val).mcExpAt b.val →
    (s.mcState g.val b.val ≠ 1 → s.mcState g.val b.val ≠ 2 → exec (.mcWatchdogExpiry g b dt) s = .next { s with tclk := s.tclk + dt })
    ∧ (s.mcState g.val b.val = 1 → (last = 0 ∨ last + 600000000000 < s.tclk + dt + 1) → ∃ t, exec (.mcWatchdogExpiry g b dt) s = .next t
      ∧ t = { s with tclk := s.tclk + dt, gals := t.gals } ∧ t.mcState g.val b.val = 3 ∧ bit ((t.gal g.val).icu 600) 0 = true)
    ∧ (s.mcState g.val b.val = 1 → last ≠ 0 → s.tclk + dt + 1 ≤ last + 600000000000 → ∃ t, exec (.mcWatchdogExpiry g b dt) s = .next t
      ∧ t.mcState g.val b.val = 4 ∧ bit t.alert 7 = true ∧ (g ≠ 0 → (t.gal g.val).failed = true ∧ (t.gal g.val).linkUp = false))
    ∧ (s.mcState g.val b.val = 3 → exec (.restartComplete g b) s = .next (s.modGal g.val fun x =>
        { x with mcStat := Tab.mod 0 x.mcStat b.val fun v => setFld v 31 28 1 }))
    ∧ (s.mcState g.val b.val ≠ 3 → exec (.restartComplete g b) s = .next s))
  ∧ (∀ (s : State) (i : Site) (x : Sett), x = s.sett i.val →
    ((x.powered = false ∨ s.siteGone i.val = true) → ∀ a, exec (.settControllerProbe i a) s = .next s)
    ∧ (x.powered = true → s.siteGone i.val = false → exec (.settControllerProbe i true) s = .next (s.setSett i.val { x with missed := 0 })
      ∧ (x.missed < 2 → exec (.settControllerProbe i false) s = .next (s.setSett i.val { x with missed := x.missed + 1 }))
      ∧ (2 ≤ x.missed → ∃ t, exec (.settControllerProbe i false) s = .next t ∧ MapItem.deadSite i.val ∈ t.map.waiting
          ∧ ∀ p ∈ s.coresOfSite i.val, (t.core p).fenced = true))
    ∧ ∀ k : Packet,
      ((k.sclass ≠ 4 ∨ k.opc ≠ 15 ∨ x.powered = false) → exec (.fwchunk i k) s = .next s)
      ∧ (k.sclass = 4 → k.opc = 15 → x.powered = true → ∃ t, exec (.fwchunk i k) s = .next t ∧ (t.sett i.val) = { x with fw := x.fw.take k }
        ∧ (∀ j, j ≠ i.val → t.sett j = s.sett j) ∧ (∀ p, (t.core p).sp = (s.core p).sp ∧ (t.core p).seq = (s.core p).seq)
        ∧ ∀ a c, k.aux.toNat < 2 → x.fw.take k ≠ x.fw → (x.fw.take k).chunk 0 = some a → (x.fw.take k).chunk 1 = some c →
            ∀ p ∈ s.physCores i.val, t.core p = (s.core p).stageSupport (a ++ c)))
  ∧ (∀ (s u v : State) (dt : Nat), u = s.pass dt →
    v = { u.checkParts with fw := { u.checkParts.fw with state := setFld u.checkParts.fw.state 31 16 u.checkParts.fwComplete } } →
    (3 ≤ s.fw.phase → s.fw.phase ≤ 4 → s.fw.cmd.isSome = true → bit s.fw.state 56 = false → s.fw.repaired = false →
      ((v.fwLate = [] ∨ (v.fw.phase = 4 ∧ fld v.fw.state 59 58 = 3)) → exec (.repairRoundEnd dt) s = .next v.endRepair)
      ∧ (v.fwLate ≠ [] → v.fw.phase = 3 → exec (.repairRoundEnd dt) s = .next (v.repairRound 1))
      ∧ (v.fwLate ≠ [] → v.fw.phase = 4 → fld v.fw.state 59 58 < 3 → exec (.repairRoundEnd dt) s = .next (v.repairRound (fld v.fw.state 59 58 + 1))))
    ∧ ((s.fw.phase < 3 ∨ 4 < s.fw.phase) → (s.fw.cmd = none ∨ bit s.fw.state 56 = true ∨ s.fw.repaired = true) → exec (.repairRoundEnd dt) s = .next u))
  ∧ (∀ (s t : State), t = s.edge 0 599 →
    (bit s.fw.state 57 = false → ∀ ok, exec (.flashWriteDone ok) s = .next s)
    ∧ (bit s.fw.state 57 = true →
      (bit s.fw.state 56 = false → exec (.flashWriteDone true) s = .next { t with
        nv := { s.nv with image := s.fw.newImage, imageOk := true }, fw := { s.fw with state := setBit s.fw.state 57 false } })
      ∧ (s.fw.tries < 2 → exec (.flashWriteDone false) s = .next { t with fw := { s.fw with tries := s.fw.tries + 1 } })
      ∧ (2 ≤ s.fw.tries → s.fw.cmd.isSome = true → ∃ u, exec (.flashWriteDone false) s = .next u ∧ fld u.fw.state 63 60 = 7 ∧ u.fw.cmd = none
          ∧ u.nv = s.nv)))
  ∧ ∀ (s u : State) (dt now : Nat), u = { s with tclk := s.tclk + dt } → now = u.g0Time.toNat →
    (s.fw.cmd.isSome = true → s.fw.phase = 4 → s.fw.repaired = true → bit s.fw.state 57 = false → s.fw.actTime.toNat ≤ now + 1000000 →
      s.fw.tAct = none → s.ledger.state = .idle → s.fill.running = none → exec (.holdBegin dt) s = .next { u with
        sched := { s.sched with held := true }
        fw := { s.fw with state := setFld s.fw.state 63 60 5, tAct := some (BitVec.ofNat 64 (max s.fw.actTime.toNat (now + 1000000)))
                          act := BitVec.ofNat 64 (max s.fw.actTime.toNat (now + 1000000)) } })
    ∧ (s.fw.phase ≠ 4 → s.fw.phase ≠ 5 → exec (.holdBegin dt) s = .next u)
    ∧ (s.fw.tAct = none → exec (.activation dt) s = .next u)
    ∧ ∀ a, s.fw.tAct = some a →
      (now < a.toNat → exec (.activation dt) s = .next u)
      ∧ (a.toNat ≤ now → s.fw.restarting = false → s.fwLate = [] → s.fw.sites.Nodup → ∃ t, exec (.activation dt) s = .next t
        ∧ t.fw.version = imageVersion s.fw.newImage ∧ t.fw.running = s.fw.newImage ∧ t.fw.restarting = true
        ∧ ∀ p, t.core p = if siteOf p ∈ s.fw.sites ∧ p ∉ s.nv.deadCores then { s.core p with supHalf := !(s.core p).supHalf } else s.core p)
      ∧ (a.toNat ≤ now → s.fw.restarting = true → s.fw.cmd.isSome = true → ∃ t, exec (.activation dt) s = .next t
        ∧ fld t.fw.state 63 60 = 6 ∧ t.fw.cmd = none ∧ t.fw.tAct = none ∧ t.sched.held = false)

/-- R424 to R427: a claim takes the claimable source of the highest priority, the lowest number on a tie, and no source is claimed twice; a completion
frees it; an edge of a source makes it pending; GDIS holds all sources back. -/
def Obligations.InterruptRows : Prop :=
  (∀ (s : State) (g : Gal) (b : Fin 4) (x : Gallery), x = s.gal g.val →
    ((∀ n < 1024, x.claimable b.val n = false) → exec (.icuClaim g b) s = .next { s.setGal g.val x with access := { status := 0, data := leBytes 4 0 } })
    ∧ ∀ n, n < 1024 → x.claimable b.val n = true →
      (∀ m < 1024, x.claimable b.val m = true → fld (x.icu m) 29 27 < fld (x.icu n) 29 27 ∨ (fld (x.icu m) 29 27 = fld (x.icu n) 29 27 ∧ n ≤ m)) →
      ∃ t, exec (.icuClaim g b) s = .next t ∧ t = { s with gals := t.gals, access := { status := 0, data := leBytes 4 (2 ^ 31 + n) } }
        ∧ bit ((t.gal g.val).icu n) 30 = true ∧ bit ((t.gal g.val).icu n) 0 = levelSource n
        ∧ (∀ m, m ≠ n → (t.gal g.val).icu m = x.icu m) ∧ ∀ c : Fin 4, (t.gal g.val).claimable c.val n = false)
  ∧ (∀ (s : State) (g : Gal) (b : Fin 4) (v : BitVec 32) (n : Nat), n = fld v 9 0 →
    (Tab.get 0 (s.gal g.val).claims n ≠ b.val + 1 → exec (.icuComplete g b v) s = .next s)
    ∧ (Tab.get 0 (s.gal g.val).claims n = b.val + 1 → ∃ t, exec (.icuComplete g b v) s = .next t ∧ t = { s with gals := t.gals }
      ∧ bit ((t.gal g.val).icu n) 30 = false ∧ (levelSource n = true → bit ((t.gal g.val).icu n) 0 = s.levelHolds g.val n)
      ∧ (levelSource n = false → bit ((t.gal g.val).icu n) 0 = bit ((s.gal g.val).icu n) 0) ∧ Tab.get 0 (t.gal g.val).claims n = 0))
  ∧ (∀ (s : State) (g : Gal) (n : Fin 1024), hasSource g.val n.val = true → ∃ t, exec (.interruptEdge g n) s = .next t ∧ t = { s with gals := t.gals }
      ∧ bit ((t.gal g.val).icu n.val) 0 = true ∧ (∀ m, m ≠ n.val → (t.gal g.val).icu m = (s.gal g.val).icu m)
      ∧ ∀ h, h ≠ g.val → t.gal h = s.gal h)
  ∧ (∀ (s : State) (g : Gal) (v : BitVec 32), ∃ t, exec (.icuSgi g v) s = .next t ∧ t = { s with gals := t.gals }
      ∧ bit ((t.gal g.val).icu (64 * fld v 5 4 + fld v 3 0)) 0 = true
      ∧ ∀ m, m ≠ 64 * fld v 5 4 + fld v 3 0 → (t.gal g.val).icu m = (s.gal g.val).icu m)
  ∧ ∀ (s : State) (g : Gal) (v : BitVec 32), ∃ t, exec (.gdis g v) s = .next t ∧ t = { s with gals := t.gals }
      ∧ bit (t.gal g.val).icuCtrl 31 = bit v 31 ∧ (∀ n, (t.gal g.val).icu n = (s.gal g.val).icu n)
      ∧ (bit v 31 = true → ∀ b n, (t.gal g.val).claimable b n = false)

/-- R290 to R301, R307 to R316, R319, R322: a doorbell moves its index, a bad one stops the queue pair, one of an absent pair is counted; a fetch takes
the commands at the head into the checks of R320; a post writes the oldest record and advances tail and phase; messages are sent or kept
pending; requests end with the link's outcome; links and functions go down and come up, and a reset leaves no queue pair behind. -/
def Obligations.HostInterfaceRows : Prop :=
  (∀ (s t : State) (port : Gal) (vf : Fin 64) (qp : Fin 1024) (v : BitVec 32) (f k n : Nat), f = fnIndex port vf → k = qpKey f qp.val → n = fld v 15 0 →
    s.fnExists port.val vf.val = true →
    (t = s.edge port.val 256 →
      (s.qp k = none → exec (.sqDoorbell port vf qp v) s = .next (t.modFn f fun x => { x with err := satFld x.err 15 0 1 }))
      ∧ ∀ q, s.qp k = some q →
        (n = q.sqTail → exec (.sqDoorbell port vf qp v) s = .next t)
        ∧ (n ≠ q.sqTail → n < q.sqDepth → exec (.sqDoorbell port vf qp v) s = .next (t.setQp k (some { q with sqTail := n })))
        ∧ (n ≠ q.sqTail → q.sqDepth ≤ n → ∃ u, exec (.sqDoorbell port vf qp v) s = .next u ∧ (∃ p, u.qp k = some p ∧ p.error = true ∧ p.sqTail = q.sqTail)
            ∧ bit (u.fn f).err 31 = true ∧ fld (u.fn f).err 30 29 = 0 ∧ fld (u.fn f).err 25 16 = qp.val))
    ∧ (t = s.edge port.val 257 →
      (s.qp k = none → exec (.cqDoorbell port vf qp v) s = .next (t.modFn f fun x => { x with err := satFld x.err 15 0 1 }))
      ∧ ∀ q, s.qp k = some q →
        (n = q.cqHead → exec (.cqDoorbell port vf qp v) s = .next t)
        ∧ (n ≠ q.cqHead → n < q.cqDepth → ringUsed q.cqDepth q.cqHead n ≤ ringUsed q.cqDepth q.cqHead q.cqTail →
            exec (.cqDoorbell port vf qp v) s = .next ((t.setQp k (some { q with cqHead := n })).pumpQp k))
        ∧ (n ≠ q.cqHead → (q.cqDepth ≤ n ∨ ringUsed q.cqDepth q.cqHead q.cqTail < ringUsed q.cqDepth q.cqHead n) →
            ∃ u, exec (.cqDoorbell port vf qp v) s = .next u ∧ (∃ p, u.qp k = some p ∧ p.error = true) ∧ fld (u.fn f).err 30 29 = 1)))
  ∧ (∀ (s : State) (port : Gal) (vf : Fin 64) (qp : Fin 1024) (q : Qp) (k : Nat), k = qpKey (fnIndex port vf) qp.val → s.qp k = some q →
    (s.mayFetch k q = false → ∀ r, exec (.sqFetch port vf qp r) s = .next s)
    ∧ (s.mayFetch k q = true →
      (∀ st, ∃ u, exec (.sqFetch port vf qp (.fail st)) s = .next u ∧ (∃ p, u.qp k = some p ∧ p.error = true) ∧ fld (u.fn (fnIndex port vf)).err 30 29 = 2)
      ∧ (∀ data d, bit (descOf data none).w0 48 = false → 1 ≤ ringUsed q.sqDepth q.sqHead q.sqTail → d = descOf (data.take 64) none → exec (.sqFetch port vf qp (.ok data)) s = .next
          ((s.setQp k (some { q with sqHead := (q.sqHead + 1) % q.sqDepth, reserved := q.reserved + 1 })).acceptCmd { src := .queue port vf qp, desc := d }))
      ∧ (∀ data d, bit (descOf data none).w0 48 = true → 2 ≤ ringUsed q.sqDepth q.sqHead q.sqTail → d = descOf (data.take 64) (some ((data.drop 64).take 64)) →
          exec (.sqFetch port vf qp (.ok data)) s = .next
          ((s.setQp k (some { q with sqHead := (q.sqHead + 2) % q.sqDepth, reserved := q.reserved + 1 })).acceptCmd { src := .queue port vf qp, desc := d })))
    ∧ (q.due = [] → ∀ ok, exec (.cqPost port vf qp ok) s = .next s)
    ∧ ∀ r rest q' u, q.due = r :: rest → s.fnLive (fnIndex port vf) = true →
      q' = { q with due := rest, reserved := q.reserved - 1, cqTail := (q.cqTail + 1) % q.cqDepth
                    phase := if (q.cqTail + 1) % q.cqDepth = 0 then !q.phase else q.phase } →
      u = { s.setQp k (some q') with host := { (s.setQp k (some q')).host with
        out := s.host.out ++ [HostOut.write port.val vf.val (q.cqBase + BitVec.ofNat 48 (32 * q.cqTail)) (r.bytes q.sqHead qp.val q.phase)] } } →
      (∃ t, exec (.cqPost port vf qp false) s = .next t ∧ (∃ p, t.qp k = some p ∧ p.error = true ∧ r ∈ p.due) ∧ fld (t.fn (fnIndex port vf)).err 30 29 = 3)
      ∧ ((r.opcode ≠ 0x36 ∨ r.status ≠ 0) → exec (.cqPost port vf qp true) s = .next ((u.coalesce k).answerAborts).closeStep)
      ∧ (r.opcode = 0x36 → r.status = 0 → exec (.cqPost port vf qp true) s = .next ((State.coalesce { u with
          boot := { u.boot with resetAt := some (s.tclk + 1000000) } } k).answerAborts).closeStep))
  ∧ (∀ (s : State) (c : Cmd) (t : State), t = { s with host := { s.host with inProg := s.host.inProg ++ [c] } } →
    (c.op ∉ opcodes → s.checkCmd c = t.completeSt c 0x03)
    ∧ (c.op ∈ opcodes →
      (t.permitted c = false → s.checkCmd c = t.completeSt c 0x05)
      ∧ (t.permitted c = true →
        (t.fnState ≠ 1 → c.op ≠ 0x40 → c.op ≠ 0x48 → s.checkCmd c = t.completeSt c 0x02)
        ∧ ((t.fnState = 1 ∨ c.op = 0x40 ∨ c.op = 0x48) → c.paired = false →
          (t.fieldsOk c = false → s.checkCmd c = t.completeSt c 0x04)
          ∧ (t.fieldsOk c = true → t.ctxOk c = false → s.checkCmd c = t.completeSt c 0x06)
          ∧ (t.fieldsOk c = true → t.ctxOk c = true → t.unfenced c = false → s.checkCmd c = t.completeSt c 0x30)
          ∧ (t.fieldsOk c = true → t.ctxOk c = true → t.unfenced c = true → s.checkCmd c = { t with host := { t.host with toDo := t.host.toDo ++ [c] } })))))
  ∧ (∀ (s t : State) (port : Gal) (vf : Fin 64) (qp : Fin 1024) (dt f k : Nat) (q : Qp), f = fnIndex port vf → k = qpKey f qp.val → s.qp k = some q →
    t = { s with tclk := s.tclk + dt } →
    ((q.unsig = 0 ∨ q.time = 0 ∨ t.tclk < q.unsigAt + 100 * q.time.toNat ∨ (s.fn f).d3hot = true) → exec (.msixCoalesceTimeout port vf qp dt) s = .next t)
    ∧ (q.unsig ≠ 0 → q.time ≠ 0 → q.unsigAt + 100 * q.time.toNat ≤ t.tclk → (s.fn f).d3hot = false →
      exec (.msixCoalesceTimeout port vf qp dt) s = .next ((t.setQp k (some { q with unsig := 0 })).signal f q.vector)))
  ∧ (∀ (s t : State) (port : Gal) (vf : Fin 64) (v : Fin 2048) (f : Nat), f = fnIndex port vf → s.fnExists port.val vf.val = true →
    t = s.modFn f (fun x => { x with mask := Tab.set true x.mask v.val false }) →
    ((s.fn f).fnMask = true ∨ Tab.get false (s.fn f).pendBit v.val = false → exec (.msixUnmask port vf v) s = .next t)
    ∧ ((s.fn f).fnMask = false → Tab.get false (s.fn f).pendBit v.val = true → ∃ u, exec (.msixUnmask port vf v) s = .next u
      ∧ u.host.out = s.host.out ++ [HostOut.msix port.val vf.val v.val] ∧ Tab.get false (u.fn f).pendBit v.val = false ∧ Tab.get true (u.fn f).mask v.val = false)
    ∧ (∀ x, x = s.fn f →
      ((s.hasIo f = true ∨ bit x.aqCfg 31 = true ∨ fld x.aqCfg 11 0 = 0 ∨ fld x.aqCfg 27 16 = 0) → exec (.aqEnable port vf) s = .next s)
      ∧ (s.hasIo f = false → bit x.aqCfg 31 = false → fld x.aqCfg 11 0 ≠ 0 → fld x.aqCfg 27 16 ≠ 0 → ∃ u q, exec (.aqEnable port vf) s = .next u
        ∧ u.qp (qpKey f 0) = some q ∧ q.sqDepth = fld x.aqCfg 11 0 + 1 ∧ q.cqDepth = fld x.aqCfg 27 16 + 1 ∧ q.sqHead = 0 ∧ q.sqTail = 0 ∧ q.cqHead = 0
        ∧ q.cqTail = 0 ∧ q.phase = true ∧ q.error = false ∧ q.sqBase = x.asqBase.setWidth 48 ∧ q.cqBase = x.acqBase.setWidth 48))
    ∧ (∀ d3, exec (.dStateChange port vf d3) s = .next (State.edge (s.modFn f fun x => { x with d3hot := d3 }) port.val 259))
    ∧ ∃ u, exec (.flr port vf) s = .next u ∧ (∀ q < 1024, u.qp (qpKey f q) = none) ∧ (u.fn f).d3hot = false ∧ (u.fn f).mask = [] ∧ (u.fn f).pendBit = []
      ∧ bit (u.fn f).aqCfg 31 = false)
  ∧ (∀ (s : State) (port : Gal),
    (∀ b, (s.gal port.val).vfsOn = b → exec (.vfEnable port b) s = .next s)
    ∧ ((s.gal port.val).vfsOn = false → exec (.vfEnable port true) s = .next
      (State.edge (s.modGal port.val fun x => { x with vfsOn := true }).closeStep port.val 259))
    ∧ ((s.gal port.val).vfsOn = true → ∃ u, exec (.vfEnable port false) s = .next u ∧ (u.gal port.val).vfsOn = false
      ∧ ∀ vf, 1 ≤ vf → vf < 64 → ∀ q < 1024, u.qp (qpKey (64 * port.val + vf) q) = none)
    ∧ (∀ kind, ∃ u, exec (.perst port kind) s = .next u ∧ (u.gal port.val).linkUp = false ∧ ∀ vf < 64, ∀ q < 1024, u.qp (qpKey (64 * port.val + vf) q) = none)
    ∧ (∀ up, (s.gal port.val).linkUp = up → exec (.portLinkDown port up) s = .next s)
    ∧ ((s.gal port.val).linkUp = true → (∀ r ∈ s.host.reqs, r.port ≠ port.val) → exec (.portLinkDown port false) s = .next
      (State.edge (s.modGal port.val fun x => { x with linkUp := false }).closeStep port.val 258))
    ∧ ((s.gal port.val).linkUp = false → (s.gal port.val).failed = false → s.pins.rimGood = true → s.pins.panelResetN = true →
      (s.boot.recovery = false ∨ port = 0) → exec (.portLinkDown port true) s = .next
      (State.edge (s.modGal port.val fun x => { x with linkUp := true }) port.val 258)))
  ∧ ∀ (s t : State) (port : Gal) (id : Nat) (r : HostReq), s.host.reqs.find? (fun r => r.port = port.val && r.id = id) = some r → r.packet.opc = 1 →
    t = { s with host := { s.host with reqs := s.host.reqs.erase r } } →
    (∀ data, exec (.hostCompletion port id (.success data)) s = .next
      (t.send [readAnswer r.packet (srcGal r.port 0) 4 stOk (data.take r.packet.len.toNat)]).closeStep)
    ∧ exec (.hostCompletion port id .unsupported) s = .next (t.send [readAnswer r.packet (srcGal r.port 0) 4 stDenied []]).closeStep
    ∧ exec (.hostCompletion port id .completerAbort) s = .next (t.send [readAnswer r.packet (srcGal r.port 0) 4 stDenied []]).closeStep
    ∧ exec (.hostCompletion port id .poisoned) s = .next (t.send [readAnswer r.packet (srcGal r.port 0) 4 stUe []]).closeStep
    ∧ exec (.completionTimeout port id) s = .next (t.send [readAnswer r.packet (srcGal r.port 0) 4 stTimeout []]).closeStep

/-- R7, R26, R27, R296, R297, R418, R438: how registers are reached from outside. An access that no block answers gives its status and zeros; the
aperture reaches its block as HOST; the TAP's instructions do what the debug level allows, and without rim power nothing. -/
def Obligations.AccessRows : Prop :=
  (∀ (s : State) (cls : BitVec 3) (a : BitVec 48) (wide : Bool) (v : BitVec 64) (st : BitVec 4), st = s.blockStatus cls a.toNat →
    (st ≠ 0 → exec (.registerWrite (.fabric cls a) wide v) s = .next { s with access := { status := st, data := [] } })
    ∧ ∀ r, st = 0 → r = s.regWrite cls a.toNat (leBytes (if wide then 8 else 4) v.toNat) →
      exec (.registerWrite (.fabric cls a) wide v) s = .next { r.1 with access := { status := r.2, data := [] } })
  ∧ (∀ (s : State) (port : Gal) (vf : Fin 64) (off : BitVec 18) (v : BitVec 64),
    (s.fnExists port.val vf.val = true → (s.gal port.val).linkUp = true → s.served = true →
      exec (.registerWrite (.bar0 port vf off) false v) s = .next (s.bar0Write (fnIndex port vf) off.toNat (v.setWidth 32))
      ∧ exec (.registerWrite (.bar0 port vf off) true v) s = .next
        ((s.bar0Write (fnIndex port vf) off.toNat (v.setWidth 32)).bar0Write (fnIndex port vf) (off.toNat + 4) ((v >>> 32).setWidth 32)))
    ∧ ((s.fnExists port.val vf.val = false ∨ (s.gal port.val).linkUp = false ∨ s.served = false) →
      ∀ wide, exec (.registerWrite (.bar0 port vf off) wide v) s = .next s)
    ∧ ∀ f q w, q < 1024 → s.bar0Write f (0x10000 + 8 * q) w = s.sqBell (qpKey f q) (fld w 15 0)
        ∧ s.bar0Write f (0x10004 + 8 * q) w = s.cqBell (qpKey f q) (fld w 15 0))
  ∧ (∀ (s : State) (v : BitVec 64), s.boot.recovery = true →
    exec (.registerWrite (.recovery 0) true v) s = .next { s with boot := { s.boot with recAddr := v &&& 0x1FFFFFFFF000 } }
    ∧ (∀ wide, exec (.registerWrite (.recovery 8) wide v) s = .next { s with boot := { s.boot with recCtrl := setFld s.boot.recCtrl 14 0 (fld v 14 0) } })
    ∧ exec (.registerWrite (.recovery 4) false v) s = .next { s with boot := { s.boot with recAddr := setFld s.boot.recAddr 63 32 (fld v 31 0) &&& 0x1FFFFFFFF000 } })
  ∧ (∀ (s : State) (off : BitVec 24) (wide : Bool) (v : BitVec 64) (a : Nat) (st : BitVec 4), a = 0x600000000000 + fld s.sec.aperture 43 24 * 0x1000000 + off.toNat →
    st = s.blockStatus 2 a →
    ((s.fnExists 0 0 = false ∨ (s.gal 0).linkUp = false ∨ s.served = false) → ∀ w, exec (.apertureAccess w off wide v) s = .next s)
    ∧ (s.fnExists 0 0 = true → (s.gal 0).linkUp = true → s.served = true →
      (st ≠ 0 → exec (.apertureAccess false off wide v) s = .next { s with access := { status := st, data := List.replicate (if wide then 8 else 4) 0 } })
      ∧ (∀ r, st = 0 → r = s.regRead 2 a (if wide then 8 else 4) → exec (.apertureAccess false off wide v) s = .next
          { r.1 with access := { status := r.2.1, data := r.2.2 } })
      ∧ ∀ r, st = 0 → r = s.regWrite 2 a (leBytes (if wide then 8 else 4) v.toNat) → exec (.apertureAccess true off wide v) s = .next
          { r.1 with access := { status := r.2, data := [] } }))
  ∧ ∀ (s : State),
    (s.pins.rimGood = false → exec .bypass s = .next s ∧ exec .idcode s = .next s ∧ exec .extest s = .next s ∧ exec .tapReset s = .next s
      ∧ (∀ w a wide v, exec (.secAccess w a wide v) s = .next s) ∧ ∀ w a n d, exec (.tapDebugAccess w a n d) s = .next s)
    ∧ (s.pins.rimGood = true → exec .bypass s = .next { s with sec := { s.sec with tap := 1 } }
      ∧ exec .idcode s = .next { s with sec := { s.sec with tap := 0 }, access := { status := 0, data := leBytes 4 Config.idcode.toNat } }
      ∧ exec .tapReset s = .next { s with sec := { s.sec with tap := 0 } }
      ∧ exec .extest s = .next { s with sec := { s.sec with tap := if s.sec.level = 2 then 3 else 1 } }
      ∧ (∀ w (a : BitVec 48) n d, s.sec.level ≠ 2 → exec (.tapDebugAccess w a n d) s = .next { s with sec := { s.sec with tap := 1 } })
      ∧ (∀ w (a : BitVec 48) (n : BitVec 14) d st, s.sec.level = 2 → 1 ≤ n.toNat → a.toNat % 4096 + n.toNat ≤ 4096 → s.resolve true a.toNat = .error st →
          exec (.tapDebugAccess w a n d) s = .next { s with sec := { s.sec with tap := 4 }, access := { status := firstBad 0 st
                                                                                                        data := if w then [] else List.replicate n.toNat 0 } })
      ∧ (∀ (a : BitVec 48) (n : BitVec 14) d (u : State) dest, s.sec.level = 2 → 1 ≤ n.toNat → a.toNat % 4096 + n.toNat ≤ 4096 → s.resolve true a.toNat = .ok dest →
          u = { s with sec := { s.sec with tap := 4 }, access := { status := 0, data := [] } } →
          (∀ t bs, u.serveRead (debugPacket false a.toNat [] n.toNat) = (t, .answer 0 bs) →
            exec (.tapDebugAccess false a n d) s = .next { t with access := { status := 0, data := bs } })
          ∧ (∀ t st, d.length = n.toNat → u.serveWrite (debugPacket true a.toNat d n.toNat) = (t, some st) →
            exec (.tapDebugAccess true a n d) s = .next { t with access := { status := st, data := [] } }))
      ∧ ∀ (t : State) (a : BitVec 48) (wide : Bool) (v : BitVec 64), t = { s with sec := { s.sec with tap := 2 } } →
        (t.secReach false (decodeAddr a.toNat) = false → exec (.secAccess false a wide v) s = .next
            { t with access := { status := stDenied, data := List.replicate (if wide then 8 else 4) 0 } })
        ∧ (t.secReach true (decodeAddr a.toNat) = false → exec (.secAccess true a wide v) s = .next { t with access := { status := stDenied, data := [] } })
        ∧ (∀ r, t.secReach false (decodeAddr a.toNat) = true → t.blockStatus 4 a.toNat = 0 → r = t.regRead 4 a.toNat (if wide then 8 else 4) →
            exec (.secAccess false a wide v) s = .next { r.1 with access := { status := r.2.1, data := r.2.2 } })
        ∧ ∀ r, t.secReach true (decodeAddr a.toNat) = true → t.blockStatus 4 a.toNat = 0 → r = t.regWrite 4 a.toNat (leBytes (if wide then 8 else 4) v.toNat) →
            exec (.secAccess true a wide v) s = .next { r.1 with access := { status := r.2, data := [] } })

/-- R317, R442, R443, R445: the SPDM responder answers Busy during an activation or an operation that applies, UnsupportedRequest to the later requests
before PROVISIONED and after RETIRED, and else the answer of the request, signed by the alias key; nothing comes while the endpoint is down.
MCTP messages of types 0, 5 and 0x7E reach it, others get no response. -/
def Obligations.SpdmRows : Prop :=
  (∀ s : State, s.mctpUp = false → exec .getVersion s = .next s ∧ exec .getCapabilities s = .next s ∧ exec .negotiateAlgorithms s = .next s
    ∧ exec .getDigests s = .next s ∧ (∀ o l, exec (.getCertificate o l) s = .next s) ∧ (∀ n, exec (.challenge n) s = .next s)
    ∧ (∀ i n, exec (.getMeasurements i n) s = .next s) ∧ ∀ ty b, exec (.mctpMessage ty b) s = .next s)
  ∧ (∀ (s : State) (say : SpdmAns → State), (say = fun a => { s with host := { s.host with mctp := s.host.mctp ++ [MctpOut.spdm a] } }) → s.mctpUp = true →
    ((s.fw.restarting = true ∨ s.applying = true) → exec .getVersion s = .next (say .busy) ∧ exec .getDigests s = .next (say .busy)
      ∧ ∀ i n, exec (.getMeasurements i n) s = .next (say .busy))
    ∧ (s.fw.restarting = false → s.applying = false →
      exec .getVersion s = .next (say .version) ∧ exec .getCapabilities s = .next (say .capabilities) ∧ exec .negotiateAlgorithms s = .next (say .algorithms)
      ∧ ((s.nv.lifecycle = 0 ∨ s.nv.lifecycle = 3) → exec .getDigests s = .next (say .unsupported) ∧ (∀ o l, exec (.getCertificate o l) s = .next (say .unsupported))
        ∧ (∀ n, exec (.challenge n) s = .next (say .unsupported)) ∧ ∀ i n, exec (.getMeasurements i n) s = .next (say .unsupported))
      ∧ (∀ d, s.nv.lifecycle ≠ 0 → s.nv.lifecycle ≠ 3 → d = Config.sha256 (Config.certificate s.aliasDigest 0 65536) →
        exec .getDigests s = .next (say (.digests d))
        ∧ (∀ o l : BitVec 16, exec (.getCertificate o l) s = .next (say (.certificate (Config.certificate s.aliasDigest o.toNat l.toNat))))
        ∧ (∀ n m : BitVec 256, m = Config.fresh s.free → exec (.challenge n) s = .next { say (.challengeAuth m
            (Config.sign s.aliasDigest (leBytes 32 n.toNat ++ leBytes 32 m.toNat ++ leBytes 32 d.toNat))) with free := s.free + 1 })
        ∧ ∀ (i : BitVec 8) (n m : BitVec 256) bl, m = Config.fresh s.free → bl = (measurementList i).map (fun j => (j, s.measurement j)) →
          exec (.getMeasurements i n) s = .next { say (.measurements bl m (Config.sign s.aliasDigest (leBytes 32 n.toNat ++ leBytes 32 m.toNat ++ bl.flatMap (·.2)))) with
            free := s.free + 1 })))
  ∧ ∀ (s t : State) (body : List Byte), s.mctpUp = true → t = s.edge 0 261 →
    (∀ ty : BitVec 8, ty ≠ 0 → ty ≠ 5 → ty ≠ 0x7E → exec (.mctpMessage ty body) s = .next t)
    ∧ (∀ (e a : Byte), body = [0x80, 1, a, e] → e ≠ 0 → e ≠ 0xFF → exec (.mctpMessage 0 body) s = .next { t with host := { t.host with
        eid := some e, mctp := t.host.mctp ++ [MctpOut.control [0, 1, 0, 0, e, 0]] } })
    ∧ (body.length = 64 → exec (.mctpMessage 0x7E body) s = .next (t.acceptCmd { src := .mctp, desc := descOf body none }))
    ∧ (body.length = 128 → exec (.mctpMessage 0x7E body) s = .next (t.acceptCmd { src := .mctp, desc := descOf (body.take 64) (some (body.drop 64)) }))
    ∧ (body.length ≠ 64 → body.length ≠ 128 → exec (.mctpMessage 0x7E body) s = .next t)
    ∧ (t.mctpUp = true → ∀ a rest,
      exec (.mctpMessage 5 (a :: 0x84 :: rest)) s = exec .getVersion t ∧ exec (.mctpMessage 5 (a :: 0xE1 :: rest)) s = exec .getCapabilities t
      ∧ exec (.mctpMessage 5 (a :: 0xE3 :: rest)) s = exec .negotiateAlgorithms t ∧ exec (.mctpMessage 5 (a :: 0x81 :: rest)) s = exec .getDigests t)

/-- R429 to R437: NEW draws a nonce and makes SEC_AUTH READY; an operation that is barred, not allowed by the lifecycle, late, unsigned or has a bad
argument FAILS with its error and does nothing; one that verifies does what its row of R433 says and is DONE; the debug level moves only
between OFF and OBSERVE by a write. -/
def Obligations.AuthRows : Prop :=
  (∀ s : State, (s.sec.state ≠ 3 → exec .new s = .next { s with
      free := s.free + 1, sec := { s.sec with authCtrl := setFld (setFld s.sec.authCtrl 29 27 1) 23 20 0, nonce := Config.fresh s.free, nonceAt := s.tclk } })
    ∧ (s.sec.state = 3 → exec .new s = .next s)
    ∧ ∀ v : BitVec 32, ((s.sec.level = 2 ∨ 2 ≤ fld v 1 0) → exec (.secDbgCtrlWrite v) s = .next s)
      ∧ (s.sec.level ≠ 2 → fld v 1 0 < 2 → exec (.secDbgCtrlWrite v) s = .next { s with sec := { s.sec with level := BitVec.ofNat 2 (fld v 1 0) } }))
  ∧ (∀ (s u : State) (row : Instr) (op : Nat), (row, op) ∈ [(Instr.unlockFull, 1), (.provision, 2), (.claim, 3), (.keyAdd, 4), (.keyRevoke, 5), (.svnCommit, 6),
      (.retire, 7), (.listsClear, 8)] → u = { s with sec := { s.sec with authCtrl := setFld s.sec.authCtrl 7 0 op } } →
    (s.sec.state ≠ 1 → s.sec.state ≠ 3 → exec row s = .next s)
    ∧ (s.sec.state = 1 →
      (s.authBusy = true → exec row s = .next { u with sec := u.sec.setState 5 5 })
      ∧ (s.authBusy = false → opAllowed op s.nv.lifecycle = false → exec row s = .next { u with sec := u.sec.setState 5 1 })
      ∧ (s.authBusy = false → opAllowed op s.nv.lifecycle = true →
        (s.sec.nonceAt + 600000000000 < s.tclk → exec row s = .next { u with sec := u.sec.setState 5 3 })
        ∧ (s.tclk ≤ s.sec.nonceAt + 600000000000 →
          (u.authSigned op = false → exec row s = .next { u with sec := u.sec.setState 5 2 })
          ∧ (u.authSigned op = true → u.argBad op = true → exec row s = .next { u with sec := u.sec.setState 5 4 })
          ∧ (u.authSigned op = true → u.argBad op = false →
            (op = 2 → exec row s = .next { u with nv := { s.nv with lifecycle := 1 }, sec := u.sec.setState 4 0 })
            ∧ (op = 3 → exec row s = .next { u with nv := { s.nv with lifecycle := 2, fleetKey := Tab.set 0 s.nv.fleetKey 0 s.sec.arg, fleetUsed := setBit s.nv.fleetUsed 0 true }
                                                    sec := { u.sec.setState 4 0 with slotsOk := setBit s.sec.slotsOk 0 true } })
            ∧ (∀ n, op = 4 → n < 4 → bit s.nv.fleetUsed n = false → bit s.nv.fleetRevoked n = false →
                (∀ m < n, bit s.nv.fleetUsed m = true ∨ bit s.nv.fleetRevoked m = true) →
                exec row s = .next { u with nv := { s.nv with fleetKey := Tab.set 0 s.nv.fleetKey n s.sec.arg, fleetUsed := setBit s.nv.fleetUsed n true }
                                            sec := { u.sec.setState 4 0 with slotsOk := setBit s.sec.slotsOk n true } })
            ∧ (op = 5 → exec row s = .next { u with nv := { s.nv with fleetRevoked := setBit s.nv.fleetRevoked s.sec.arg.toNat true }, sec := u.sec.setState 4 0 })
            ∧ (op = 6 → exec row s = .next { u with nv := { s.nv with minSvn := BitVec.ofNat 8 (max s.nv.minSvn.toNat (min 64 s.fw.svn.toNat)) }
                                                    sec := u.sec.setState 4 0 })
            ∧ (op = 8 → exec row s = .next { u with nv := { s.nv with clearLists := true }, sec := u.sec.setState 4 0 })
            ∧ (op = 7 → s.ctxs = [] → ∃ t, exec row s = .next t ∧ t.nv = { s.nv with lifecycle := 3 } ∧ t.sec.state = 4)
            ∧ (op = 1 → s.ctxs = [] → ∃ t, exec row s = .next t ∧ t.nv = { s.nv with fullCount := s.nv.fullCount + 1 } ∧ t.sec.state = 4
                ∧ t.sec.level = 2 ∧ t.sec.fullSince = true ∧ t.sched.held = false
                ∧ ∀ p, (s.logicalOf p).isSome = true → (t.core p).sp.mem = [] ∧ (t.core p).istore = [] ∧ (t.core p).res0 = .reset ∧ (t.core p).res1 = .reset))))))
  ∧ ∀ s : State, s.sec.state = 3 →
    ((s.ctxs ≠ [] ∨ fld s.sec.authCtrl 7 0 ≠ 1) → exec .unlockFull s = .next s)
    ∧ ((s.ctxs ≠ [] ∨ fld s.sec.authCtrl 7 0 ≠ 7) → exec .retire s = .next s)
    ∧ (s.ctxs = [] → fld s.sec.authCtrl 7 0 = 7 → exec .retire s = .next { s with nv := { s.nv with lifecycle := 3 }, sec := s.sec.setState 4 0 })
    ∧ (s.ctxs = [] → fld s.sec.authCtrl 7 0 = 1 → ∃ t, exec .unlockFull s = .next t ∧ t.sec.level = 2 ∧ t.sec.state = 4 ∧ t.nv.fullCount = s.nv.fullCount + 1)

/-- R309, R313, R320: a command of a queue is carried out in its turn only; one whose turn has not come changes nothing, and one whose context has
closed or is fenced meanwhile completes with the status of that check. -/
def Obligations.CommandTurns : Prop :=
  ∀ (s u : State) (c : Cmd) (page : HostRead) (row : Instr) (op : Nat), u = { s with host := { s.host with toDo := s.host.toDo.erase c } } →
    (row, op) ∈ [(Instr.ctxOpen c, 0x01), (.ctxClose c, 0x02), (.ctxAttach c, 0x03), (.ctxDetach c, 0x04), (.ctxSet c, 0x05), (.qpCreate c, 0x06), (.qpDelete c, 0x07),
      (.vfQuota c, 0x08), (.regionCreate c, 0x10), (.regionRemove c, 0x11), (.placeRegister c, 0x18), (.placeUnregister c, 0x19), (.resLoad c, 0x1A),
      (.resLoadHost c page, 0x1B), (.resRelease c, 0x1C), (.resHint c, 0x1D), (.resPin c, 0x1E), (.passLaunch c, 0x20), (.abort c, 0x21), (.fence c, 0x31),
      (.unfence c, 0x32), (.shadow c, 0x34), (.panelReset c, 0x36), (.query c, 0x40), (.fwUpdate c page, 0x48)] →
    ((c.op ≠ op ∨ s.host.toDo.find? (fun d => d.src = c.src) ≠ some c ∨ s.fw.restarting = true) → exec row s = .next s)
    ∧ (c.op = op → s.host.toDo.find? (fun d => d.src = c.src) = some c → s.fw.restarting = false → (op = 1 → s.applying = false) →
      (s.ctxOk c = false → exec row s = .next (u.completeSt c 0x06))
      ∧ (s.ctxOk c = true → s.unfenced c = false → exec row s = .next (u.completeSt c 0x30)))

/-- R275, R278, R302 to R307, R324, R325: what the commands of contexts, queue pairs and regions do: the lowest free id or index, the quota before the
pool, the cookie and one function on a port for an attach, fields of a context, a queue pair as described, its deletion, quotas, and regions
that their sumps fill before they are valid. -/
def Obligations.ContextCommands : Prop :=
  ∀ (s u : State) (c : Cmd) (f : Nat), f = c.src.fn →
    (s.turn c 0x01 u →
      (∀ q, q = (s.fn f).maxCtx.toNat → q ≠ 0 → q ≤ s.homed f → exec (.ctxOpen c) s = .next (u.completeSt c 0x0A))
      ∧ (((s.fn f).maxCtx = 0 ∨ s.homed f < (s.fn f).maxCtx.toNat) →
        ((∀ n < 1024, s.ctx n ≠ none) → exec (.ctxOpen c) s = .next (u.completeSt c 0x07))
        ∧ ∀ n k, n < 1024 → s.ctx n = none → (∀ m < n, s.ctx m ≠ none) → k = (Config.fresh s.free).setWidth 64 → exec (.ctxOpen c) s = .next
          ((State.setCtx { u with free := s.free + 1 } n (some (Ctx.opened f (weightOf c.desc.w2) (limitOf c.desc.w2) k))).complete c (okRec c n k.toNat 0))))
    ∧ (s.turn c 0x02 u → ∀ x, s.ctx c.ctx = some x →
      (x.closing = false → exec (.ctxClose c) s = .next ((u.startClose c.ctx).modCtx c.ctx fun x => { x with closers := x.closers ++ [c] }).closeStep)
      ∧ (x.closing = true → exec (.ctxClose c) s = .next (u.setCtx c.ctx (some { x with closers := x.closers ++ [c] })).closeStep))
    ∧ (s.turn c 0x03 u → ∀ x, s.ctx c.ctx = some x →
      (x.cookie ≠ c.desc.w2 → exec (.ctxAttach c) s = .next (u.completeSt c 0x13))
      ∧ (x.cookie = c.desc.w2 →
        (f ∈ x.bound → exec (.ctxAttach c) s = .next (u.completeSt c 0))
        ∧ (f ∉ x.bound → (∃ g ∈ x.bound, g / 64 = f / 64) → exec (.ctxAttach c) s = .next (u.completeSt c 0x05))
        ∧ (f ∉ x.bound → (∀ g ∈ x.bound, g / 64 ≠ f / 64) → exec (.ctxAttach c) s = .next
          ((u.setCtx c.ctx (some { x with bound := x.bound ++ [f] })).completeSt c 0))))
    ∧ (s.turn c 0x04 u → ∀ x, s.ctx c.ctx = some x →
      (x.home = f → exec (.ctxDetach c) s = .next (u.completeSt c 0x05))
      ∧ (x.home ≠ f → exec (.ctxDetach c) s = .next ((u.detach c.ctx f).completeSt c 0)))
    ∧ (s.turn c 0x05 u → ∀ x, s.ctx c.ctx = some x → exec (.ctxSet c) s = .next ((u.setCtx c.ctx (some { x with
        weight := if bit c.desc.w2 63 then (if bit c.desc.w2 8 then 16 else c.desc.w2.setWidth 8) else x.weight
        limitMs := if bit c.desc.w2 62 then (if fld c.desc.w2 31 16 = 0 then 100 else BitVec.ofNat 16 (fld c.desc.w2 31 16)) else x.limitMs
        jobId := if bit c.desc.w2 61 then c.desc.w3 else x.jobId })).completeSt c 0))
    ∧ (s.turn c 0x06 u →
      (∀ q, q = (s.fn f).maxQp.toNat → q ≠ 0 → q ≤ s.ioQps (fun k => k / 1024 = f) → exec (.qpCreate c) s = .next (u.completeSt c 0x0A))
      ∧ (((s.fn f).maxQp = 0 ∨ s.ioQps (fun k => k / 1024 = f) < (s.fn f).maxQp.toNat) →
        (4096 ≤ s.ioQps (fun _ => true) → exec (.qpCreate c) s = .next (u.completeSt c 0x08))
        ∧ ∀ i, s.ioQps (fun _ => true) < 4096 → 1 ≤ i → i < 1024 → s.qp (qpKey f i) = none → (∀ j, 1 ≤ j → j < i → s.qp (qpKey f j) ≠ none) →
          bit c.desc.w4 19 = false → exec (.qpCreate c) s = .next (State.complete { u.setQp (qpKey f i) (some (Qp.created c.desc c.ctx)) with
            sched := { s.sched with chains := s.sched.chains.filter fun e => e.1.key ≠ some (qpKey f i) } } c (okRec c i 0 0))))
    ∧ (s.turn c 0x07 u → ∀ k, k = qpKey f (fld c.desc.w2 9 0) → fld c.desc.w2 9 0 ≠ 0 →
      (s.qp k = none → exec (.qpDelete c) s = .next (u.completeSt c 0x0D))
      ∧ (s.qp k ≠ none → ∃ t, exec (.qpDelete c) s = .next t ∧ (∀ q, t.qp k = some q → q.deleting = true ∧ q.due = [])
        ∧ ((∀ d ∈ s.host.inProg, d.src.key ≠ some k) → t.qp k = none)))
    ∧ (s.turn c 0x08 u → exec (.vfQuota c) s = .next ((u.modFn (f / 64 * 64 + fld c.desc.w2 5 0) fun x =>
        { x with maxQp := BitVec.ofNat 16 (fld c.desc.w2 47 32), maxCtx := BitVec.ofNat 16 (fld c.desc.w2 31 16) }).completeSt c 0))
    ∧ (s.turn c 0x10 u → ∀ ps, ps = (((regionParts c.ctx c.desc.w2.toNat c.desc.w3.toNat (bit c.desc.w4 1) (bit c.desc.w4 0)).getD []).filter fun e => (s.sump e.1).ready) →
      (ps = [] → exec (.regionCreate c) s = .next (u.completeSt c 0x12))
      ∧ (ps ≠ [] → (∃ e ∈ ps, (s.sump e.1).freeRegion = none) → exec (.regionCreate c) s = .next (u.completeSt c 0x09))
      ∧ (ps ≠ [] → (∀ e ∈ ps, (s.sump e.1).freeRegion ≠ none) → exec (.regionCreate c) s = .next (ps.foldl (fun t e => t.modSump e.1 fun x => x.addFill e.2) u)))
    ∧ (s.turn c 0x11 u → ∀ x, s.ctx c.ctx = some x →
      ((∀ r ∈ x.regions, r.base.toNat ≠ c.desc.w2.toNat ∨ r.size ≠ c.desc.w3.toNat) → exec (.regionRemove c) s = .next (u.completeSt c 0x0D))
      ∧ ∀ r, x.regions.find? (fun r => r.base.toNat = c.desc.w2.toNat && r.size = c.desc.w3.toNat) = some r → exec (.regionRemove c) s = .next
        ((((r.parts c.ctx).foldl (fun t e => t.modSump e.1 fun x => x.dropEntry e.2) u).setCtx c.ctx (some { x with regions := x.regions.erase r })).completeSt c 0))

/-- R228 to R231, R237 to R244, R299, R301, R325 to R329: what the commands of placements, residency, passes, aborts and copies do; a handle that the
context does not own is NO_SUCH_ENTRY, and an entry in use is BUSY. -/
def Obligations.PlacementCommands : Prop :=
  ∀ (s u : State) (c : Cmd) (h n : Nat), h = fld c.desc.w2 18 0 → n = c.ctx →
    (s.turn c 0x18 u → ∀ x, s.ctx n = some x →
      ((c.desc.w2.toNat % 4096 ≠ 0 ∨ u.hbmCovered n false c.desc.w2.toNat 1024 = false) → exec (.placeRegister c) s = .next (u.completeSt c 0x16))
      ∧ ∀ hdr, c.desc.w2.toNat % 4096 = 0 → u.hbmCovered n false c.desc.w2.toNat 1024 = true → u.hbmRead (some n) c.desc.w2.toNat 1024 = (u, .ok hdr) →
        ((headerOk hdr = false ∨ ∃ i < 32, segHomeOk hdr i = false) → exec (.placeRegister c) s = .next (u.completeSt c 0x27))
        ∧ ∀ k e, headerOk hdr = true → (∀ i < 32, segHomeOk hdr i = true ∧ (segLen hdr i = 0 ∨ u.hbmCovered n false (segAddr hdr i) (segLen hdr i) = true)) →
          k < 524288 → (u.entry k).valid = false → (∀ j < k, (u.entry j).valid = true) → e = entryOf n c.desc.w2.toNat hdr →
          exec (.placeRegister c) s = .next (State.complete { u with dir := Tab.set DirEntry.reset u.dir k { e with invalid := !u.entryValid e } } c
            (okRec c (k + b2n (!u.entryValid e) * 2 ^ 31) 0 0)))
    ∧ (s.owns n h = false → (s.turn c 0x19 u → exec (.placeUnregister c) s = .next (u.completeSt c 0x0D))
      ∧ (s.turn c 0x1A u → exec (.resLoad c) s = .next (u.completeSt c 0x0D)) ∧ (s.turn c 0x1C u → exec (.resRelease c) s = .next (u.completeSt c 0x0D))
      ∧ (s.turn c 0x1D u → exec (.resHint c) s = .next (u.completeSt c 0x0D)) ∧ (s.turn c 0x1E u → exec (.resPin c) s = .next (u.completeSt c 0x0D)))
    ∧ (s.owns n h = true →
      (s.turn c 0x19 u → ((s.needed h = true ∨ s.passNames h = true ∨ s.isLoading h = true) → exec (.placeUnregister c) s = .next (u.completeSt c 0x2A))
        ∧ (s.needed h = false → s.passNames h = false → s.isLoading h = false → exec (.placeUnregister c) s = .next
          ((State.modCtx { u.release h with dir := Tab.erase u.dir h } n fun x => x.forget h).completeSt c 0)))
      ∧ (s.turn c 0x1A u → (s.resident h = true → s.isStale h = false → exec (.resLoad c) s = .next
            (u.complete c { cmdAnswer c 0 with result := BitVec.ofNat 32 (s.entry h).cores.length, dataA := 0, dataB := 0 }))
        ∧ ((s.resident h = false ∨ s.isStale h = true) → s.fill.running = none → s.fill.queue.length < 8 → exec (.resLoad c) s = .next
          { u with fill := { s.fill with queue := s.fill.queue ++ [{ handle := BitVec.ofNat 19 h, host := none, cmds := [c], sched := false }] } }))
      ∧ (s.turn c 0x1C u → ((s.needed h = true ∨ s.isLoading h = true) → exec (.resRelease c) s = .next (u.completeSt c 0x2A))
        ∧ (s.needed h = false → s.isLoading h = false → exec (.resRelease c) s = .next ((u.release h).completeSt c 0)))
      ∧ (s.turn c 0x1D u → ∀ x, s.ctx n = some x → exec (.resHint c) s = .next ((u.setCtx n (some { x with
          hint := if bit c.desc.w2 63 then (if x.hint = some (BitVec.ofNat 19 h) then none else x.hint) else some (BitVec.ofNat 19 h) })).completeSt c 0))
      ∧ (s.turn c 0x1E u → ∀ x, s.ctx n = some x → x.pin = none → bit c.desc.w2 63 = false → exec (.resPin c) s = .next
        ((State.modEntry (u.setCtx n (some { x with pin := some (BitVec.ofNat 19 h), pinAt := s.tclk })) h fun e => { e with pinned := true }).completeSt c 0)))
    ∧ (s.turn c 0x1B u → ∀ page,
      ((s.gal (c.src.fn / 64)).linkUp = false → exec (.resLoadHost c page) s = .next (u.completeSt c 0x12))
      ∧ (∀ st, (s.gal (c.src.fn / 64)).linkUp = true → page = .fail st → exec (.resLoadHost c page) s = .next (u.completeSt c (st.toNat + 0x10)))
      ∧ ∀ data v w k, (s.gal (c.src.fn / 64)).linkUp = true → page = .ok data → u.hbmWrite (some n) c.desc.w3.toNat (data.take 4096) = (v, 0) →
        v.register n c.desc.w3.toNat = (w, .ok k) → w.fill.running = none → w.fill.queue.length < 8 → exec (.resLoadHost c page) s = .next
          { w with fill := { w.fill with queue := w.fill.queue ++ [{ handle := BitVec.ofNat 19 k, host := some (c.desc.w2.setWidth 48), cmds := [c], sched := false }] } })
    ∧ (s.turn c 0x20 u → ∀ q t, q = passOf c → t = (if q.chain then u else u.setChain c.src false) →
      (s.owns n q.handle.toNat = false → exec (.passLaunch c) s = .next (t.completeSt c 0x0D))
      ∧ (s.owns n q.handle.toNat = true → q.chain = true → (c.src, true) ∈ s.sched.chains → exec (.passLaunch c) s = .next (t.complete c (t.unlaunchedRec q 0x24)))
      ∧ (s.owns n q.handle.toNat = true → (q.chain = false ∨ (c.src, true) ∉ s.sched.chains) → exec (.passLaunch c) s = .next { t with
          sched := { t.sched with queue := t.sched.queue ++ [q] } }))
    ∧ (s.turn c 0x21 u →
      (u.abortTarget c = none → exec (.abort c) s = .next (u.completeSt c 0x0D))
      ∧ (∀ a, u.abortTarget c = some a → a.op = 0x20 → (∀ q ∈ s.sched.queue, q.cmd ≠ a) → s.sched.picked = none → a ∉ u.host.toDo → s.ledger.state = .running →
        ∃ t, exec (.abort c) s = .next t ∧ t.ledger.outcome = .aborted ∧ t.ledger.reason = BitVec.ofNat 8 abHost)
      ∧ ∀ a, u.abortTarget c = some a → a.op = 0x10 → exec (.abort c) s = .next (State.answerAborts { u with host := { u.host with
          aborts := u.host.aborts ++ [{ target := a, cmd := c, result := 3 }] } }))
    ∧ (s.turn c 0x22 u → (∀ e ∈ s.host.memCopies, e.1 ≠ c) → ∀ page a b ka oa kb ob v w bs, a = c.desc.w2.toNat → b = c.desc.w3.toNat →
      decodeAddr a = .hbm ka oa → decodeAddr b = .hbm kb ob → u.hbmRead (some n) a (min 4096 c.desc.w4.toNat) = (v, .ok bs) →
      v.hbmWrite (some n) b bs = (w, 0) →
      (c.desc.w4.toNat ≤ 4096 → exec (.memCopy c page) s = .next
        (State.completeSt { w with host := { w.host with memCopies := w.host.memCopies.filter fun e => e.1 ≠ c } } c 0))
      ∧ (4096 < c.desc.w4.toNat → exec (.memCopy c page) s = .next { w with host := { w.host with
          memCopies := w.host.memCopies.filter (fun e => e.1 ≠ c) ++ [(c, 4096)] } }))

/-- R259, R314, R330 to R335, R395, R419, R423, R434, R459, R464: what the management commands and event packets do. -/
def Obligations.ManagementCommands : Prop :=
  (∀ (s u : State) (c : Cmd) (cls : Nat), cls = (if fld c.desc.w2 3 0 = 0 then 15 else fld c.desc.w2 3 0) →
    (s.drain.busy = true → exec (.drainCmd c) s = .next s)
    ∧ (s.drain.busy = false → s.turn c 0x30 u → ∃ t, exec (.drainCmd c) s = .next t ∧ t.drain.state = 1 ∧ t.drain.cmds = s.drain.cmds ++ [c]
      ∧ fld t.drain.reg 47 44 = cls ∧ fld t.drain.reg 51 48 = cls ∧ fld t.drain.reg 31 0 = fld s.drain.reg 31 0 ∧ t.cores = s.cores))
  ∧ (∀ (s u : State) (c : Cmd) (ns : List Nat), ns = s.covered c →
    (s.turn c 0x31 u → ((s.fenceSigned c = false ∨ c.desc.w4 ≠ s.nv.serial) → exec (.fence c) s = .next (u.completeSt c 0x31))
      ∧ (s.fenceSigned c = true → c.desc.w4 = s.nv.serial →
        (c.desc.w2.toNat ≤ (s.fenceEpoch c).epoch.toNat → exec (.fence c) s = .next (u.completeSt c 0x32))
        ∧ ((s.fenceEpoch c).epoch.toNat < c.desc.w2.toNat → ∃ t, exec (.fence c) s = .next t
          ∧ (c.desc.w3 = 0xFFFFFFFFFFFFFFFF → t.span.panelEpoch = { epoch := c.desc.w2, fenced := true })
          ∧ (c.desc.w3 ≠ 0xFFFFFFFFFFFFFFFF → t.jobEpoch c.desc.w3 = { epoch := c.desc.w2, fenced := true })
          ∧ ∀ q n, s.ledger.state = .running → s.ledger.pass = some q → n ∈ ns → q.ctx.toNat = n →
              t.ledger.outcome = .aborted ∧ t.ledger.reason = BitVec.ofNat 8 abFenced)))
    ∧ (s.turn c 0x32 u → ((s.fenceSigned c = false ∨ c.desc.w4 ≠ s.nv.serial) → exec (.unfence c) s = .next (u.completeSt c 0x31))
      ∧ (s.fenceSigned c = true → c.desc.w4 = s.nv.serial → c.desc.w2.toNat ≤ (s.fenceEpoch c).epoch.toNat → exec (.unfence c) s = .next (u.completeSt c 0x32))
      ∧ (s.fenceSigned c = true → c.desc.w4 = s.nv.serial → (s.fenceEpoch c).epoch.toNat < c.desc.w2.toNat → c.desc.w3 = 0xFFFFFFFFFFFFFFFF →
        exec (.unfence c) s = .next (State.complete { u with span := { s.span with panelEpoch := { epoch := c.desc.w2, fenced := false } } } c (okRec c ns.length 0 0)))
      ∧ (s.fenceSigned c = true → c.desc.w4 = s.nv.serial → (s.fenceEpoch c).epoch.toNat < c.desc.w2.toNat → c.desc.w3 ≠ 0xFFFFFFFFFFFFFFFF →
        exec (.unfence c) s = .next (State.complete { u with span := { s.span with
          jobs := s.span.jobs.filter (fun x => x.1 ≠ c.desc.w3) ++ [(c.desc.w3, { epoch := c.desc.w2, fenced := false })] } } c (okRec c ns.length 0 0)))))
  ∧ (∀ (s u : State) (c : Cmd) (a n : Nat) (x : Ctx), s.turn c 0x34 u → s.ctx c.ctx = some x → a = c.desc.w3.toNat → n = 64 * fld c.desc.w4 15 0 →
    ((a = 0 ∨ (u.hbmCovered c.ctx true a n = true ∧ u.hbmCovered c.ctx false a n = true)) → exec (.shadow c) s = .next ((u.setCtx c.ctx (some { x with
        shadowOn := bit c.desc.w2 0, digest := BitVec.ofNat 48 a, slots := BitVec.ofNat 16 (fld c.desc.w4 15 0) })).completeSt c 0))
    ∧ (a ≠ 0 → (u.hbmCovered c.ctx true a n = false ∨ u.hbmCovered c.ctx false a n = false) → exec (.shadow c) s = .next (u.completeSt c 0x16)))
  ∧ (∀ (s u : State) (c : Cmd),
    (s.meadowWait c = true → exec (.meadowPower c) s = .next s)
    ∧ (s.meadowWait c = false → s.turn c 0x35 u →
      (bit c.desc.w2 8 = true → (s.inrushAllowed = false ∨ (namedMeadows c ≠ [] ∧ ∀ m ∈ namedMeadows c, s.meadowState m = 6)) →
        exec (.meadowPower c) s = .next (u.completeSt c 0x05))
      ∧ (bit c.desc.w2 8 = true → s.inrushAllowed = true → (∃ m ∈ namedMeadows c, s.meadowState m = 0) → ∃ t, exec (.meadowPower c) s = .next t
        ∧ (∀ m ∈ namedMeadows c, s.meadowState m = 0 → ∃ r ∈ t.power.requests, r.meadow = m) ∧ t.cores = s.cores ∧ t.setts = s.setts)
      ∧ (bit c.desc.w2 8 = false → ∃ t, exec (.meadowPower c) s = .next t ∧ (∀ m ∈ namedMeadows c, s.meadowState m = 3 → m ∈ t.power.turnOff)
        ∧ t.power.meadow = s.power.meadow ∧ t.cores = s.cores ∧ t.setts = s.setts)))
  ∧ (∀ (s u : State) (c : Cmd), s.turn c 0x36 u →
    (c.src ≠ .mctp → exec (.panelReset c) s = .next (u.completeSt c 0))
    ∧ (c.src = .mctp → ∃ t, exec (.panelReset c) s = .next t ∧ t.boot = { s.boot with resetAt := some (s.tclk + 1000000) }))
  ∧ (∀ (s u : State) (c : Cmd), s.turn c 0x40 u →
    (∀ st, u.queryAnswer c = .error st → exec (.query c) s = .next (u.completeSt c st))
    ∧ ∀ bs, u.queryAnswer c = .ok bs →
      (c.desc.w3 = 0 → exec (.query c) s = .next (u.complete c { okRec c (leNat (bs.take 4)) (leNat ((bs.drop 4).take 8)) (leNat ((bs.drop 12).take 8)) with
        flags := if 20 < bs.length then 64 else 0 }))
      ∧ (c.desc.w3 ≠ 0 → (s.gal (c.src.fn / 64)).linkUp = false → exec (.query c) s = .next (u.completeSt c 0x12))
      ∧ (c.desc.w3 ≠ 0 → (s.gal (c.src.fn / 64)).linkUp = true → fld c.desc.w4 31 0 ≠ 0 → exec (.query c) s = .next
        (State.completeAfter { u with host := { u.host with out := u.host.out ++ [HostOut.write (c.src.fn / 64) (c.src.fn % 64) (c.desc.w3.setWidth 48)
            (bs.take (fld c.desc.w4 31 0))] } } c { okRec c bs.length 0 0 with flags := if fld c.desc.w4 31 0 < bs.length then 64 else 0 } [c.src.fn])))
  ∧ (∀ (s u : State) (c : Cmd), s.turn c 0x48 u →
    ((s.fw.cmd.isSome = true ∨ s.applying = true) → ∀ r, exec (.fwUpdate c r) s = .next (u.completeSt c 0x38))
    ∧ (s.fw.cmd = none → s.applying = false →
      ((s.gal 0).linkUp = false → ∀ r, exec (.fwUpdate c r) s = .next (State.completeSt { u with fw := { s.fw with state := setFld s.fw.state 63 60 7 } } c 0x12))
      ∧ ((s.gal 0).linkUp = true →
        (∀ st, exec (.fwUpdate c (.fail st)) s = .next (State.completeSt { u with fw := { s.fw with state := setFld s.fw.state 63 60 7 } } c (st.toNat + 0x10)))
        ∧ ∀ data img, img = data.take (fld c.desc.w3 31 0) →
          ((imageError s.nv img).isSome = true → exec (.fwUpdate c (.ok data)) s = .next
            (State.completeSt { u with fw := { s.fw with state := setFld s.fw.state 63 60 7 } } c 0x31))
          ∧ (imageError s.nv img = none → ∃ t, exec (.fwUpdate c (.ok data)) s = .next t ∧ t.fw.cmd = some c ∧ t.fw.newImage = img ∧ t.fw.phase = 3
            ∧ t.fw.actTime = c.desc.w4 ∧ t.nv.imageOk = false ∧ bit t.fw.state 57 = true ∧ t.cores = s.cores ∧ t.setts = s.setts))))
  ∧ ∀ (s : State) (k : Packet), isPacket k 13 →
    (288 ≤ k.didx.toNat → k.didx.toNat < 292 →
      (∀ n, k.aux.toNat < 0x80 → eventSource k = some n → exec (.event k) s = .next ((s.take k).edge (k.didx.toNat - 288) n))
      ∧ (k.aux.toNat < 0x80 → eventSource k = none → exec (.event k) s = .next (s.take k))
      ∧ (0x83 ≤ k.aux.toNat → k.aux.toNat ≤ 0x88 → eventSource k = none → exec (.event k) s = .next ((s.take k).panelEvent (eventOf k)))
      ∧ ((k.aux.toNat = 0x80 ∨ k.aux.toNat = 0x81 ∨ k.aux.toNat = 0x89) → eventSource k = none → exec (.event k) s = .next
          ((s.take k).ctxEvent k.ctx.toNat (eventOf k))))
    ∧ ((k.didx.toNat < 288 ∨ 292 ≤ k.didx.toNat) → exec (.event k) s = .next (s.take k))

/-- R446 to R451, R453 to R455, R466: Penlet links train, degrade and drop; IDENT frames tell neighbours and conflicts, the roster follows the lead;
a changed record takes effect once nothing is under way; time comes from the parent and is slewed, or stepped to; heartbeats are counted,
passed on once and missed. -/
def Obligations.SpanRows : Prop :=
  (∀ (s : State) (e : Engine) (l : BitVec 4),
    ((s.inSpan = false ∨ (s.gal (e.val / 4)).failed = true ∨ s.pins.rimGood = false) → exec (.penletLinkTrain e l) s = .next s)
    ∧ (s.inSpan = true → (s.gal (e.val / 4)).failed = false → s.pins.rimGood = true → ∃ t, exec (.penletLinkTrain e l) s = .next t
      ∧ fld (t.pen e.val) 59 56 = min 8 l.toNat ∧ (∀ k < 64, t.hopsVia e.val k = 0)
      ∧ (l.toNat < 4 → t.penState e.val = 5 ∧ t.span.out = s.span.out)
      ∧ (4 ≤ l.toNat → t.penState e.val = 1 ∧ t.span.out = s.span.out ++ [(e.val, PenFrame.ident { spanId := s.span.record.spanId, index := s.span.record.index
                                                                                                   serial := s.nv.serial, lead := s.span.record.lead, engine := e })]))
    ∧ (s.penState e.val = 0 → exec (.penletLinkLoss e l) s = .next s)
    ∧ (s.penState e.val ≠ 0 → l.toNat < 4 → ∃ t, exec (.penletLinkLoss e l) s = .next t ∧ t.penState e.val = 5 ∧ (∀ k < 64, t.hopsVia e.val k = 0)
      ∧ t.span.out = s.span.out)
    ∧ (s.penState e.val ≠ 0 → 4 ≤ l.toNat → ∃ t, exec (.penletLinkLoss e l) s = .next t ∧ t = { s with gals := t.gals } ∧ fld (t.pen e.val) 59 56 = min 8 l.toNat
      ∧ t.penState e.val = if s.penState e.val = 2 ∧ l.toNat < 8 then 3 else s.penState e.val)
    ∧ exec (.penletFrameReplay e) s = .next s)
  ∧ (∀ (s : State) (e : Engine) (f : IdentFrame),
    ((s.inSpan = false ∨ s.penState e.val = 0 ∨ s.penState e.val = 5) → exec (.ident e f) s = .next s)
    ∧ (s.inSpan = true → 1 ≤ s.penState e.val → s.penState e.val ≤ 4 → ∃ t, exec (.ident e f) s = .next t
      ∧ fld (t.pen e.val) 55 50 = f.index.val ∧ fld (t.pen e.val) 49 46 = f.engine.val
      ∧ ((f.spanId ≠ s.span.record.spanId ∨ f.index = s.span.record.index) → t.penState e.val = 4 ∧ t.span.roster = s.span.roster)
      ∧ (f.spanId = s.span.record.spanId → f.index ≠ s.span.record.index → t.penState e.val = (if fld (s.pen e.val) 59 56 = 8 then 2 else 3)
        ∧ t.hopsVia e.val f.index.val = 1
        ∧ (s.isLead = true → f.lead = false → f.index.val ∉ s.span.leads → (∀ m ∈ s.span.roster, m.1 ≠ f.index.val) → (f.index.val, f.serial) ∈ t.span.roster)
        ∧ ((∃ m ∈ s.span.roster, m.1 = f.index.val ∧ m.2 ≠ f.serial) → t.peerState f.index.val = 3 ∧ t.span.roster = s.span.roster))))
  ∧ (∀ (s : State) (e : Engine) (f : RosterFrame),
    ((s.inSpan = false ∨ s.isLead = true ∨ s.engineUp e.val = false) → exec (.roster e f) s = .next s)
    ∧ (s.inSpan = true → s.isLead = false → s.engineUp e.val = true → (s.span.leads = [] ∨ s.span.leads = [f.lead.val]) → ∃ t, exec (.roster e f) s = .next t
      ∧ t.span.roster = f.members.map (fun m => (m.1.val, m.2)) ∧ t.span.rosterJobs = f.jobs ∧ fld t.span.reg 21 16 = f.lead.val ∧ bit t.span.reg 29 = false))
  ∧ (∀ (s : State) (r : SpanRecord),
    (r = s.span.record → exec (.spanRecordRead r) s = .next { s with span := { s.span with waiting := none } })
    ∧ (r ≠ s.span.record → s.recordFree = false → exec (.spanRecordRead r) s = .next { s with span := { s.span with waiting := some r } })
    ∧ (r ≠ s.span.record → s.recordFree = true → ∃ t, exec (.spanRecordRead r) s = .next t ∧ t.span.record = r ∧ t.span.waiting = none
      ∧ fld t.span.reg 13 8 = r.index.val ∧ t.cores = s.cores ∧ t.ledger = s.ledger))
  ∧ (∀ (s u : State) (dt : Nat), u = { s with tclk := s.tclk + dt } → s.span.waiting = none →
    ((s.isLead = false ∨ (s.island (.gal 0)).live = false ∨ u.tclk < s.span.timeAt + 8192) → exec (.timeFrameSend dt) s = .next u)
    ∧ (s.isLead = true → (s.island (.gal 0)).live = true → s.span.timeAt + 8192 ≤ u.tclk → exec (.timeFrameSend dt) s = .next { u with
        free := s.free + 1
        span := { s.span with timeAt := u.tclk, out := s.span.out ++ s.upEngines.map fun e => (e, PenFrame.time u.g0Time (Config.fresh s.free).toNat) } })
    ∧ (s.inSpan = true → s.isLead = false → s.span.timeAt + 64000 ≤ u.tclk → exec (.tsyncLoss dt) s = .next { u with span := { s.span with reg := setBit s.span.reg 30 false } })
    ∧ ((s.inSpan = false ∨ s.isLead = true ∨ u.tclk < s.span.timeAt + 64000) → exec (.tsyncLoss dt) s = .next u)
    ∧ ((s.inSpan = false ∨ u.tclk < Tab.get 0 s.span.hbAt 64 + s.span.period) → exec (.heartbeatSend dt) s = .next u)
    ∧ (s.inSpan = true → Tab.get 0 s.span.hbAt 64 + s.span.period ≤ u.tclk → ∃ t, exec (.heartbeatSend dt) s = .next t ∧ t.span.hbCount = s.span.hbCount + 1
      ∧ ∀ e ∈ s.upEngines, ∃ f, (e, PenFrame.heartbeat f) ∈ t.span.out ∧ f.index = s.span.record.index ∧ f.count = s.span.hbCount + 1 ∧ f.sentAt = u.g0Time ∧ f.ttl = 63)
    ∧ ∀ k : Fin 64, ∀ since, since = u.tclk - Tab.get 0 s.span.hbAt k.val →
      ((s.peerState k.val ≠ 1 ∨ since < s.span.period * s.span.missLimit) → exec (.unresponsive k dt) s = .next u)
      ∧ (s.peerState k.val = 1 → s.span.period * s.span.missLimit ≤ since → ∃ t, exec (.unresponsive k dt) s = .next t
        ∧ t = { u with span := { s.span with peers := t.span.peers } } ∧ t.peerState k.val = 2 ∧ ∀ j, j ≠ k.val → t.peerState j = s.peerState j))
  ∧ (∀ (s : State) (e : Engine) (t : BitVec 64) (age : Nat) (d : Int), d = ((t + BitVec.ofNat 64 ((age + 500) / 1000)) - s.g0Time).toInt →
    ((s.inSpan = false ∨ s.isLead = true ∨ s.engineUp e.val = false ∨ s.timeParent ≠ some e.val) → exec (.time e t age) s = .next s)
    ∧ (s.inSpan = true → s.isLead = false → s.engineUp e.val = true → s.timeParent = some e.val → (s.island (.gal 0)).live = true →
      bit s.timeSvc.ctrl 63 = false → s.timeSvc.stepping = false →
      (s.span.joined = true → -64 ≤ d → d ≤ 64 → ∃ u, exec (.time e t age) s = .next u ∧ bit u.span.reg 30 = true ∧ (u.island (.gal 0)).slew = d
        ∧ bit u.timeSvc.ctrl 63 = false ∧ u.span.timeAt = s.tclk)
      ∧ ((s.span.joined = false ∨ d < -64 ∨ 64 < d) → ∃ u, exec (.time e t age) s = .next u ∧ bit u.span.reg 30 = false ∧ bit u.timeSvc.ctrl 63 = true
        ∧ u.timeSvc.stepVal.toNat % 1024 = 0)))
  ∧ ∀ (s : State) (e : Engine) (f : HeartbeatFrame) (k : Nat), k = f.index.val →
    ((s.inSpan = false ∨ s.engineUp e.val = false ∨ k = s.ownIndex) → exec (.heartbeat e f) s = .next s)
    ∧ (s.inSpan = true → s.engineUp e.val = true → k ≠ s.ownIndex → ∃ t, exec (.heartbeat e f) s = .next t ∧ t.hopsVia e.val k = 64 - f.ttl.toNat
      ∧ ((k, f.count) ∈ s.span.hbSeen → t.span.out = s.span.out ∧ t.span.peers = s.span.peers)
      ∧ ((k, f.count) ∉ s.span.hbSeen → (k, f.count) ∈ t.span.hbSeen
        ∧ (s.conflicts k f.serial = false → t.peerState k = 1 ∧ Tab.get 0 t.span.hbAt k = s.tclk)
        ∧ (2 ≤ f.ttl.toNat → ∀ d ∈ s.upEngines, d ≠ e.val → (d, PenFrame.heartbeat { f with ttl := f.ttl - 1 }) ∈ t.span.out)
        ∧ (f.ttl.toNat ≤ 1 → fld t.span.stat 15 0 = min 65535 (fld s.span.stat 15 0 + 1))))

/-- R448, R452, R456 to R463, R466: frames of data are relayed with a smaller TTL, or reach the lowest context of their job; a handoff reads its table
and sends its entries, and one unanswered for 1 ms is given up; a copy offers itself, sends its regions once paired, and ends with TIMEOUT or
SOURCE_LOST when its peer is gone. -/
def Obligations.SpanDataRows : Prop :=
  (∀ (s : State) (e : Engine) (f : Prefix) (k : Packet), (f.jobId = 0 ∨ s.isLead = false) →
    ((s.inSpan = false ∨ s.engineUp e.val = false) → exec (.data e f k) s = .next s)
    ∧ (s.inSpan = true → s.engineUp e.val = true → f.mc = false →
      (f.dstPanel.val ≠ s.ownIndex →
        (2 ≤ f.ttl.toNat → exec (.data e f k) s = .next (s.routeFrame f.dstPanel.val { f with ttl := f.ttl - 1 } k).hoGo)
        ∧ (f.ttl.toNat ≤ 1 → exec (.data e f k) s = .next (State.hoGo { s with span := { s.span with stat := satFld s.span.stat 15 0 1 } })))
      ∧ (f.dstPanel.val = s.ownIndex → (f.mask = 0 ∨ s.isLead = false) → k.stream ≠ streamCopy → k.opc ≠ 2 → k.opc ≠ 4 →
        (f.epoch.toNat < (s.jobEpoch f.jobId).epoch.toNat → exec (.data e f k) s = .next (State.hoGo { s with span := { s.span with stat := satFld s.span.stat 47 32 1 } }))
        ∧ ((s.jobEpoch f.jobId).epoch.toNat ≤ f.epoch.toNat →
          (s.jobCtx f.jobId = none → exec (.data e f k) s = .next (State.hoGo (State.peerReply { s with span := { s.span with stat := satFld s.span.stat 31 16 1 } } f
            (frameAck k stAbsent 1 0))))
          ∧ ∀ n, s.jobCtx f.jobId = some n →
            (s.ctxFenced n = true → exec (.data e f k) s = .next (s.peerReply f (frameAck k stDenied 1 0)).hoGo)
            ∧ (s.ctxFenced n = false → (k.opc = 1 ∨ k.opc = 3) →
              (∀ st, s.resolve false k.daddr.toNat = .error st → exec (.data e f k) s = .next (s.peerReply f (frameAck k st 1 0)).hoGo)
              ∧ ∀ d, s.resolve false k.daddr.toNat = .ok d → exec (.data e f k) s = .next (State.hoGo (State.send
                { s with span := { s.span with inbound := s.span.inbound ++ [{ stream := k.stream, seq := k.seq, frame := f }] } }
                [{ k with src := srcPeer f.srcPanel.val (e.val / 4), sclass := 3, ctx := BitVec.ofNat 10 n, vc := false, turned := false, didx := d.1 }])))))))
  ∧ (∀ (s u : State) (d : BitVec 10 × BitVec 19 × BitVec 32) (rest : List (BitVec 10 × BitVec 19 × BitVec 32)), s.span.due = d :: rest →
    u = { s with span := { s.span with due := rest } } →
    (s.mute d.1.toNat = true → exec .handoff s = .next u.hoGo)
    ∧ (s.mute d.1.toNat = false →
      (∀ t st, u.hbmRead (some d.1.toNat) ((s.entry d.2.1.toNat).img.toNat + 0x400) 0xC00 = (t, .error st) → exec .handoff s = .next t.hoFail.hoGo)
      ∧ ∀ t bs, u.hbmRead (some d.1.toNat) ((s.entry d.2.1.toNat).img.toNat + 0x400) 0xC00 = (t, .ok bs) →
        ((47 < leAt bs 0 4 ∨ leAt bs 4 12 ≠ 0) → exec .handoff s = .next t.hoFail.hoGo)
        ∧ ∀ js, leAt bs 0 4 ≤ 47 → leAt bs 4 12 = 0 → js = ((List.range (leAt bs 0 4)).map fun i => ({ id := t.span.nextId + i, ctx := d.1, pass := d.2.2, entry := List.take 64 (bs.drop (0x10 + 64 * i)), started := false, left := 0, failed := false, since := 0 } : HandoffJob)) →
          exec .handoff s = .next (State.hoGo { t with span := { t.span with handoffs := t.span.handoffs ++ js, nextId := t.span.nextId + js.length } })))
  ∧ (∀ s : State, s.span.due = [] → exec .handoff s = .next s)
  ∧ (∀ (s u : State) (id dt : Nat), u = { s with tclk := s.tclk + dt } →
    ((∀ j ∈ s.span.handoffs, j.id ≠ id ∨ j.started = false) → exec (.handoffTimeout id dt) s = .next u)
    ∧ ∀ j, s.span.handoffs.find? (fun j => j.id = id && j.started) = some j →
      (u.tclk < j.since + 1000000 → exec (.handoffTimeout id dt) s = .next u)
      ∧ (j.since + 1000000 ≤ u.tclk → exec (.handoffTimeout id dt) s = .next (u.hoEnd j true).hoGo))
  ∧ (∀ (s u : State) (c : Cmd), (∀ j ∈ s.span.copies, j.cmd ≠ c) → s.turn c 0x33 u → ∃ t, exec (.stateCopy c) s = .next t ∧ ∃ j, t.span.copies = s.span.copies ++ [j]
    ∧ j.cmd = c ∧ j.recv = bit c.desc.w2 8 ∧ j.peer = fld c.desc.w2 5 0 ∧ j.session = c.desc.w3 ∧ j.paired = false ∧ j.off = 0 ∧ j.since = s.tclk
    ∧ (j.recv = false → ∀ x, s.ctx c.ctx = some x → j.regions = x.ordered))
  ∧ (∀ (s : State) (c : Cmd) (j : CopyJob), s.span.copies.find? (fun j => j.cmd = c) = some j →
    ((j.recv = true ∨ j.paired = false ∨ s.fw.restarting = true) → exec (.stateCopy c) s = .next s)
    ∧ (j.recv = false → j.paired = true → s.fw.restarting = false → ∀ x, s.ctx j.ctx.toNat = some x → x.closing = false → s.ledger.state = .idle →
      ∀ a left n t bs, copyAt j.regions j.off = some (a, left) → n = min left (4096 - a % 4096) → s.hbmRead none a n = (t, .ok bs) →
      exec (.stateCopy c) s = .next ((t.setCopy j { j with off := j.off + n, unacked := j.unacked ++ [(BitVec.ofNat 16 (j.off / 8), n)], since := t.tclk }).copySend j
        { Packet.empty with opc := 3, tc := 2, daddr := BitVec.ofNat 48 a, seq := BitVec.ofNat 16 (j.off / 8), len := BitVec.ofNat 14 n
                            aux := j.session.setWidth 48, data := bs })))
  ∧ ∀ (s u : State) (ctx : BitVec 10) (dt : Nat) (j : CopyJob), u = { s with tclk := s.tclk + dt } → s.span.copies = [j] →
    (j.ctx = ctx → j.paired = false → j.since + 10000000000 ≤ u.tclk → exec (.stateCopyPairTimeout ctx dt) s = .next (u.copyOver j 0x17))
    ∧ ((j.ctx ≠ ctx ∨ j.paired = true ∨ u.tclk < j.since + 10000000000) → exec (.stateCopyPairTimeout ctx dt) s = .next u)
    ∧ (j.ctx = ctx → s.copyLost j = true → exec (.sourceLost ctx) s = .next (s.copyOver j (if j.recv = true ∧ j.moved ≠ 0 then 0x33 else 0x17)))
    ∧ ((j.ctx ≠ ctx ∨ s.copyLost j = false) → exec (.sourceLost ctx) s = .next s)

/-- A security state that is legal stays legal, and moves only forward: in whatever state of the panel, whatever command comes, the lifecycle and
MIN_SVN do not fall, a revoked fleet slot stays revoked, a used slot keeps its key, and part, serial number and identity certificate stay. -/
def Obligations.NoCommandTurnsSecurityBack : Prop :=
  ∀ s t : State, Machine.step s = .next t → s.nv.vault.ok → t.nv.vault.ok ∧ s.nv.vault.Moved t.nv.vault

/-- The queue of waiting commands belongs to the step: no command's effect adds, drops or reorders what waits, not even a panel reset. -/
def Obligations.CommandsLeaveTheQueue : Prop :=
  ∀ (c : Instr) (s t : State), Machine.exec c s = .next t → t.pending = s.pending

/-- Logical and physical places determine each other (R15, R19): a logical sett that stands at a site is the one found there, and the core at a
logical address lies in its sett's site and has that address. -/
def Obligations.LogicalPlacesAreUnique : Prop :=
  (∀ (s : State) (sid site : Nat), sid < 256 → (s.siteOfSett sid = some site ↔ site < 272 ∧ s.settAt site = some sid))
  ∧ (∀ (s : State) (l p : Nat), l < 16384 → s.coreAt l = some p → p < 19584 ∧ s.logicalOf p = some l ∧ s.siteOfSett (l / 64) = some (siteOf p))
  ∧ ∀ (s : State) (a b p : Nat), a < 16384 → b < 16384 → s.coreAt a = some p → s.coreAt b = some p → a = b

/-- What a reset leaves, by the reset columns of the register descriptions: cores halted with PC 0, p0 set and their configured defaults, no pass, no
context, no placement, every core gated, interrupts held back, the power panel at the variant's cap, the TAP and authorised operations idle. -/
def Obligations.ResetLeavesTheResetValues : Prop :=
  State.reset.pending = [] ∧ State.reset.nv.vault.ok ∧ State.reset.flight = [] ∧ State.reset.mesh = [] ∧ State.reset.ctxs = [] ∧ State.reset.dir = []
  ∧ (∀ p, State.reset.core p = Core.reset) ∧ Core.reset.seq.mode = .halted ∧ Core.reset.seq.pc = 0 ∧ Core.reset.seq.preds = 1
  ∧ Core.reset.seq.wdogCfg = 0x80000032 ∧ Core.reset.seq.raCfg = 0x80000040 ∧ Core.reset.sp.scrub = 0x80010000 ∧ Core.reset.units.dmaCfg = 0xC8
  ∧ (∀ i, (State.reset.sett i).gate = 0xFFFFFFFFFFFFFFFF ∧ (State.reset.sett i).cap = 0x007F044C ∧ (State.reset.sett i).clk.aclk = 0x204020207F080000)
  ∧ (∀ k, (State.reset.sump k).scrub = 0x800128E0 ∧ (State.reset.sump k).regions = [] ∧ (State.reset.sump k).state = 0)
  ∧ (∀ n, (State.reset.router n).ctrl = 0x100 ∧ (State.reset.router n).mc = 0x00960000)
  ∧ (∀ g, (State.reset.gal g).icuCtrl = 0x80000000 ∧ (State.reset.gal g).linkUp = false)
  ∧ State.reset.ledger.state = .idle ∧ State.reset.ledger.passNum = 0 ∧ State.reset.drain.reg = 0x3E8 ∧ State.reset.power.panel = 0x00000A8C00001400
  ∧ State.reset.thermal.cfg = 0x141E0190 ∧ State.reset.span.hbCfg = 0x00640003 ∧ State.reset.alert = 0x01FF0000 ∧ State.reset.sec.level = 0
  ∧ State.reset.sec.authCtrl = 0 ∧ State.reset.phase = 0
end

