-- ==== Sys2Proof/Laws/Bits.lean ====
section
/-! SUPPORT. Laws of bit fields. -/

namespace Sys2Proof

/-- A field reads what is written to it. -/
theorem fld_setFld {n hi lo v : Nat} {x : BitVec n} (h : lo ≤ hi) (hn : hi < n) : fld (setFld x hi lo v) hi lo = v % 2 ^ (hi + 1 - lo) := by
  unfold fld setFld
  have e : 2 ^ (hi + 1) = 2 ^ lo * 2 ^ (hi + 1 - lo) := by rw [← Nat.pow_add]; congr 1; omega
  have hlo : 0 < 2 ^ lo := Nat.two_pow_pos _
  have hw : 0 < 2 ^ (hi + 1 - lo) := Nat.two_pow_pos _
  have hr : x.toNat % 2 ^ lo < 2 ^ lo := Nat.mod_lt _ hlo
  have en : 2 ^ n = 2 ^ (hi + 1) * 2 ^ (n - (hi + 1)) := by rw [← Nat.pow_add]; congr 1; omega
  rw [BitVec.toNat_ofNat, Nat.shiftRight_eq_div_pow]
  generalize x.toNat >>> (hi + 1) = top
  generalize x.toNat % 2 ^ lo = r at *
  generalize 2 ^ (hi + 1 - lo) = W at *
  generalize 2 ^ lo = L at *
  generalize 2 ^ (n - (hi + 1)) = M at *
  rw [en, e]
  have h1 : (r + v % W * L + top * (L * W)) % (L * W * M) / L % W = (r + v % W * L + top * (L * W)) / L % W := by
    rw [Nat.mul_assoc L W M, Nat.mod_mul_right_div_self, Nat.mod_mul_right_mod]
  rw [h1]
  have h2 : r + v % W * L + top * (L * W) = r + L * (v % W + top * W) := by ring
  rw [h2, Nat.add_mul_div_left _ _ hlo, Nat.div_eq_of_lt hr]
  simp

/-- A word with a field replaced, as a number. -/
theorem setFld_toNat {n hi lo v : Nat} {x : BitVec n} (h : lo ≤ hi) (hn : hi < n) :
    (setFld x hi lo v).toNat = 2 ^ (hi + 1) * (x.toNat / 2 ^ (hi + 1)) + (2 ^ lo * (v % 2 ^ (hi + 1 - lo)) + x.toNat % 2 ^ lo) := by
  have hb : 2 ^ lo * (v % 2 ^ (hi + 1 - lo)) + x.toNat % 2 ^ lo < 2 ^ (hi + 1) := by
    have e : 2 ^ (hi + 1) = 2 ^ lo * 2 ^ (hi + 1 - lo) := by rw [← Nat.pow_add]; congr 1; omega
    have h1 : v % 2 ^ (hi + 1 - lo) + 1 ≤ 2 ^ (hi + 1 - lo) := Nat.mod_lt _ (Nat.two_pow_pos _)
    have h2 := Nat.mod_lt x.toNat (Nat.two_pow_pos lo)
    have h3 := Nat.mul_le_mul_left (2 ^ lo) h1
    rw [e]; rw [Nat.mul_add, Nat.mul_one] at h3; omega
  have hx : 2 ^ (hi + 1) * (x.toNat / 2 ^ (hi + 1)) + 2 ^ (hi + 1) ≤ 2 ^ n := by
    have e : 2 ^ n = 2 ^ (hi + 1) * 2 ^ (n - (hi + 1)) := by rw [← Nat.pow_add]; congr 1; omega
    have h1 : x.toNat / 2 ^ (hi + 1) < 2 ^ (n - (hi + 1)) := by
      rw [Nat.div_lt_iff_lt_mul (Nat.two_pow_pos _), Nat.mul_comm, ← e]; exact x.isLt
    have h3 := Nat.mul_le_mul_left (2 ^ (hi + 1)) (Nat.succ_le_of_lt h1)
    rw [e]; rw [Nat.mul_succ] at h3; exact h3
  unfold setFld
  rw [BitVec.toNat_ofNat, Nat.shiftRight_eq_div_pow, Nat.mod_eq_of_lt]
  · ring
  · have : x.toNat % 2 ^ lo + v % 2 ^ (hi + 1 - lo) * 2 ^ lo + x.toNat / 2 ^ (hi + 1) * 2 ^ (hi + 1)
      = 2 ^ (hi + 1) * (x.toNat / 2 ^ (hi + 1)) + (2 ^ lo * (v % 2 ^ (hi + 1 - lo)) + x.toNat % 2 ^ lo) := by ring
    omega

/-- A bit of a word with a field replaced. -/
theorem bit_setFld {n hi lo v : Nat} {x : BitVec n} (h : lo ≤ hi) (hn : hi < n) (i : Nat) :
    bit (setFld x hi lo v) i = if lo ≤ i ∧ i ≤ hi then v.testBit (i - lo) else bit x i := by
  have hb : 2 ^ lo * (v % 2 ^ (hi + 1 - lo)) + x.toNat % 2 ^ lo < 2 ^ (hi + 1) := by
    have e : 2 ^ (hi + 1) = 2 ^ lo * 2 ^ (hi + 1 - lo) := by rw [← Nat.pow_add]; congr 1; omega
    have h1 : v % 2 ^ (hi + 1 - lo) + 1 ≤ 2 ^ (hi + 1 - lo) := Nat.mod_lt _ (Nat.two_pow_pos _)
    have h2 := Nat.mod_lt x.toNat (Nat.two_pow_pos lo)
    have h3 := Nat.mul_le_mul_left (2 ^ lo) h1
    rw [e]; rw [Nat.mul_add, Nat.mul_one] at h3; omega
  unfold bit
  rw [setFld_toNat h hn, Nat.testBit_two_pow_mul_add _ hb]
  split
  · next hi1 =>
    rw [Nat.testBit_two_pow_mul_add _ (Nat.mod_lt _ (Nat.two_pow_pos _))]
    split
    · next hl => rw [if_neg (by omega), Nat.testBit_mod_two_pow]; simp [hl]
    · next hl => rw [if_pos (by omega), Nat.testBit_mod_two_pow]; simp; omega
  · next hi1 =>
    rw [if_neg (by omega), ← Nat.shiftRight_eq_div_pow, Nat.testBit_shiftRight]; congr 1; omega

/-- A bit of a word with a bit replaced. -/
theorem bit_setBit {n j : Nat} {x : BitVec n} {b : Bool} (hn : j < n) (i : Nat) : bit (setBit x j b) i = if i = j then b else bit x i := by
  unfold setBit
  rw [bit_setFld (Nat.le_refl _) hn]
  by_cases h : i = j
  · subst h; simp; cases b <;> simp
  · rw [if_neg (by omega), if_neg h]

/-- A bit of a field is a bit of the word. -/
theorem fld_testBit {n : Nat} (x : BitVec n) (hi lo i : Nat) : (fld x hi lo).testBit i = (decide (i < hi + 1 - lo) && bit x (lo + i)) := by
  unfold fld bit; rw [Nat.testBit_mod_two_pow, Nat.testBit_shiftRight]

/-- A field apart from the one that is written keeps its value. -/
theorem fld_setFld_ne {n hi lo v h2 l2 : Nat} {x : BitVec n} (h : lo ≤ hi) (hn : hi < n) (hd : h2 < lo ∨ hi < l2) :
    fld (setFld x hi lo v) h2 l2 = fld x h2 l2 := by
  apply Nat.eq_of_testBit_eq
  intro i
  rw [fld_testBit, fld_testBit, bit_setFld h hn]
  by_cases hi : i < h2 + 1 - l2
  · rw [if_neg (by omega)]
  · simp [hi]

/-- A bit apart from the field that is written keeps its value. -/
theorem bit_setFld_ne {n hi lo v i : Nat} {x : BitVec n} (h : lo ≤ hi) (hn : hi < n) (hd : i < lo ∨ hi < i) :
    bit (setFld x hi lo v) i = bit x i := by rw [bit_setFld h hn, if_neg (by omega)]

/-- A field apart from the bit that is written keeps its value. -/
theorem fld_setBit_ne {n j h2 l2 : Nat} {x : BitVec n} {b : Bool} (hn : j < n) (hd : h2 < j ∨ j < l2) :
    fld (setBit x j b) h2 l2 = fld x h2 l2 := fld_setFld_ne (Nat.le_refl _) hn hd

end Sys2Proof
end

