-- ==== Sys2Proof/Laws/Tab.lean ====
section
/-! SUPPORT. Laws of sparse tables: reading after writing, and that writing keeps the canonical form. -/

namespace Sys2Proof

theorem get_erase {α : Type} (d : α) (t : Tab α) (i j : Nat) : Tab.get d (Tab.erase t i) j = if j = i then d else Tab.get d t j := by
  induction t with
  | nil => simp [Tab.erase, Tab.get]
  | cons e t ih =>
    obtain ⟨k, v⟩ := e
    simp only [Tab.erase]
    split
    · next h => subst h; rw [ih]; by_cases hj : j = k <;> simp [hj, Tab.get, Ne.symm]
    · next h =>
      simp only [Tab.get, ih]
      by_cases hk : k = j <;> by_cases hj : j = i <;> simp_all

theorem get_insert {α : Type} (d : α) (t : Tab α) (i j : Nat) (v : α) : Tab.get d (Tab.insert t i v) j = if j = i then v else Tab.get d t j := by
  induction t with
  | nil => by_cases h : j = i <;> simp [Tab.insert, Tab.get, h] ; intro h2; exact absurd h2.symm h
  | cons e t ih =>
    obtain ⟨k, w⟩ := e
    simp only [Tab.insert]
    split
    · by_cases h : j = i
      · simp [Tab.get, h]
      · simp [Tab.get, h, Ne.symm h]
    · split
      · next h => subst h; by_cases h : j = i
                  · simp [Tab.get, h]
                  · simp [Tab.get, h, Ne.symm h]
      · simp only [Tab.get, ih]
        by_cases hk : k = j <;> by_cases hj : j = i <;> simp_all

theorem get_set {α : Type} [DecidableEq α] (d : α) (t : Tab α) (i j : Nat) (v : α) : Tab.get d (Tab.set d t i v) j = if j = i then v else Tab.get d t j := by
  unfold Tab.set
  split
  · next h => rw [get_erase, h]
  · rw [get_insert]

theorem get_mod {α : Type} [DecidableEq α] (d : α) (t : Tab α) (i j : Nat) (f : α → α) :
    Tab.get d (Tab.mod d t i f) j = if j = i then f (Tab.get d t i) else Tab.get d t j := by
  unfold Tab.mod; rw [get_set]


theorem mem_erase {α : Type} {t : Tab α} {i : Nat} {e : Nat × α} (h : e ∈ Tab.erase t i) : e ∈ t ∧ e.1 ≠ i := by
  induction t with
  | nil => simp [Tab.erase] at h
  | cons p t ih =>
    obtain ⟨k, v⟩ := p
    simp only [Tab.erase] at h
    split at h
    · exact ⟨List.mem_cons_of_mem _ (ih h).1, (ih h).2⟩
    · next hk =>
      rcases List.mem_cons.mp h with rfl | h
      · exact ⟨List.mem_cons_self, hk⟩
      · exact ⟨List.mem_cons_of_mem _ (ih h).1, (ih h).2⟩

theorem mem_insert {α : Type} {t : Tab α} {i : Nat} {v : α} {e : Nat × α} (h : e ∈ Tab.insert t i v) : e = (i, v) ∨ e ∈ t := by
  induction t with
  | nil => simpa [Tab.insert] using h
  | cons p t ih =>
    obtain ⟨k, w⟩ := p
    simp only [Tab.insert] at h
    split at h
    · simpa using h
    · split at h
      · rcases List.mem_cons.mp h with h | h
        · exact .inl h
        · exact .inr (List.mem_cons_of_mem _ h)
      · rcases List.mem_cons.mp h with h | h
        · exact .inr (by rw [h]; exact List.mem_cons_self)
        · rcases ih h with h | h
          · exact .inl h
          · exact .inr (List.mem_cons_of_mem _ h)

theorem sorted_cons {α : Type} {k : Nat} {v : α} {t : Tab α} : Tab.sorted ((k, v) :: t) = true ↔ (∀ e ∈ t, k < e.1) ∧ Tab.sorted t = true := by
  simp [Tab.sorted]

theorem sorted_erase {α : Type} {t : Tab α} {i : Nat} (h : Tab.sorted t = true) : Tab.sorted (Tab.erase t i) = true := by
  induction t with
  | nil => rfl
  | cons p t ih =>
    obtain ⟨k, v⟩ := p
    rw [sorted_cons] at h
    simp only [Tab.erase]
    split
    · exact ih h.2
    · exact sorted_cons.mpr ⟨fun e he => h.1 e (mem_erase he).1, ih h.2⟩

theorem sorted_insert {α : Type} {t : Tab α} {i : Nat} {v : α} (h : Tab.sorted t = true) : Tab.sorted (Tab.insert t i v) = true := by
  induction t with
  | nil => rfl
  | cons p t ih =>
    obtain ⟨k, w⟩ := p
    have h' := sorted_cons.mp h
    simp only [Tab.insert]
    split
    · next hik => exact sorted_cons.mpr ⟨fun e he => by
        rcases List.mem_cons.mp he with rfl | he
        · exact hik
        · exact hik.trans (h'.1 e he), h⟩
    · split
      · next hik => exact sorted_cons.mpr ⟨fun e he => by rw [hik]; exact h'.1 e he, h'.2⟩
      · next h1 h2 => exact sorted_cons.mpr ⟨fun e he => by
          rcases mem_insert he with rfl | he
          · exact Nat.lt_of_le_of_ne (Nat.le_of_not_lt h1) (Ne.symm h2)
          · exact h'.1 e he, ih h'.2⟩

/-- Writing a key keeps the canonical form. -/
theorem wf_set {α : Type} [DecidableEq α] {d : α} {t : Tab α} {i : Nat} {v : α} (h : Tab.wf d t = true) : Tab.wf d (Tab.set d t i v) = true := by
  simp only [Tab.wf, Bool.and_eq_true, List.all_eq_true, decide_eq_true_eq] at h ⊢
  unfold Tab.set
  split
  · exact ⟨sorted_erase h.1, fun e he => h.2 e (mem_erase he).1⟩
  · next hv => exact ⟨sorted_insert h.1, fun e he => by
      rcases mem_insert he with rfl | he
      · exact hv
      · exact h.2 e he⟩

/-- Changing a key keeps the canonical form. -/
theorem wf_mod {α : Type} [DecidableEq α] {d : α} {t : Tab α} {i : Nat} {f : α → α} (h : Tab.wf d t = true) : Tab.wf d (Tab.mod d t i f) = true :=
  wf_set h

/-- Storing a list keeps the canonical form. -/
theorem wf_write {α : Type} [DecidableEq α] {d : α} {vs : List α} {t : Tab α} {i : Nat} (h : Tab.wf d t = true) : Tab.wf d (Tab.write d t i vs) = true := by
  induction vs generalizing t i with
  | nil => exact h
  | cons v vs ih => exact ih (wf_set h)

/-- A table without a range of keys keeps the canonical form. -/
theorem wf_clear {α : Type} [DecidableEq α] {d : α} {t : Tab α} {i n : Nat} (h : Tab.wf d t = true) : Tab.wf d (Tab.clear t i n) = true := by
  simp only [Tab.wf, Bool.and_eq_true, List.all_eq_true, decide_eq_true_eq] at h ⊢
  refine ⟨?_, fun e he => h.2 e (List.mem_of_mem_filter he)⟩
  obtain ⟨hs, -⟩ := h
  unfold Tab.clear
  induction t with
  | nil => rfl
  | cons p t ih =>
    obtain ⟨k, w⟩ := p
    have h' := sorted_cons.mp hs
    rw [List.filter_cons]
    split
    · exact sorted_cons.mpr ⟨fun e he => h'.1 e (List.mem_of_mem_filter he), ih h'.2⟩
    · exact ih h'.2

/-- The bytes of a store read back, and every byte outside them keeps its value. -/
theorem get_write {α : Type} [DecidableEq α] {d : α} {vs : List α} {t : Tab α} {i j : Nat} :
    Tab.get d (Tab.write d t i vs) j = if i ≤ j ∧ j < i + vs.length then vs.getD (j - i) d else Tab.get d t j := by
  induction vs generalizing t i with
  | nil => simp only [Tab.write, List.length_nil]; rw [if_neg (by omega)]
  | cons v vs ih =>
    simp only [Tab.write, List.length_cons]
    rw [ih, get_set]
    by_cases h1 : j = i
    · subst h1; rw [if_neg (by omega), if_pos rfl, if_pos (by omega)]; simp
    · rw [if_neg h1]
      by_cases h2 : i + 1 ≤ j ∧ j < i + 1 + vs.length
      · rw [if_pos h2, if_pos (by omega)]
        obtain ⟨k, rfl⟩ : ∃ k, j = i + 1 + k := ⟨j - (i + 1), by omega⟩
        have e1 : i + 1 + k - (i + 1) = k := by omega
        have e2 : i + 1 + k - i = k + 1 := by omega
        rw [e1, e2]; simp
      · rw [if_neg h2, if_neg (by omega)]

/-- The bytes a store writes, and the bytes it leaves. -/
theorem memory_get_write {m : Tab Byte} {a j : Nat} {bs : List Byte} :
    Tab.get 0 (Memory.write m a bs) j = if a ≤ j ∧ j < a + bs.length then bs.getD (j - a) 0 else Tab.get 0 m j := get_write

/-- A store keeps the memory canonical. -/
theorem memory_wf_write {m : Tab Byte} {a : Nat} {bs : List Byte} (h : Memory.wf m = true) : Memory.wf (Memory.write m a bs) = true := wf_write h

/-- A zero-fill keeps the memory canonical. -/
theorem memory_wf_zero {m : Tab Byte} {a n : Nat} (h : Memory.wf m = true) : Memory.wf (Memory.zero m a n) = true := wf_clear h

end Sys2Proof
end

