-- ==== Sys2Proof/Laws/Kept.lean ====
section
/-! SUPPORT. Frames of the waiting commands and the security vault: how an update of the state, a loop and a choice act on them. -/

namespace Sys2Proof.Machine

@[simp ↓] theorem State.kept_mk (a b c d e f g h i j k l m n o p q r s t u v w x y z aa bb) :
    (State.mk a b c d e f g h i j k l m n o p q r s t u v w x y z aa bb).kept = ⟨a, d.vault⟩ := Eq.trans rfl rfl

@[simp ↓] theorem State.kept_eta (s : State) : Kept.mk s.pending s.nv.vault = s.kept := Eq.trans rfl rfl

@[simp ↓] theorem NonVol.vault_mk (a b c d e f g h i j k l m n o p q r s t u v w x y z aa) :
    (NonVol.mk a b c d e f g h i j k l m n o p q r s t u v w x y z aa).vault = ⟨a, b, c, d, e, f, g, h, i⟩ := Eq.trans rfl rfl

@[simp ↓] theorem NonVol.vault_eta (n : NonVol) :
    Vault.mk n.part n.lifecycle n.serial n.fleetKey n.fleetUsed n.fleetRevoked n.minSvn n.fullCount n.identCert = n.vault := Eq.trans rfl rfl

theorem State.kept_of {s t : State} (h : t.pending = s.pending) (h' : t.nv = s.nv) : t.kept = s.kept := by unfold State.kept; rw [h, h']

@[simp ↓] theorem State.fresh_kept (s : State) : s.fresh.2.kept = s.kept := Eq.trans rfl rfl

theorem foldl_kept {α : Type} {g : State → α → State} (h : ∀ s a, (g s a).kept = s.kept) (l : List α) (s : State) :
    (l.foldl g s).kept = s.kept := by
  induction l generalizing s with
  | nil => rfl
  | cons a l ih => rw [List.foldl_cons, ih, h]

theorem foldl_kept1 {α β : Type} {g : State × β → α → State × β} (h : ∀ s a, (g s a).1.kept = s.1.kept) (l : List α) (s : State × β) :
    (l.foldl g s).1.kept = s.1.kept := by
  induction l generalizing s with
  | nil => rfl
  | cons a l ih => rw [List.foldl_cons, ih, h]

@[simp ↓] theorem ite_kept (c : Prop) [Decidable c] (a b : State) : (if c then a else b).kept = if c then a.kept else b.kept := by split <;> rfl

/-- Nothing moves back: the waiting commands are the same, and a legal vault stays legal and moves only forward. -/
def Kept.Onward (a b : Kept) : Prop := b.pending = a.pending ∧ (a.vault.ok → b.vault.ok ∧ a.vault.Moved b.vault)

theorem Vault.Moved.refl (a : Vault) : a.Moved a :=
  ⟨rfl, rfl, rfl, Nat.le_refl _, Nat.le_refl _, fun _ _ h => h, fun _ _ h => ⟨h, rfl⟩⟩

theorem Vault.Moved.trans {a b c : Vault} (h : a.Moved b) (k : b.Moved c) : a.Moved c :=
  ⟨k.part.trans h.part, k.serial.trans h.serial, k.identCert.trans h.identCert, h.lifecycle.trans k.lifecycle, h.minSvn.trans k.minSvn,
   fun n l x => k.revoked n l (h.revoked n l x),
   fun n l x => ⟨(k.keys n l (h.keys n l x).1).1, ((k.keys n l (h.keys n l x).1).2).trans (h.keys n l x).2⟩⟩

@[simp] theorem Kept.Onward.refl (a : Kept) : a.Onward a := ⟨rfl, fun h => ⟨h, .refl _⟩⟩

theorem Kept.Onward.trans {a b c : Kept} (h : a.Onward b) (k : b.Onward c) : a.Onward c :=
  ⟨k.1.trans h.1, fun x => ⟨(k.2 (h.2 x).1).1, (h.2 x).2.trans (k.2 (h.2 x).1).2⟩⟩

theorem Kept.Onward.of_eq {a b : Kept} (h : b = a) : a.Onward b := h ▸ .refl a

theorem foldl_onward {α : Type} {g : State → α → State} (h : ∀ (s : State) (a : α), s.kept.Onward (g s a).kept) (l : List α) (s : State) :
    s.kept.Onward (l.foldl g s).kept := by
  induction l generalizing s with
  | nil => exact .refl _
  | cons a l ih => rw [List.foldl_cons]; exact (h s a).trans (ih _)

theorem bit_setBit4 : ∀ (x : BitVec 4) (i j : Fin 4), bit (setBit x i.val true) j.val = (decide (j = i) || bit x j.val) := by decide

@[simp ↓] theorem NonVol.note_vault (v : NonVol) (m : MapSum) (l : List (Node × Nat)) : (v.note m l).vault = v.vault := Eq.trans rfl rfl

@[simp ↓] theorem NonVol.emptied_vault (v : NonVol) : v.emptied.vault = v.vault := Eq.trans rfl rfl

@[simp ↓] theorem ite_vault (c : Prop) [Decidable c] (a b : NonVol) : (if c then a else b).vault = if c then a.vault else b.vault := by split <;> rfl
end Sys2Proof.Machine
end

