-- ==== Sys2Proof/Laws/KeptOps.lean ====
section
/-! SUPPORT. That the functions of the shared operations, hosts, residency and passes leave the waiting commands and the security vault alone. -/

namespace Sys2Proof.Machine

@[simp ↓] theorem State.setCore_kept (s : State) (p : Nat) (c : Core) : (State.setCore s p c).kept = s.kept := by unfold State.setCore; simp

@[simp ↓] theorem State.modCore_kept (s : State) (p : Nat) (f : Core → Core) : (State.modCore s p f).kept = s.kept := by unfold State.modCore; simp

@[simp ↓] theorem State.setSett_kept (s : State) (i : Nat) (x : Sett) : (State.setSett s i x).kept = s.kept := by unfold State.setSett; simp

@[simp ↓] theorem State.modSett_kept (s : State) (i : Nat) (f : Sett → Sett) : (State.modSett s i f).kept = s.kept := by unfold State.modSett; simp

@[simp ↓] theorem State.setSump_kept (s : State) (i : Nat) (x : Sump) : (State.setSump s i x).kept = s.kept := by unfold State.setSump; simp

@[simp ↓] theorem State.modSump_kept (s : State) (i : Nat) (f : Sump → Sump) : (State.modSump s i f).kept = s.kept := by unfold State.modSump; simp

@[simp ↓] theorem State.setGal_kept (s : State) (i : Nat) (x : Gallery) : (State.setGal s i x).kept = s.kept := by unfold State.setGal; simp

@[simp ↓] theorem State.modGal_kept (s : State) (i : Nat) (f : Gallery → Gallery) : (State.modGal s i f).kept = s.kept := by unfold State.modGal; simp

@[simp ↓] theorem State.modRouter_kept (s : State) (n : Node) (f : Router → Router) :
    (State.modRouter s n f).kept = s.kept := by unfold State.modRouter; split <;> simp

@[simp ↓] theorem State.modIsland_kept (s : State) (n : Node) (f : Island → Island) :
    (State.modIsland s n f).kept = s.kept := by unfold State.modIsland; split <;> simp

@[simp ↓] theorem State.pass_kept (s : State) (dt : Nat) : (State.pass s dt).kept = s.kept := by unfold State.pass; simp

@[simp ↓] theorem State.take_kept (s : State) (k : Packet) : (State.take s k).kept = s.kept := by unfold State.take; simp

@[simp ↓] theorem State.send_kept (s : State) (ks : List Packet) : (State.send s ks).kept = s.kept := by unfold State.send; simp

@[simp ↓] theorem State.edge_kept (s : State) (g n : Nat) : (State.edge s g n).kept = s.kept := by unfold State.edge; simp

@[simp ↓] theorem State.trapCore_kept (s : State) (p : Nat) (cause addr : Nat) :
    (State.trapCore s p cause addr).kept = s.kept := by unfold State.trapCore; simp

@[simp ↓] theorem State.finishIssue_kept (s : State) (p w : Nat) (c : Core) (r : Res) (ks : List Packet) :
    (State.finishIssue s p w c r ks).kept = s.kept := by unfold State.finishIssue; split <;> simp

@[simp ↓] theorem State.issueWord_kept (s : State) (p w : Nat) (body : Body) :
    (State.issueWord s p w body).kept = s.kept := by unfold State.issueWord; simp

@[simp ↓] theorem State.issue_kept (s : State) (p op : Nat) (g : Guard) (b : Nat) (body : Body) :
    (State.issue s p op g b body).kept = s.kept := by unfold State.issue; simp

@[simp ↓] theorem State.wake_kept (s : State) (p : Nat) : (State.wake s p).kept = s.kept := by unfold State.wake; split <;> simp

@[simp ↓] theorem State.settle_kept (s : State) (p : Nat) (r : Core × List Packet) :
    (State.settle s p r).kept = s.kept := by unfold State.settle; simp

@[simp ↓] theorem State.runAhead_kept (s : State) (p : Nat) : (State.runAhead s p).kept = s.kept := by unfold State.runAhead; simp

@[simp ↓] theorem State.checkPredictions_kept (s : State) (p : Nat) : (State.checkPredictions s p).kept = s.kept := by
  unfold State.checkPredictions; dsimp only; repeat' split
  all_goals simp

@[simp ↓] theorem State.arrLost_kept (s : State) (p : Nat) : (State.arrLost s p).kept = s.kept := by unfold State.arrLost; simp

@[simp ↓] theorem State.vecLost_kept (s : State) (p : Nat) : (State.vecLost s p).kept = s.kept := by unfold State.vecLost; simp

@[simp ↓] theorem State.stepCore_kept (s : State) (p : Nat) : (State.stepCore s p).kept = s.kept := by unfold State.stepCore; simp

@[simp ↓] theorem State.modFn_kept (s : State) (f : Nat) (g : Fn → Fn) : (State.modFn s f g).kept = s.kept := by unfold State.modFn; simp

@[simp ↓] theorem State.setQp_kept (s : State) (k : Nat) (q : Option Qp) : (State.setQp s k q).kept = s.kept := by unfold State.setQp; simp

@[simp ↓] theorem State.modQp_kept (s : State) (k : Nat) (g : Qp → Qp) : (State.modQp s k g).kept = s.kept := by unfold State.modQp; split <;> simp

@[simp ↓] theorem State.setCtx_kept (s : State) (n : Nat) (c : Option Ctx) : (State.setCtx s n c).kept = s.kept := by unfold State.setCtx; simp

@[simp ↓] theorem State.modCtx_kept (s : State) (n : Nat) (g : Ctx → Ctx) :
    (State.modCtx s n g).kept = s.kept := by unfold State.modCtx; split <;> simp

@[simp ↓] theorem State.emit_kept (s : State) (src : Src) (r : Rec) : (State.emit s src r).kept = s.kept := by unfold State.emit; split <;> simp

@[simp ↓] theorem State.drop_kept (s : State) (c : Cmd) : (State.drop s c).kept = s.kept := by unfold State.drop; simp

@[simp ↓] theorem State.logFinal_kept (s : State) (c : Cmd) (r : Rec) : (State.logFinal s c r).kept = s.kept := by
  unfold State.logFinal; dsimp only; repeat' split
  all_goals simp [foldl_kept]

@[simp ↓] theorem State.complete0_kept (s : State) (c : Cmd) (r : Rec) : (State.complete0 s c r).kept = s.kept := by unfold State.complete0; simp

@[simp ↓] theorem State.finishDelete_kept (s : State) (k : Nat) : (State.finishDelete s k).kept = s.kept := by
  unfold State.finishDelete
  try dsimp only
  repeat' (first
  | (simp; done)
  | (with_reducible rfl)
  | (intro _)
  | (assumption)
  | rw [foldl_kept]
  | rw [foldl_kept1]
  | (split))

@[simp ↓] theorem State.complete_kept (s : State) (c : Cmd) (r : Rec) :
    (State.complete s c r).kept = s.kept := by unfold State.complete; split <;> simp

@[simp ↓] theorem State.completeSt_kept (s : State) (c : Cmd) (status : Nat) :
    (State.completeSt s c status).kept = s.kept := by unfold State.completeSt; simp

@[simp ↓] theorem State.completeAll_kept (s : State) (cs : List Cmd) (status : Nat) : (State.completeAll s cs status).kept = s.kept := by
  unfold State.completeAll
  try dsimp only
  repeat' (first
  | (simp)
  | (with_reducible rfl)
  | (intro _)
  | (assumption)
  | rw [foldl_kept])

@[simp ↓] theorem State.pumpCtx_kept (s : State) (n : Nat) : (State.pumpCtx s n).kept = s.kept := by
  unfold State.pumpCtx; dsimp only; repeat' split
  all_goals simp

@[simp ↓] theorem State.pumpFn_kept (s : State) (f : Nat) : (State.pumpFn s f).kept = s.kept := by unfold State.pumpFn; split <;> simp

@[simp ↓] theorem State.ctxEvent_kept (s : State) (n : Nat) (e : EventRec) : (State.ctxEvent s n e).kept = s.kept := by unfold State.ctxEvent; simp

@[simp ↓] theorem State.fnEvent_kept (s : State) (f : Nat) (e : EventRec) : (State.fnEvent s f e).kept = s.kept := by unfold State.fnEvent; simp

@[simp ↓] theorem State.panelEvent_kept (s : State) (e : EventRec) : (State.panelEvent s e).kept = s.kept := by unfold State.panelEvent; simp

@[simp ↓] theorem State.ctxEvents_kept (s : State) (p : Nat → Bool) (e : EventRec) : (State.ctxEvents s p e).kept = s.kept := by
  unfold State.ctxEvents
  try dsimp only
  repeat' (first
  | (simp)
  | (with_reducible rfl)
  | (intro _)
  | (assumption)
  | rw [foldl_kept])

@[simp ↓] theorem State.hbmPiece_kept (s : State) (ctx : Option Nat) (a n : Nat) : (State.hbmPiece s ctx a n).1.kept = s.kept := by
  unfold State.hbmPiece; dsimp only; repeat' split
  all_goals simp

@[simp ↓] theorem State.hbmRead_kept (s : State) (ctx : Option Nat) (a n : Nat) : (State.hbmRead s ctx a n).1.kept = s.kept := by
  unfold State.hbmRead
  try dsimp only
  repeat' (first
  | (simp; done)
  | (with_reducible rfl)
  | (intro _)
  | (assumption)
  | (rename _ = (_, _) => hh; have e := congrArg Prod.fst hh; clear hh; dsimp only at e; subst e)
  | rw [foldl_kept]
  | rw [foldl_kept1]
  | (split))

@[simp ↓] theorem State.hbmWrite_kept (s : State) (ctx : Option Nat) (a : Nat) (bs : List Byte) : (State.hbmWrite s ctx a bs).1.kept = s.kept := by
  unfold State.hbmWrite
  try dsimp only
  repeat' (first
  | (simp; done)
  | (with_reducible rfl)
  | (intro _)
  | (assumption)
  | rw [foldl_kept]
  | rw [foldl_kept1]
  | (split))

@[simp ↓] theorem State.modEntry_kept (s : State) (h : Nat) (f : DirEntry → DirEntry) :
    (State.modEntry s h f).kept = s.kept := by unfold State.modEntry; simp

@[simp ↓] theorem State.register_kept (s : State) (n img : Nat) : (State.register s n img).1.kept = s.kept := by
  unfold State.register
  try dsimp only
  repeat' (first
  | (simp; done)
  | (with_reducible rfl)
  | (intro _)
  | (assumption)
  | (rename _ = (_, _) => hh; have e := congrArg Prod.fst hh; clear hh; dsimp only at e; subst e)
  | rw [foldl_kept]
  | rw [foldl_kept1]
  | (split))

@[simp ↓] theorem State.mapCores_kept (s : State) (f : Nat → Core → Core) : (State.mapCores s f).kept = s.kept := by
  unfold State.mapCores
  try dsimp only
  repeat' (first
  | (simp)
  | (with_reducible rfl)
  | (intro _)
  | (assumption)
  | rw [foldl_kept])

@[simp ↓] theorem State.mapSetts_kept (s : State) (f : Nat → Sett → Sett) : (State.mapSetts s f).kept = s.kept := by
  unfold State.mapSetts
  try dsimp only
  repeat' (first
  | (simp)
  | (with_reducible rfl)
  | (intro _)
  | (assumption)
  | rw [foldl_kept])

@[simp ↓] theorem State.release_kept (s : State) (h : Nat) : (State.release s h).kept = s.kept := by unfold State.release; simp

@[simp ↓] theorem State.unregister_kept (s : State) (h : Nat) : (State.unregister s h).kept = s.kept := by unfold State.unregister; simp

@[simp ↓] theorem State.flipTo_kept (s : State) (h : Nat) : (State.flipTo s h).kept = s.kept := by
  unfold State.flipTo; dsimp only; simp [foldl_kept]

@[simp ↓] theorem State.answerLoads_kept (s : State) (cs : List Cmd) (host : Bool) (h status ready bytes : Nat) :
    (State.answerLoads s cs host h status ready bytes).kept = s.kept := by unfold State.answerLoads; dsimp only; rw [foldl_kept]; intro t a; simp

@[simp ↓] theorem State.requestLoad_kept (s : State) (c : Cmd) (h : Nat) (host : Option (BitVec 48)) :
    (State.requestLoad s c h host).kept = s.kept := by
  unfold State.requestLoad; dsimp only; repeat' split
  all_goals simp

@[simp ↓] theorem State.schedLoad_kept (s : State) (h : Nat) : (State.schedLoad s h).kept = s.kept := by unfold State.schedLoad; split <;> simp

@[simp ↓] theorem State.digestSlot_kept (s : State) (n a : Nat) (pass : BitVec 32) : (State.digestSlot s n a pass).kept = s.kept := by
  unfold State.digestSlot
  try dsimp only
  repeat' (first
  | (simp; done)
  | (with_reducible rfl)
  | (intro _)
  | (assumption)
  | (rename _ = (_, _) => hh; have e := congrArg Prod.fst hh; clear hh; dsimp only at e; subst e)
  | rw [foldl_kept]
  | rw [foldl_kept1]
  | (split))

@[simp ↓] theorem State.writeDigests_kept (s : State) (n : Nat) (pass : BitVec 32) : (State.writeDigests s n pass).kept = s.kept := by
  unfold State.writeDigests
  try dsimp only
  repeat' (first
  | (simp; done)
  | (with_reducible rfl)
  | (intro _)
  | (assumption)
  | rw [foldl_kept]
  | rw [foldl_kept1]
  | (split))

@[simp ↓] theorem State.handoffDue_kept (s : State) (n : Nat) (h : BitVec 19) (pass : BitVec 32) :
    (State.handoffDue s n h pass).kept = s.kept := by unfold State.handoffDue; split <;> simp

@[simp ↓] theorem State.loseCore_kept (s : State) (p : Nat) : (State.loseCore s p).kept = s.kept := by unfold State.loseCore; simp

@[simp ↓] theorem State.checkQuiesced_kept (s : State) : (State.checkQuiesced s).kept = s.kept := by unfold State.checkQuiesced; simp

@[simp ↓] theorem State.recordAbort_kept (s : State) (reason : Nat) (lost : List Nat) : (State.recordAbort s reason lost).kept = s.kept := by
  unfold State.recordAbort; dsimp only; repeat' split
  all_goals simp [foldl_kept]

@[simp ↓] theorem State.recordDone_kept (s : State) (logical : Nat) (pass : BitVec 32) :
    (State.recordDone s logical pass).kept = s.kept := by unfold State.recordDone; simp

@[simp ↓] theorem State.setChain_kept (s : State) (src : Src) (cancelled : Bool) :
    (State.setChain s src cancelled).kept = s.kept := by unfold State.setChain; simp

@[simp ↓] theorem State.cancelChain_kept (s : State) (src : Src) (after : Option QPass) : (State.cancelChain s src after).kept = s.kept := by
  unfold State.cancelChain; dsimp only; repeat' split
  all_goals simp [foldl_kept]

@[simp ↓] theorem State.endUnlaunched_kept (s : State) (q : QPass) (status : Nat) :
    (State.endUnlaunched s q status).kept = s.kept := by unfold State.endUnlaunched; simp

@[simp ↓] theorem State.postPass_kept (s : State) : (State.postPass s).kept = s.kept := by unfold State.postPass; dsimp only; split <;> simp

@[simp ↓] theorem State.launchNow_kept (s : State) (x : Picked) (t : BitVec 64) :
    (State.launchNow s x t).kept = s.kept := by unfold State.launchNow; simp

@[simp ↓] theorem State.ungate_kept (s : State) (ps : List Nat) : (State.ungate s ps).kept = s.kept := by
  unfold State.ungate
  try dsimp only
  repeat' (first
  | (simp)
  | (with_reducible rfl)
  | (intro _)
  | (assumption)
  | rw [foldl_kept])

@[simp ↓] theorem State.tryLaunch_kept (s : State) : (State.tryLaunch s).kept = s.kept := by
  unfold State.tryLaunch; dsimp only; repeat' split
  all_goals simp

@[simp ↓] theorem State.roundDeficits_kept (s : State) (ready : List QPass) : (State.roundDeficits s ready).kept = s.kept := by
  unfold State.roundDeficits
  try dsimp only
  repeat' (first
  | (simp; done)
  | (with_reducible rfl)
  | (intro _)
  | (assumption)
  | rw [foldl_kept])

@[simp ↓] theorem State.pick_kept (s : State) : (State.pick s).kept = s.kept := by
  unfold State.pick; dsimp only; repeat' split
  all_goals simp

@[simp ↓] theorem State.dropLoad_kept (s : State) (l : Load) : (State.dropLoad s l).kept = s.kept := by
  unfold State.dropLoad
  try dsimp only
  repeat' (first
  | (simp)
  | (with_reducible rfl)
  | (intro _)
  | (assumption)
  | rw [foldl_kept])

@[simp ↓] theorem State.closeLoads_kept (s : State) (n : Nat) : (State.closeLoads s n).kept = s.kept := by
  unfold State.closeLoads; dsimp only; repeat' split
  all_goals simp [foldl_kept]

@[simp ↓] theorem State.startClose_kept (s : State) (n : Nat) : (State.startClose s n).kept = s.kept := by
  unfold State.startClose; dsimp only; repeat' split
  all_goals simp [foldl_kept]

@[simp ↓] theorem State.dropRegions_kept (s : State) (n : Nat) :
    (State.dropRegions s n).kept = s.kept := by unfold State.dropRegions; dsimp only; rw [foldl_kept]; intro t a; simp

@[simp ↓] theorem State.tryClose_kept (s : State) (n : Nat) : (State.tryClose s n).kept = s.kept := by
  unfold State.tryClose; dsimp only; repeat' split
  all_goals simp [foldl_kept]

@[simp ↓] theorem State.closeStep_kept (s : State) : (State.closeStep s).kept = s.kept := by
  unfold State.closeStep
  try dsimp only
  repeat' (first
  | (simp)
  | (with_reducible rfl)
  | (intro _)
  | (assumption)
  | rw [foldl_kept])

@[simp ↓] theorem State.startCore_kept (s : State) (p : Nat) : (State.startCore s p).kept = s.kept := by unfold State.startCore; simp

@[simp ↓] theorem State.flipFor_kept (s : State) (p : Nat) : (State.flipFor s p).kept = s.kept := by
  unfold State.flipFor; dsimp only; repeat' split
  all_goals simp [foldl_kept]

@[simp ↓] theorem State.launchAt_kept (s : State) (p : Nat) : (State.launchAt s p).kept = s.kept := by unfold State.launchAt; simp

@[simp ↓] theorem State.standaloneFlip_kept (s : State) : (State.standaloneFlip s).kept = s.kept := by
  unfold State.standaloneFlip; dsimp only; repeat' split
  all_goals simp

@[simp ↓] theorem State.confirmLost_kept (s : State) (ps : List Nat) : (State.confirmLost s ps).kept = s.kept := by
  unfold State.confirmLost; dsimp only; simp [foldl_kept]

@[simp ↓] theorem State.changeMap_kept (s : State) : (State.changeMap s).kept = s.kept := by
  unfold State.changeMap; dsimp only; repeat' split
  all_goals simp [foldl_kept]

end Sys2Proof.Machine
end

