-- ==== Sys2Proof/Laws/KeptPanel.lean ====
section
/-! SUPPORT. That the functions of clocks, the ring, power, heat, memory, loads and bring-up leave the waiting commands and the security vault alone. -/

namespace Sys2Proof.Machine

@[simp ↓] theorem State.writeRefCfg_kept (s : State) (n : Node) (v : BitVec 32) :
    (State.writeRefCfg s n v).kept = s.kept := by unfold State.writeRefCfg; simp

@[simp ↓] theorem State.siteDies_kept (s : State) (site : Nat) : (State.siteDies s site).kept = s.kept := by
  unfold State.siteDies; dsimp only; repeat' split
  all_goals simp [foldl_kept]

@[simp ↓] theorem State.stackDies_kept (s : State) (k : Nat) : (State.stackDies s k).kept = s.kept := by unfold State.stackDies; simp

@[simp ↓] theorem State.galleryDies_kept (s : State) (g : Nat) : (State.galleryDies s g).kept = s.kept := by unfold State.galleryDies; simp

@[simp ↓] theorem State.setHold_kept (s : State) (n : Node) (h : Nat) : (State.setHold s n h).kept = s.kept := by unfold State.setHold; simp

@[simp ↓] theorem State.applyDrain_kept (s : State) (n : Node) (hold flip : Nat) (fold : Bool) :
    (State.applyDrain s n hold flip fold).kept = s.kept := by unfold State.applyDrain; simp

@[simp ↓] theorem State.drainEdge_kept (s : State) (old : Nat) : (State.drainEdge s old).kept = s.kept := by unfold State.drainEdge; simp

@[simp ↓] theorem State.stepTime_kept (s : State) : (State.stepTime s).kept = s.kept := by unfold State.stepTime; simp

@[simp ↓] theorem State.stageTables_kept (s : State) (dark : List Nat) (nodes : List Node) : (State.stageTables s dark nodes).kept = s.kept := by
  unfold State.stageTables; dsimp only; simp [foldl_kept]

@[simp ↓] theorem State.swap_kept (s : State) (k k' : Packet) : (State.swap s k k').kept = s.kept := by unfold State.swap; simp

@[simp ↓] theorem State.drift_kept (s : State) (n : Node) (i p : Nat) : (State.drift s n i p).kept = s.kept := by unfold State.drift; simp

@[simp ↓] theorem State.routePacket_kept (s : State) (n : Node) (a : Arrival) (k : Packet) :
    (State.routePacket s n a k).kept = s.kept := by unfold State.routePacket; dsimp only; split <;> simp

@[simp ↓] theorem State.foldLink_kept (s : State) (n : Node) (p : Nat) :
    (State.foldLink s n p).kept = s.kept := by unfold State.foldLink; split <;> simp

@[simp ↓] theorem State.answerUp_kept (s : State) (root : Node) (f : Nat) (n : Node) (e : Combine) (st : BitVec 4) :
    (s.answerUp root f n e st).kept = s.kept := by
  induction f generalizing s n e st with
  | zero => rfl
  | succ f ih =>
    unfold State.answerUp; dsimp only; repeat' split
    all_goals first
    | (simp)
    | (rw [ih]; simp)

@[simp ↓] theorem State.endDrain_kept (s : State) (status : Nat) : (State.endDrain s status).kept = s.kept := by
  unfold State.endDrain; dsimp only; simp [foldl_kept]

@[simp ↓] theorem State.drainBeacon_kept (s : State) : (State.drainBeacon s).kept = s.kept := by unfold State.drainBeacon; dsimp only; split <;> simp

@[simp ↓] theorem State.modMeadow_kept (s : State) (m : Nat) (f : BitVec 64 → BitVec 64) :
    (State.modMeadow s m f).kept = s.kept := by unfold State.modMeadow; simp

@[simp ↓] theorem State.setMeadow_kept (s : State) (m v : Nat) : (State.setMeadow s m v).kept = s.kept := by unfold State.setMeadow; simp

@[simp ↓] theorem State.modFeed_kept (s : State) (n : Nat) (f : BitVec 64 → BitVec 64) :
    (State.modFeed s n f).kept = s.kept := by unfold State.modFeed; simp

@[simp ↓] theorem State.alertBit_kept (s : State) (n : Nat) : (State.alertBit s n).kept = s.kept := by unfold State.alertBit; simp

@[simp ↓] theorem State.finishMeadowJobs_kept (s : State) : (State.finishMeadowJobs s).kept = s.kept := by
  unfold State.finishMeadowJobs; dsimp only; simp [foldl_kept]

@[simp ↓] theorem State.jobDark_kept (s : State) (m : Nat) : (State.jobDark s m).kept = s.kept := by unfold State.jobDark; simp

@[simp ↓] theorem State.mapIfIdle_kept (s : State) : (State.mapIfIdle s).kept = s.kept := by unfold State.mapIfIdle; simp

@[simp ↓] theorem State.foldAround_kept (s : State) (m : Nat) : (State.foldAround s m).kept = s.kept := by
  unfold State.foldAround
  try dsimp only
  repeat' (first
  | (simp; done)
  | (with_reducible rfl)
  | (intro _)
  | (assumption)
  | rw [foldl_kept]
  | rw [foldl_kept1]
  | (split))

@[simp ↓] theorem State.meadowOff_kept (s : State) (m : Nat) : (State.meadowOff s m).kept = s.kept := by
  unfold State.meadowOff; dsimp only; simp [foldl_kept]

@[simp ↓] theorem State.loseMeadow_kept (s : State) (m : Nat) : (State.loseMeadow s m).kept = s.kept := by unfold State.loseMeadow; simp

@[simp ↓] theorem State.tripMeadow_kept (s : State) (m cause : Nat) : (State.tripMeadow s m cause).kept = s.kept := by unfold State.tripMeadow; simp

@[simp ↓] theorem State.resetPanel_kept (s : State) (rim pin go : Bool) : (s.resetPanel rim pin go).kept = s.kept := Eq.trans rfl rfl
@[simp ↓] theorem State.dueReset_kept (s : State) : ∀ t, s.dueReset = some t → t.kept = s.kept := by
  intro t h; unfold State.dueReset at h
  repeat' (first
  | (cases h; done)
  | (cases h; simp)
  | (split at h))

@[simp ↓] theorem State.rimLoss_kept (s : State) : (State.rimLoss s).kept = s.kept := by unfold State.rimLoss; simp

@[simp ↓] theorem State.planOff_kept (s : State) (m : Nat) : (State.planOff s m).kept = s.kept := by unfold State.planOff; simp

@[simp ↓] theorem State.ratioActs_kept (s : State) (n est ratio ca : Nat) :
    (State.ratioActs s n est ratio ca).kept = s.kept := by unfold State.ratioActs; simp

@[simp ↓] theorem State.allocate_kept (s : State) (powers : Nat → Nat) (rim : Nat) :
    (State.allocate s powers rim).kept = s.kept := by unfold State.allocate; dsimp only; rw [foldl_kept]; intro t a; simp

@[simp ↓] theorem State.sittDead_kept (s : State) (i : Nat) : (State.sittDead s i).kept = s.kept := by unfold State.sittDead; simp

@[simp ↓] theorem State.deferHead_kept (s : State) (r : InrushReq) : (State.deferHead s r).kept = s.kept := by
  unfold State.deferHead; dsimp only; repeat' split
  all_goals simp

@[simp ↓] theorem State.tryGrant_kept (s : State) (power : Nat) : (State.tryGrant s power).kept = s.kept := by unfold State.tryGrant; split <;> simp

@[simp ↓] theorem State.uncoreUp_kept (s : State) (i : Nat) : (State.uncoreUp s i).kept = s.kept := by unfold State.uncoreUp; simp

@[simp ↓] theorem State.meadowUp_kept (s : State) (m : Nat) : (State.meadowUp s m).kept = s.kept := by
  unfold State.meadowUp; dsimp only; repeat' split
  all_goals simp [foldl_kept]

@[simp ↓] theorem State.finishOff_kept (s : State) : (State.finishOff s).kept = s.kept := by
  unfold State.finishOff; dsimp only; simp [foldl_kept]

@[simp ↓] theorem State.gateWrite_kept (s : State) (i : Nat) (v : BitVec 64) : (State.gateWrite s i v).kept = s.kept := by
  unfold State.gateWrite
  try dsimp only
  repeat' (first
  | (simp; done)
  | (with_reducible rfl)
  | (intro _)
  | (assumption)
  | rw [foldl_kept]
  | rw [foldl_kept1]
  | (split))

@[simp ↓] theorem State.refuseWaiting_kept (s : State) : (State.refuseWaiting s).kept = s.kept := by
  unfold State.refuseWaiting; dsimp only; simp [foldl_kept]

@[simp ↓] theorem State.floorAll_kept (s : State) : (State.floorAll s).kept = s.kept := by
  unfold State.floorAll
  try dsimp only
  repeat' (first
  | (simp)
  | (with_reducible rfl)
  | (intro _)
  | (assumption)
  | rw [foldl_kept])

@[simp ↓] theorem State.coolingLost_kept (s : State) : (State.coolingLost s).kept = s.kept := by unfold State.coolingLost; simp

@[simp ↓] theorem State.coolantStop_kept (s : State) : (State.coolantStop s).kept = s.kept := by unfold State.coolantStop; simp

@[simp ↓] theorem State.noteHottest_kept (s : State) : (State.noteHottest s).kept = s.kept := by unfold State.noteHottest; split <;> simp

@[simp ↓] theorem State.darken_kept (s : State) : (State.darken s).kept = s.kept := by
  unfold State.darken
  try dsimp only
  repeat' (first
  | (simp; done)
  | (with_reducible rfl)
  | (intro _)
  | (assumption)
  | rw [foldl_kept]
  | rw [foldl_kept1]
  | (split))

@[simp ↓] theorem State.putSump_kept (s : State) (k : Nat) (x : Sump) : (State.putSump s k x).kept = s.kept := by unfold State.putSump; simp

@[simp ↓] theorem State.finishCreates_kept (s : State) :
    (State.finishCreates s).kept = s.kept := by unfold State.finishCreates; dsimp only; rw [foldl_kept]; intro t a; simp

@[simp ↓] theorem State.afterLoad_kept (s : State) (sched : Bool) (h status : Nat) :
    (State.afterLoad s sched h status).kept = s.kept := by unfold State.afterLoad; split <;> simp

@[simp ↓] theorem State.endHead_kept (s : State) (q : LoadReq) (status ready : Nat) :
    (State.endHead s q status ready).kept = s.kept := by unfold State.endHead; simp

@[simp ↓] theorem State.scanSegments_kept (s : State) (ctx : Nat) (hdr : List Byte) : (State.scanSegments s ctx hdr).1.kept = s.kept := by
  unfold State.scanSegments
  try dsimp only
  repeat' (first
  | (simp; done)
  | (with_reducible rfl)
  | (intro _)
  | (assumption)
  | (rename _ = (_, _) => hh; have e := congrArg Prod.fst hh; clear hh; dsimp only at e; subst e)
  | rw [foldl_kept]
  | rw [foldl_kept1]
  | (split))

@[simp ↓] theorem State.claimLoad_kept (s : State) (q : LoadReq) (e : DirEntry) (hdr : List Byte) (cores sites : List (Nat × Nat)) :
    (State.claimLoad s q e hdr cores sites).kept = s.kept := by
  unfold State.claimLoad; dsimp only; simp [foldl_kept]

@[simp ↓] theorem State.releaseStale_kept (s : State) (h : Nat) (cores : List (Nat × Nat)) : (State.releaseStale s h cores).kept = s.kept := by
  unfold State.releaseStale
  try dsimp only
  repeat' (first
  | (simp; done)
  | (with_reducible rfl)
  | (intro _)
  | (assumption)
  | rw [foldl_kept])

@[simp ↓] theorem State.startLoad_kept (s : State) (q : LoadReq) (e : DirEntry) (hdr : List Byte) (ls : List Nat) :
    (State.startLoad s q e hdr ls).kept = s.kept := by
  unfold State.startLoad; dsimp only; repeat' split
  all_goals simp [foldl_kept]

@[simp ↓] theorem State.loadStart_kept (s : State) : (State.loadStart s).kept = s.kept := by
  unfold State.loadStart
  try dsimp only
  repeat' (first
  | (simp; done)
  | (with_reducible rfl)
  | (intro _)
  | (assumption)
  | (rename _ = (_, _) => hh; have e := congrArg Prod.fst hh; clear hh; dsimp only at e; subst e)
  | rw [foldl_kept]
  | rw [foldl_kept1]
  | (split))

@[simp ↓] theorem State.modLoad_kept (s : State) (f : Load → Load) : (State.modLoad s f).kept = s.kept := by unfold State.modLoad; simp

@[simp ↓] theorem State.failSeg_kept (s : State) (l : Load) (i status : Nat) : (State.failSeg s l i status).kept = s.kept := by
  unfold State.failSeg; dsimp only; simp [foldl_kept]

@[simp ↓] theorem State.endSegment_kept (s : State) (l : Load) (e : DirEntry) (i off : Nat) : (State.endSegment s l e i off).kept = s.kept := by
  unfold State.endSegment
  try dsimp only
  repeat' (first
  | (simp; done)
  | (with_reducible rfl)
  | (intro _)
  | (assumption)
  | (rename _ = (_, _) => hh; have e := congrArg Prod.fst hh; clear hh; dsimp only at e; subst e)
  | rw [foldl_kept]
  | rw [foldl_kept1]
  | (split)
  | simp)

@[simp ↓] theorem State.applyRecord_kept (s : State) (l : Load) (i off : Nat) (r : SegRec) : (State.applyRecord s l i off r).kept = s.kept := by
  unfold State.applyRecord; dsimp only; repeat' split
  all_goals simp

@[simp ↓] theorem State.loadRecord_kept (s : State) (i : Nat) : (State.loadRecord s i).kept = s.kept := by
  unfold State.loadRecord
  try dsimp only
  repeat' (first
  | (simp; done)
  | (with_reducible rfl)
  | (intro _)
  | (assumption)
  | (rename _ = (_, _) => hh; have e := congrArg Prod.fst hh; clear hh; dsimp only at e; subst e)
  | rw [foldl_kept]
  | rw [foldl_kept1]
  | (split))

@[simp ↓] theorem State.endSlots_kept (s : State) (l : Load) (status : Nat) : (State.endSlots s l status).kept = s.kept := by
  unfold State.endSlots
  try dsimp only
  repeat' (first
  | (simp; done)
  | (with_reducible rfl)
  | (intro _)
  | (assumption)
  | rw [foldl_kept])

@[simp ↓] theorem State.loadComplete_kept (s : State) : (State.loadComplete s).kept = s.kept := by
  unfold State.loadComplete; dsimp only; repeat' split
  all_goals simp [foldl_kept]

@[simp ↓] theorem State.landSegment_kept (s : State) (g i : Nat) (r : HostRead) : (State.landSegment s g i r).kept = s.kept := by
  unfold State.landSegment; dsimp only; repeat' split
  all_goals simp

@[simp ↓] theorem State.modBoot_kept (s : State) (f : BitVec 64 → BitVec 64) : (State.modBoot s f).kept = s.kept := by unfold State.modBoot; simp

@[simp ↓] theorem State.endBoot_kept (s : State) (phase : Nat) : (State.endBoot s phase).kept = s.kept := by unfold State.endBoot; simp

@[simp ↓] theorem State.failBoot_kept (s : State) : (State.failBoot s).kept = s.kept := by unfold State.failBoot; simp

@[simp ↓] theorem State.verified_kept (s : State) : (State.verified s).kept = s.kept := by
  unfold State.verified; dsimp only; repeat' split
  all_goals simp [foldl_kept]

@[simp ↓] theorem State.lockNode_kept (s : State) (n : Node) : (State.lockNode s n).kept = s.kept := by unfold State.lockNode; simp

@[simp ↓] theorem State.measureLinks_kept (s : State) (n : Node) : (State.measureLinks s n).kept = s.kept := by unfold State.measureLinks; simp

@[simp ↓] theorem State.rimDone_kept (s : State) (galFails : List Gal) : (State.rimDone s galFails).kept = s.kept := by
  unfold State.rimDone; dsimp only; repeat' split
  all_goals simp [foldl_kept]

@[simp ↓] theorem State.startBench_kept (s : State) : (State.startBench s).kept = s.kept := by unfold State.startBench; split <;> simp

@[simp ↓] theorem State.spallRows_kept (s : State) (rows : List (Nat × Nat)) : (State.spallRows s rows).kept = s.kept := by
  unfold State.spallRows
  try dsimp only
  repeat' (first
  | (simp; done)
  | (with_reducible rfl)
  | (intro _)
  | (assumption)
  | rw [foldl_kept])

@[simp ↓] theorem State.pauseGroup_kept (s : State) (mask : Nat) : (State.pauseGroup s mask).kept = s.kept := by
  unfold State.pauseGroup
  try dsimp only
  repeat' (first
  | (simp)
  | (with_reducible rfl)
  | (intro _)
  | (assumption)
  | rw [foldl_kept])

@[simp ↓] theorem State.hbmTested_kept (s : State) (rows : List (Nat × Nat)) : (State.hbmTested s rows).kept = s.kept := by
  unfold State.hbmTested; dsimp only; repeat' split
  all_goals simp [foldl_kept]

@[simp ↓] theorem State.writeTables_kept (s : State) :
    (State.writeTables s).kept = s.kept := by unfold State.writeTables; dsimp only; rw [foldl_kept]; intro t a; simp

@[simp ↓] theorem State.publish_kept (s : State) : (State.publish s).kept = s.kept := by unfold State.publish; simp

@[simp ↓] theorem State.phaseEnds_kept (s : State) (f : PhaseFindings) : (State.phaseEnds s f).kept = s.kept := by
  unfold State.phaseEnds
  try dsimp only
  repeat' (first
  | (simp; done)
  | (with_reducible rfl)
  | (intro _)
  | (assumption)
  | rw [foldl_kept]
  | rw [foldl_kept1]
  | (split))

@[simp ↓] theorem State.findDeadSite_kept (s : State) (i cause : Nat) :
    (State.findDeadSite s i cause).kept = s.kept := by unfold State.findDeadSite; simp

@[simp ↓] theorem State.findDeadCore_kept (s : State) (p : Nat) : (State.findDeadCore s p).kept = s.kept := by unfold State.findDeadCore; simp

@[simp ↓] theorem State.findDeadLane_kept (s : State) (i lane : Nat) :
    (State.findDeadLane s i lane).kept = s.kept := by unfold State.findDeadLane; simp

@[simp ↓] theorem State.noteFindings_kept (s : State) (f : Findings) (ms : List Nat) : (State.noteFindings s f ms).kept = s.kept := by
  unfold State.noteFindings; dsimp only; simp [foldl_kept]

@[simp ↓] theorem State.startControllers_kept (s : State) (ms : List Nat) : (State.startControllers s ms).kept = s.kept := by
  unfold State.startControllers; dsimp only; simp [foldl_kept]

@[simp ↓] theorem State.bistPass_kept (s : State) (ms : List Nat) : (State.bistPass s ms).kept = s.kept := by
  unfold State.bistPass
  try dsimp only
  repeat' (first
  | (simp; done)
  | (with_reducible rfl)
  | (intro _)
  | (assumption)
  | rw [foldl_kept])

@[simp ↓] theorem State.repairFound_kept (s : State) : (State.repairFound s).kept = s.kept := by
  unfold State.repairFound; dsimp only; simp [foldl_kept]

@[simp ↓] theorem State.storeMap_kept (s : State) : (State.storeMap s).kept = s.kept := by unfold State.storeMap; simp

@[simp ↓] theorem State.mapUpdate_kept (s : State) : (State.mapUpdate s).kept = s.kept := by unfold State.mapUpdate; simp

@[simp ↓] theorem State.testStep_kept (s : State) (f : Findings) (ms : List Nat) (c : Nat) : (State.testStep s f ms c).kept = s.kept := by
  unfold State.testStep; dsimp only; repeat' split
  all_goals simp [foldl_kept]

@[simp ↓] theorem State.dropLateRequests_kept (s : State) : (State.dropLateRequests s).kept = s.kept := by
  unfold State.dropLateRequests; dsimp only; simp [foldl_kept]

@[simp ↓] theorem State.benchStep_kept (s : State) (f : Findings) (b : Nat) : (State.benchStep s f b).kept = s.kept := by unfold State.benchStep; simp

@[simp ↓] theorem State.meadowTest_kept (s : State) (f : Findings) (m c : Nat) (rest : List (Nat × Nat)) :
    (State.meadowTest s f m c rest).kept = s.kept := by unfold State.meadowTest; simp

@[simp ↓] theorem State.stageSite_kept (s : State) (i : Nat) : (State.stageSite s i).kept = s.kept := by
  unfold State.stageSite; dsimp only; repeat' split
  all_goals simp [foldl_kept]

@[simp ↓] theorem State.multicastTaken_kept (s : State) (k : Packet) (i : Nat) :
    (State.multicastTaken s k i).kept = s.kept := by unfold State.multicastTaken; split <;> simp

@[simp ↓] theorem State.distribute_kept (s : State) : (State.distribute s).kept = s.kept := by unfold State.distribute; simp

@[simp ↓] theorem State.repairRound_kept (s : State) (round : Nat) : (State.repairRound s round).kept = s.kept := by unfold State.repairRound; simp

@[simp ↓] theorem State.endRepair_kept (s : State) : (State.endRepair s).kept = s.kept := by unfold State.endRepair; simp

@[simp ↓] theorem State.checkParts_kept (s : State) : (State.checkParts s).kept = s.kept := by
  unfold State.checkParts
  try dsimp only
  repeat' (first
  | (simp)
  | (with_reducible rfl)
  | (intro _)
  | (assumption)
  | rw [foldl_kept])

@[simp ↓] theorem State.endUpdate_kept (s : State) (phase status receivers : Nat) (at_ : BitVec 64) :
    (State.endUpdate s phase status receivers at_).kept = s.kept := by unfold State.endUpdate; split <;> simp

@[simp ↓] theorem State.activate_kept (s : State) : (State.activate s).kept = s.kept := by
  unfold State.activate; dsimp only; repeat' split
  all_goals simp [foldl_kept]

@[simp ↓] theorem State.icuComplete_kept (s : State) (g b n : Nat) : (State.icuComplete s g b n).kept = s.kept := by unfold State.icuComplete; simp

end Sys2Proof.Machine
end

