-- ==== Sys2Proof/Laws/KeptHost.lean ====
section
/-! SUPPORT. That the functions of host rows, authorised operations, registers and host commands leave the waiting commands and the security vault alone. -/

namespace Sys2Proof.Machine

@[simp ↓] theorem State.signal_kept (s : State) (f vector : Nat) : (State.signal s f vector).kept = s.kept := by unfold State.signal; simp

@[simp ↓] theorem State.maskVector_kept (s : State) (f vector : Nat) (masked : Bool) :
    (State.maskVector s f vector masked).kept = s.kept := by unfold State.maskVector; simp

@[simp ↓] theorem State.coalesce_kept (s : State) (k : Nat) : (State.coalesce s k).kept = s.kept := by unfold State.coalesce; split <;> simp

@[simp ↓] theorem State.queueError_kept (s : State) (k kind : Nat) : (State.queueError s k kind).kept = s.kept := by unfold State.queueError; simp

@[simp ↓] theorem State.strayBell_kept (s : State) (f : Nat) : (State.strayBell s f).kept = s.kept := by unfold State.strayBell; simp

@[simp ↓] theorem State.sqBell_kept (s : State) (k tail : Nat) :
    (State.sqBell s k tail).kept = s.kept := by unfold State.sqBell; dsimp only; split <;> simp

@[simp ↓] theorem State.pumpQp_kept (s : State) (k : Nat) : (State.pumpQp s k).kept = s.kept := by
  unfold State.pumpQp
  try dsimp only
  repeat' (first
  | (simp; done)
  | (with_reducible rfl)
  | (intro _)
  | (assumption)
  | rw [foldl_kept]
  | rw [foldl_kept1]
  | (split))

@[simp ↓] theorem State.cqBell_kept (s : State) (k head : Nat) :
    (State.cqBell s k head).kept = s.kept := by unfold State.cqBell; dsimp only; split <;> simp

@[simp ↓] theorem State.enableAq_kept (s : State) (f : Nat) : (State.enableAq s f).kept = s.kept := by unfold State.enableAq; simp

@[simp ↓] theorem State.disableAq_kept (s : State) (f : Nat) : (State.disableAq s f).kept = s.kept := by unfold State.disableAq; simp

@[simp ↓] theorem State.completeAfter_kept (s : State) (c : Cmd) (r : Rec) (fns : List Nat) :
    (State.completeAfter s c r fns).kept = s.kept := by unfold State.completeAfter; simp

@[simp ↓] theorem State.flushed_kept (s : State) (port id : Nat) : (State.flushed s port id).kept = s.kept := by
  unfold State.flushed; dsimp only; simp [foldl_kept]

@[simp ↓] theorem State.endRequest_kept (s : State) (r : HostReq) (st : BitVec 4) (data : List Byte) :
    (State.endRequest s r st data).kept = s.kept := by unfold State.endRequest; simp

@[simp ↓] theorem State.endRequests_kept (s : State) (port : Nat) (p : HostReq → Bool) (st : BitVec 4) :
    (State.endRequests s port p st).kept = s.kept := by
  unfold State.endRequests
  try dsimp only
  repeat' (first
  | (simp)
  | (with_reducible rfl)
  | (intro _)
  | (assumption)
  | rw [foldl_kept])

@[simp ↓] theorem State.killQp_kept (s : State) (k : Nat) : (State.killQp s k).kept = s.kept := by
  unfold State.killQp; dsimp only; simp [foldl_kept]

@[simp ↓] theorem State.detach_kept (s : State) (n f : Nat) : (State.detach s n f).kept = s.kept := by
  unfold State.detach; dsimp only; simp [foldl_kept]

@[simp ↓] theorem State.flr1_kept (s : State) (f : Nat) : (State.flr1 s f).kept = s.kept := by
  unfold State.flr1; dsimp only; simp [foldl_kept]

@[simp ↓] theorem State.flr_kept (s : State) (port vf : Nat) : (State.flr s port vf).kept = s.kept := by
  unfold State.flr
  try dsimp only
  repeat' (first
  | (simp; done)
  | (with_reducible rfl)
  | (intro _)
  | (assumption)
  | rw [foldl_kept]
  | rw [foldl_kept1]
  | (split)
  | simp)

@[simp ↓] theorem State.linkDown_kept (s : State) (port : Nat) : (State.linkDown s port).kept = s.kept := by unfold State.linkDown; simp

@[simp ↓] theorem State.logStep_kept (s : State) (c : Cmd) : (State.logStep s c).kept = s.kept := by unfold State.logStep; simp

@[simp ↓] theorem State.noteLaunch_kept (s : State) (c : Cmd) : (State.noteLaunch s c).kept = s.kept := by unfold State.noteLaunch; simp

theorem State.recovery_kept (s : State) (c : Cmd) : ∀ t, s.recovery c = some t → t.kept = s.kept := by
  intro t h; unfold State.recovery at h
  repeat' (first
  | (cases h; done)
  | (cases h; simp)
  | (split at h)
  | (dsimp only at h))
@[simp ↓] theorem State.checkCmd_kept (s : State) (c : Cmd) : (s.checkCmd c).kept = s.kept := by
  unfold State.checkCmd
  dsimp only
  repeat' split
  all_goals first
  | (simp)
  | (rename _ = some _ => h; rw [State.recovery_kept _ _ _ h]; simp)

@[simp ↓] theorem State.acceptCmd_kept (s : State) (c : Cmd) : (State.acceptCmd s c).kept = s.kept := by unfold State.acceptCmd; simp

@[simp ↓] theorem State.answerAborts_kept (s : State) : (State.answerAborts s).kept = s.kept := by
  unfold State.answerAborts; dsimp only; simp [foldl_kept]

@[simp ↓] theorem State.authFail_kept (s : State) (err : Nat) : (State.authFail s err).kept = s.kept := by unfold State.authFail; simp

@[simp ↓] theorem State.authDone_kept (s : State) : (State.authDone s).kept = s.kept := by unfold State.authDone; simp

@[simp ↓] theorem State.authNew_kept (s : State) : (State.authNew s).kept = s.kept := by unfold State.authNew; simp

theorem State.putKey_kept (s : State) (n : Nat) : (s.putKey n).kept = { s.kept with vault := { s.kept.vault with
    fleetKey := Tab.set 0 s.nv.fleetKey n s.sec.arg, fleetUsed := setBit s.nv.fleetUsed n true } } := Eq.trans rfl rfl

theorem State.stepLife_kept (s : State) (lc : BitVec 2) : (s.stepLife lc).kept = { s.kept with vault := { s.kept.vault with
    lifecycle := lc } } := Eq.trans rfl rfl

theorem onward_full (s t u : State) (n : BitVec 32) (h : t.kept = s.kept) (hu : u.pending = t.pending) (hv : u.nv = { t.nv with fullCount := n }) :
    s.kept.Onward u.kept := by
  have h1 : t.pending = s.pending := congrArg Kept.pending h
  have h2 : t.nv.vault = s.nv.vault := congrArg Kept.vault h
  have h3 : u.nv.vault = { s.nv.vault with fullCount := n } := by rw [hv, ← h2]; rfl
  refine ⟨hu.trans h1, fun k => ?_⟩
  show u.nv.vault.ok ∧ s.nv.vault.Moved u.nv.vault
  rw [h3]
  exact ⟨k, ⟨rfl, rfl, rfl, Nat.le_refl _, Nat.le_refl _, fun _ _ h => h, fun _ _ h => ⟨h, rfl⟩⟩⟩
theorem State.unlockEnd_onward (s : State) : s.kept.Onward s.unlockEnd.kept := by
  unfold State.unlockEnd; dsimp only
  rw [State.authDone_kept]
  refine onward_full s (State.mapSetts (s.mapCores fun p c => if (s.logicalOf p).isSome then c.wiped else c) fun _ x => { x with meshH0 := none, meshH1 := none }) _
    ((State.mapSetts (s.mapCores fun p c => if (s.logicalOf p).isSome then c.wiped else c) fun _ x => { x with meshH0 := none, meshH1 := none }).nv.fullCount + 1)
    (by simp) ?_ ?_
  · generalize (State.mapSetts (s.mapCores fun p c => if (s.logicalOf p).isSome then c.wiped else c) fun _ x => { x with meshH0 := none, meshH1 := none }) = t; rfl
  · generalize (State.mapSetts (s.mapCores fun p c => if (s.logicalOf p).isSome then c.wiped else c) fun _ x => { x with meshH0 := none, meshH1 := none }) = t; rfl
theorem State.stepLife_onward (s : State) (lc : BitVec 2) (h : s.nv.lifecycle.toNat ≤ lc.toNat) (h2 : lc.toNat < 2 → s.nv.lifecycle.toNat < 2) :
    s.kept.Onward (s.stepLife lc).kept := by
  rw [State.stepLife_kept]
  exact ⟨rfl, fun k => ⟨⟨fun x => k.1 (h2 x), k.2⟩, ⟨rfl, rfl, rfl, h, Nat.le_refl _, fun _ _ h => h, fun _ _ h => ⟨h, rfl⟩⟩⟩⟩

theorem State.authEnd_onward (s : State) (op : Nat) : s.kept.Onward (s.authEnd op).kept := by
  unfold State.authEnd
  split
  · split
    · exact s.unlockEnd_onward
    · rw [State.authDone_kept]
      refine s.stepLife_onward 3 ?_ ?_
      · have := s.nv.lifecycle.isLt; show s.nv.lifecycle.toNat ≤ 3; omega
      · intro h; exact absurd h (by decide)
  · exact .refl _

theorem State.authClose_onward (s : State) (op : Nat) : s.kept.Onward (s.authClose op).kept := by
  unfold State.authClose; dsimp only
  refine Kept.Onward.trans (Kept.Onward.of_eq ?_) (State.authEnd_onward _ op)
  simp; rw [foldl_kept]
  · simp
  · simp

theorem Vault.claim_moved (v : Vault) (k : Tab (BitVec 512)) (m : BitVec 4) (hl : v.lifecycle = 1) (h : v.ok) :
    Vault.ok { v with fleetKey := k, fleetUsed := m, lifecycle := 2 } ∧ v.Moved { v with fleetKey := k, fleetUsed := m, lifecycle := 2 } := by
  refine ⟨⟨fun x => absurd x (show ¬ (2 : BitVec 2).toNat < 2 by decide), h.2⟩, ⟨rfl, rfl, rfl, ?_, Nat.le_refl _, fun _ _ h => h, ?_⟩⟩
  · show v.lifecycle.toNat ≤ 2; rw [hl]; decide
  · intro n _ hn
    have h0 := (h.1 (by rw [hl]; decide)).1
    exact absurd hn (by rw [h0]; simp [bit])
theorem Vault.add_moved (v : Vault) (k : BitVec 512) (n : Nat) (hl : v.lifecycle = 2) (h : v.ok) (hn4 : n < 4) (hnu : bit v.fleetUsed n = false) :
    Vault.ok { v with fleetKey := Tab.set 0 v.fleetKey n k, fleetUsed := setBit v.fleetUsed n true }
      ∧ v.Moved { v with fleetKey := Tab.set 0 v.fleetKey n k, fleetUsed := setBit v.fleetUsed n true } := by
  refine ⟨⟨fun x => absurd x (show ¬ v.lifecycle.toNat < 2 by rw [hl]; decide), h.2⟩,
    ⟨rfl, rfl, rfl, Nat.le_refl _, Nat.le_refl _, fun _ _ h => h, ?_⟩⟩
  intro m hm hu
  have hne : m ≠ n := by intro hh; subst hh; exact absurd (hu.symm.trans hnu) (by decide)
  refine ⟨?_, ?_⟩
  · have := bit_setBit4 v.fleetUsed ⟨n, hn4⟩ ⟨m, hm⟩
    show bit (setBit v.fleetUsed n true) m = true
    rw [show setBit v.fleetUsed n true = setBit v.fleetUsed (⟨n, hn4⟩ : Fin 4).val true from rfl, this]
    simp [hu]
  · show Tab.get 0 (Tab.set 0 v.fleetKey n k) m = _
    rw [get_set, if_neg hne]
theorem Vault.revoke_moved (v : Vault) (n : Nat) (hl : v.lifecycle = 2) (h : v.ok) (hn4 : n < 4) :
    Vault.ok { v with fleetRevoked := setBit v.fleetRevoked n true } ∧ v.Moved { v with fleetRevoked := setBit v.fleetRevoked n true } := by
  refine ⟨⟨fun x => absurd x (show ¬ v.lifecycle.toNat < 2 by rw [hl]; decide), h.2⟩,
        ⟨rfl, rfl, rfl, Nat.le_refl _, Nat.le_refl _, ?_, fun _ _ h => ⟨h, rfl⟩⟩⟩
  intro m hm hu
  have := bit_setBit4 v.fleetRevoked ⟨n, hn4⟩ ⟨m, hm⟩
  show bit (setBit v.fleetRevoked (⟨n, hn4⟩ : Fin 4).val true) m = true
  rw [this]; simp [hu]
theorem Vault.svn_moved (v : Vault) (n : Nat) (h : v.ok) :
    Vault.ok { v with minSvn := BitVec.ofNat 8 (max v.minSvn.toNat (min 64 n)) } ∧ v.Moved { v with minSvn := BitVec.ofNat 8 (max v.minSvn.toNat (min 64 n)) } := by
  have k2 := h.2
  have hv : (BitVec.ofNat 8 (max v.minSvn.toNat (min 64 n))).toNat = max v.minSvn.toNat (min 64 n) := by
    rw [BitVec.toNat_ofNat]; apply Nat.mod_eq_of_lt; omega
  exact ⟨⟨h.1, by show (BitVec.ofNat 8 _).toNat ≤ 64; rw [hv]; omega⟩,
      ⟨rfl, rfl, rfl, Nat.le_refl _, by show _ ≤ (BitVec.ofNat 8 _).toNat; rw [hv]; exact Nat.le_max_left _ _, fun _ _ h => h, fun _ _ h => ⟨h, rfl⟩⟩⟩
theorem onward_vault {s u : State} {v : Vault} (h : u.kept = ⟨s.pending, v⟩) (hv : s.nv.vault.ok → v.ok ∧ s.nv.vault.Moved v) :
    s.kept.Onward u.kept := by
  rw [h]; exact ⟨rfl, hv⟩
theorem State.authApply_onward (s : State) (op : Nat) (h : opAllowed op s.nv.lifecycle = true) : s.kept.Onward (s.authApply op).kept := by
  unfold State.authApply
  split
  · exact s.authClose_onward _
  · exact s.authClose_onward _
  · rw [State.authDone_kept]
    have e : s.nv.lifecycle = 0 := by simpa [opAllowed] using h
    exact s.stepLife_onward 1 (by rw [e]; decide) (fun _ => by rw [e]; decide)
  · have e : s.nv.lifecycle = 1 := by simpa [opAllowed] using h
    refine onward_vault (v := { s.nv.vault with fleetKey := Tab.set 0 s.nv.fleetKey 0 s.sec.arg, fleetUsed := setBit s.nv.fleetUsed 0 true, lifecycle := 2 })
      ?_ (Vault.claim_moved _ _ _ e)
    rw [State.authDone_kept, State.stepLife_kept, State.putKey_kept]; rfl
  · have e : s.nv.lifecycle = 2 := by simpa [opAllowed] using h
    rw [State.authDone_kept]
    split
    · rename_i n hn
      have hn4 : n < 4 := by have := List.mem_of_find?_eq_some hn; simpa using this
      have hnu : bit s.nv.fleetUsed n = false := by
        have := List.find?_some hn; simp at this; exact this.1
      refine onward_vault (State.putKey_kept s n) fun k => Vault.add_moved s.nv.vault s.sec.arg n e k hn4 hnu
    · exact .refl _
  · have e : s.nv.lifecycle = 2 := by simpa [opAllowed] using h
    refine onward_vault (v := { s.nv.vault with fleetRevoked := setBit s.nv.fleetRevoked (s.sec.arg.toNat % 4) true }) ?_
      fun k => Vault.revoke_moved s.nv.vault _ e k (Nat.mod_lt _ (by decide))
    rw [State.authDone_kept, State.kept_mk]; rfl
  · refine onward_vault (v := { s.nv.vault with minSvn := BitVec.ofNat 8 (max s.nv.minSvn.toNat (min 64 s.fw.svn.toNat)) }) ?_
      fun k => Vault.svn_moved s.nv.vault s.fw.svn.toNat k
    rw [State.authDone_kept, State.kept_mk]; rfl
  · exact .of_eq (by simp)

theorem State.authGo_onward (s : State) (op : Nat) : s.kept.Onward (s.authGo op).kept := by
  unfold State.authGo; dsimp only
  split
  · exact .refl _
  split
  · exact .of_eq (by simp)
  split
  · exact .of_eq (by simp)
  rename_i h
  split
  · exact .of_eq (by simp)
  split
  · exact .of_eq (by simp)
  split
  · exact .of_eq (by simp)
  refine Kept.Onward.trans (Kept.Onward.of_eq ?_) (State.authApply_onward _ op ?_)
  · simp
  · simpa using h

@[simp ↓] theorem State.laneGood_kept (s : State) (e : Nat × Nat) : (State.laneGood s e).kept = s.kept := by unfold State.laneGood; split <;> simp

@[simp ↓] theorem State.meshLand_kept (s : State) (id : Nat) : (State.meshLand s id).kept = s.kept := by
  unfold State.meshLand; dsimp only; repeat' split
  all_goals simp [foldl_kept]

structure keepsReg (s : State) (r : RegRead) : Prop where
  out : ∀ x, r = some x → x.2.2.kept = s.kept
theorem keepsReg_none (s : State) : keepsReg s none := ⟨fun _ h => nomatch h⟩
theorem keepsReg_some (s : State) (w : Nat) (v : BitVec 64) (t : State) (h : t.kept = s.kept) : keepsReg s (some (w, v, t)) := by
  constructor; intro x e; cases e; exact h
theorem keepsReg_32 (s : State) (v : BitVec 32) : keepsReg s (s.reg32 v) := keepsReg_some s _ _ _ rfl
theorem keepsReg_64 (s : State) (v : BitVec 64) : keepsReg s (s.reg64 v) := keepsReg_some s _ _ _ rfl
theorem keepsReg_ite (s : State) (c : Prop) [Decidable c] (a b : RegRead) (ha : keepsReg s a) (hb : keepsReg s b) :
    keepsReg s (if c then a else b) := by
  split
  · exact ha
  · exact hb
theorem keepsReg_first (s : State) (l : List (Unit → RegRead)) (h : ∀ f ∈ l, keepsReg s (f ())) : keepsReg s (firstReg l) := by
  induction l with
  | nil => exact keepsReg_none s
  | cons f l ih =>
    unfold firstReg; split
    · rename_i r e; rw [← e]; exact h f (List.mem_cons_self ..)
    · exact ih fun g hg => h g (List.mem_cons_of_mem _ hg)
theorem keepsReg_bind {α : Type} (s : State) (o : Option α) (f : α → RegRead) (h : ∀ a, keepsReg s (f a)) : keepsReg s (o.bind f) := by
  cases o with
  | none => exact keepsReg_none s
  | some a => exact h a
theorem keepsReg_map {α : Type} (s : State) (o : Option α) (f : α → Nat × BitVec 64 × State) (h : ∀ a, (f a).2.2.kept = s.kept) :
    keepsReg s (o.map f) := by
  cases o with
  | none => exact keepsReg_none s
  | some a => constructor; intro x e; cases e; exact h a
theorem State.readRouterIdx_kept (s : State) (n : Node) (x : Router) (off : Nat) : keepsReg s (s.readRouterIdx n x off) := by
  unfold State.readRouterIdx
  extract_lets p r
  clear_value p r
  generalize arrayIdx 0x50000 4 2048 off = o
  cases o with
  | some k => exact keepsReg_ite _ _ _ _ (keepsReg_32 _ _) (keepsReg_none _)
  | none =>
    dsimp only
    refine @keepsReg_ite s _ _ _ _ (keepsReg_none _) ?_
    refine @keepsReg_ite s _ _ _ _ (keepsReg_64 _ _) ?_
    refine @keepsReg_ite s _ _ _ _ (keepsReg_64 _ _) ?_
    refine @keepsReg_ite s _ _ _ _ (keepsReg_32 _ _) ?_
    generalize arrayIdx 0x10 4 8 r = o2
    cases o2 with
    | some q => exact keepsReg_some s 32 _ _ (State.modRouter_kept _ _ _)
    | none =>
      generalize arrayIdx 0x40 8 8 r = o3
      cases o3 with
      | some q => exact keepsReg_64 _ _
      | none => exact keepsReg_none _
theorem State.readRouter_kept (s : State) (n : Node) (off : Nat) : keepsReg s (s.readRouter n off) := by
  unfold State.readRouter; repeat' (first
    | with_reducible exact keepsReg_none _
    | with_reducible exact keepsReg_32 _ _
    | with_reducible exact keepsReg_64 _ _
    | (with_reducible refine keepsReg_some _ _ _ _ ?_; simp)
    | with_reducible exact State.readRouterIdx_kept ..
    | with_reducible exact State.readRouter_kept ..
    | (split))
theorem State.readClk_kept (s : State) (n : Node) (off : Nat) : keepsReg s (s.readClk n off) := by
  unfold State.readClk; repeat' (first
    | with_reducible exact keepsReg_none _
    | with_reducible exact keepsReg_32 _ _
    | with_reducible exact keepsReg_64 _ _
    | (with_reducible refine keepsReg_some _ _ _ _ ?_; simp)
    | with_reducible exact State.readClk_kept ..
    | (split))
theorem State.readSettOne_kept (s : State) (i off : Nat) : keepsReg s (s.readSettOne i off) := by
  unfold State.readSettOne; repeat' (first
    | with_reducible exact keepsReg_none _
    | with_reducible exact keepsReg_32 _ _
    | with_reducible exact keepsReg_64 _ _
    | (with_reducible refine keepsReg_some _ _ _ _ ?_; simp)
    | with_reducible exact State.readSettOne_kept ..
    | (split))
theorem State.readSettIdx_kept (s : State) (i off : Nat) : keepsReg s (s.readSettIdx i off) := by
  unfold State.readSettIdx; repeat' (first
    | with_reducible exact keepsReg_none _
    | with_reducible exact keepsReg_32 _ _
    | with_reducible exact keepsReg_64 _ _
    | with_reducible exact State.readSettIdx_kept ..
    | (split))
theorem State.readSett_kept (s : State) (i off : Nat) : keepsReg s (s.readSett i off) := by
  unfold State.readSett; repeat' (first
    | with_reducible exact keepsReg_none _
    | with_reducible exact keepsReg_32 _ _
    | with_reducible exact keepsReg_64 _ _
    | with_reducible exact State.readRouter_kept ..
    | with_reducible exact State.readClk_kept ..
    | with_reducible exact State.readSettOne_kept ..
    | with_reducible exact State.readSettIdx_kept ..
    | with_reducible exact State.readSett_kept ..
    | (with_reducible refine keepsReg_first _ _ ?_; simp only [List.mem_cons, List.not_mem_nil, or_false, forall_eq_or_imp, forall_eq])
    | with_reducible refine And.intro ?_ ?_
    | intro _
    | (split))
theorem State.readSumpOne_kept (s : State) (i off : Nat) : keepsReg s (s.readSumpOne i off) := by
  unfold State.readSumpOne; repeat' (first
    | with_reducible exact keepsReg_none _
    | with_reducible exact keepsReg_32 _ _
    | with_reducible exact keepsReg_64 _ _
    | (with_reducible refine keepsReg_some _ _ _ _ ?_; simp)
    | with_reducible exact State.readSumpOne_kept ..
    | (split))
theorem State.readSumpIdx_kept (s : State) (i off : Nat) : keepsReg s (s.readSumpIdx i off) := by
  unfold State.readSumpIdx; repeat' (first
    | with_reducible exact keepsReg_none _
    | with_reducible exact keepsReg_32 _ _
    | with_reducible exact keepsReg_64 _ _
    | with_reducible exact State.readSumpIdx_kept ..
    | (split))
theorem State.readSump_kept (s : State) (i off : Nat) : keepsReg s (s.readSump i off) := by
  unfold State.readSump; repeat' (first
    | with_reducible exact keepsReg_none _
    | with_reducible exact keepsReg_32 _ _
    | with_reducible exact keepsReg_64 _ _
    | with_reducible exact State.readRouter_kept ..
    | with_reducible exact State.readClk_kept ..
    | with_reducible exact State.readSumpOne_kept ..
    | with_reducible exact State.readSumpIdx_kept ..
    | with_reducible exact State.readSump_kept ..
    | (with_reducible refine keepsReg_first _ _ ?_; simp only [List.mem_cons, List.not_mem_nil, or_false, forall_eq_or_imp, forall_eq])
    | with_reducible refine And.intro ?_ ?_
    | intro _
    | (split))
theorem State.readLedger_kept (s : State) (off : Nat) : keepsReg s (s.readLedger off) := by
  unfold State.readLedger; repeat' (first
    | with_reducible exact keepsReg_none _
    | with_reducible exact keepsReg_32 _ _
    | with_reducible exact keepsReg_64 _ _
    | (with_reducible refine keepsReg_some _ _ _ _ ?_; simp)
    | with_reducible exact State.readLedger_kept ..
    | (split))
theorem State.readSec_kept (s : State) (off : Nat) : keepsReg s (s.readSec off) := by
  unfold State.readSec; repeat' (first
    | with_reducible exact keepsReg_none _
    | with_reducible exact keepsReg_32 _ _
    | with_reducible exact keepsReg_64 _ _
    | with_reducible exact State.readSec_kept ..
    | (split))
theorem State.readPower_kept (s : State) (off : Nat) : keepsReg s (s.readPower off) := by
  unfold State.readPower; repeat' (first
    | with_reducible exact keepsReg_none _
    | with_reducible exact keepsReg_32 _ _
    | with_reducible exact keepsReg_64 _ _
    | (with_reducible refine keepsReg_some _ _ _ _ ?_; simp)
    | with_reducible exact State.readPower_kept ..
    | (split))
theorem State.readSpan_kept (s : State) (off : Nat) : keepsReg s (s.readSpan off) := by
  unfold State.readSpan; repeat' (first
    | with_reducible exact keepsReg_none _
    | with_reducible exact keepsReg_32 _ _
    | with_reducible exact keepsReg_64 _ _
    | (with_reducible refine keepsReg_some _ _ _ _ ?_; simp)
    | with_reducible exact State.readSpan_kept ..
    | (split))
theorem State.readG0One_kept (s : State) (off : Nat) : keepsReg s (s.readG0One off) := by
  unfold State.readG0One; repeat' (first
    | with_reducible exact keepsReg_none _
    | with_reducible exact keepsReg_32 _ _
    | with_reducible exact keepsReg_64 _ _
    | with_reducible exact State.readG0One_kept ..
    | (split))
theorem State.readG0_kept (s : State) (off : Nat) : keepsReg s (s.readG0 off) := by
  unfold State.readG0; repeat' (first
    | with_reducible exact keepsReg_none _
    | with_reducible exact keepsReg_32 _ _
    | with_reducible exact keepsReg_64 _ _
    | with_reducible exact State.readLedger_kept ..
    | with_reducible exact State.readSec_kept ..
    | with_reducible exact State.readPower_kept ..
    | with_reducible exact State.readSpan_kept ..
    | with_reducible exact State.readG0One_kept ..
    | with_reducible exact State.readG0_kept ..
    | (with_reducible refine keepsReg_first _ _ ?_; simp only [List.mem_cons, List.not_mem_nil, or_false, forall_eq_or_imp, forall_eq])
    | with_reducible refine And.intro ?_ ?_)
theorem State.readIcu_kept (s : State) (g off : Nat) : keepsReg s (s.readIcu g off) := by
  unfold State.readIcu; repeat' (first
    | with_reducible exact keepsReg_none _
    | with_reducible exact keepsReg_32 _ _
    | with_reducible exact keepsReg_64 _ _
    | (with_reducible refine keepsReg_some _ _ _ _ ?_; simp)
    | with_reducible exact State.readIcu_kept ..
    | (split))
theorem State.readGalIdx_kept (s : State) (g off : Nat) : keepsReg s (s.readGalIdx g off) := by
  unfold State.readGalIdx; repeat' (first
    | with_reducible exact keepsReg_none _
    | with_reducible exact keepsReg_32 _ _
    | with_reducible exact keepsReg_64 _ _
    | (with_reducible refine keepsReg_some _ _ _ _ ?_; simp)
    | with_reducible exact State.readGalIdx_kept ..
    | (split))
theorem State.readGal_kept (s : State) (g off : Nat) : keepsReg s (s.readGal g off) := by
  unfold State.readGal; repeat' (first
    | with_reducible exact keepsReg_none _
    | with_reducible exact keepsReg_32 _ _
    | with_reducible exact keepsReg_64 _ _
    | with_reducible exact State.readRouter_kept ..
    | with_reducible exact State.readClk_kept ..
    | with_reducible exact State.readG0_kept ..
    | with_reducible exact State.readIcu_kept ..
    | with_reducible exact State.readGalIdx_kept ..
    | with_reducible exact State.readGal_kept ..
    | (with_reducible refine keepsReg_first _ _ ?_; simp only [List.mem_cons, List.not_mem_nil, or_false, forall_eq_or_imp, forall_eq])
    | with_reducible refine And.intro ?_ ?_
    | intro _
    | (split))
theorem State.readCore_kept (s : State) (p off : Nat) : keepsReg s (s.readCore p off) := by
  unfold State.readCore; repeat' (first
    | with_reducible exact keepsReg_none _
    | with_reducible exact keepsReg_32 _ _
    | with_reducible exact keepsReg_64 _ _
    | with_reducible exact State.readCore_kept ..
    | (with_reducible refine keepsReg_map _ _ _ ?_; intro _; simp))
theorem State.readTarget_kept (s : State) (t : Target) : keepsReg s (s.readTarget t) := by
  unfold State.readTarget; repeat' (first
    | with_reducible exact keepsReg_none _
    | with_reducible exact keepsReg_32 _ _
    | with_reducible exact keepsReg_64 _ _
    | with_reducible exact State.readSett_kept ..
    | with_reducible exact State.readSump_kept ..
    | with_reducible exact State.readGal_kept ..
    | with_reducible exact State.readCore_kept ..
    | with_reducible refine keepsReg_bind _ _ _ ?_
    | intro _
    | (split))
@[simp ↓] theorem State.dbgWrite_kept (s : State) (p : Nat) (v : BitVec 32) : (s.dbgWrite p v).kept = s.kept := by
  unfold State.dbgWrite
  try dsimp only
  repeat' (first
  | (simp))

@[simp ↓] theorem State.writeAclk_kept (s : State) (n : Node) (v : BitVec 64) :
    (State.writeAclk s n v).kept = s.kept := by unfold State.writeAclk; split <;> simp

@[simp ↓] theorem State.alertWrite_kept (s : State) (v : BitVec 32) : (State.alertWrite s v).kept = s.kept := by unfold State.alertWrite; simp

theorem State.authWrite_onward (s : State) (v : BitVec 32) : s.kept.Onward (s.authWrite v).kept := by
  unfold State.authWrite; dsimp only
  split
  · refine Kept.Onward.trans (Kept.Onward.of_eq ?_) (State.authGo_onward _ _); simp
  · exact .of_eq (by simp)
structure keepsWr (s : State) (r : Option State) : Prop where
  out : ∀ x, r = some x → x.kept = s.kept
structure onwardWr (s : State) (r : Option State) : Prop where
  out : ∀ x, r = some x → s.kept.Onward x.kept
theorem keepsWr_none (s : State) : keepsWr s none := ⟨fun _ h => nomatch h⟩
theorem keepsWr_some (s t : State) (h : t.kept = s.kept) : keepsWr s (some t) := by
  constructor; intro x e; cases e; exact h
theorem keepsWr.onward {s : State} {r : Option State} (h : keepsWr s r) : onwardWr s r := ⟨fun x e => .of_eq (h.out x e)⟩
theorem onwardWr_some (s t : State) (h : s.kept.Onward t.kept) : onwardWr s (some t) := by
  constructor; intro x e; cases e; exact h
theorem State.writeCore_kept (s : State) (p off : Nat) (v : BitVec 64) : keepsWr s (s.writeCore p off v) := by
  unfold State.writeCore
  repeat' (first
    | with_reducible exact keepsWr_none _
    | (with_reducible refine keepsWr_some _ _ ?_; simp)
    | with_reducible exact State.writeCore_kept ..
    | (split))
theorem State.writeRouter_kept (s : State) (n : Node) (off : Nat) (v : BitVec 64) : keepsWr s (s.writeRouter n off v) := by
  unfold State.writeRouter
  repeat' (first
    | with_reducible exact keepsWr_none _
    | (with_reducible refine keepsWr_some _ _ ?_; simp)
    | with_reducible exact State.writeRouter_kept ..
    | (split))
theorem State.writeClk_kept (s : State) (n : Node) (off : Nat) (v : BitVec 64) : keepsWr s (s.writeClk n off v) := by
  unfold State.writeClk
  repeat' (first
    | with_reducible exact keepsWr_none _
    | (with_reducible refine keepsWr_some _ _ ?_; simp)
    | with_reducible exact State.writeClk_kept ..
    | (split))
theorem State.writeSett_kept (s : State) (p off : Nat) (v : BitVec 64) : keepsWr s (s.writeSett p off v) := by
  unfold State.writeSett
  repeat' (first
    | with_reducible exact keepsWr_none _
    | (with_reducible refine keepsWr_some _ _ ?_; simp)
    | with_reducible exact State.writeRouter_kept ..
    | with_reducible exact State.writeClk_kept ..
    | with_reducible exact State.writeSett_kept ..
    | (split))
theorem State.writeSump_kept (s : State) (p off : Nat) (v : BitVec 64) : keepsWr s (s.writeSump p off v) := by
  unfold State.writeSump
  repeat' (first
    | with_reducible exact keepsWr_none _
    | (with_reducible refine keepsWr_some _ _ ?_; simp)
    | with_reducible exact State.writeRouter_kept ..
    | with_reducible exact State.writeClk_kept ..
    | with_reducible exact State.writeSump_kept ..
    | (split))
theorem State.writeIcu_kept (s : State) (p off : Nat) (v : BitVec 64) : keepsWr s (s.writeIcu p off v) := by
  unfold State.writeIcu
  repeat' (first
    | with_reducible exact keepsWr_none _
    | (with_reducible refine keepsWr_some _ _ ?_; simp)
    | with_reducible exact State.writeIcu_kept ..
    | (split))
theorem State.writeG0Idx_kept (s : State) (off : Nat) (v : BitVec 64) : keepsWr s (s.writeG0Idx off v) := by
  unfold State.writeG0Idx
  repeat' (first
    | with_reducible exact keepsWr_none _
    | (with_reducible refine keepsWr_some _ _ ?_; simp)
    | with_reducible exact State.writeG0Idx_kept ..
    | (split))
theorem State.writeG0One_onward (s : State) (off : Nat) (v : BitVec 64) : onwardWr s (s.writeG0One off v) := by
  unfold State.writeG0One; dsimp only
  split
  · refine (keepsWr_some _ _ ?_).onward; simp
  · refine (keepsWr_some _ _ ?_).onward; simp
  · refine (keepsWr_some _ _ ?_).onward; simp
  · refine (keepsWr_some _ _ ?_).onward; simp
  · refine (keepsWr_some _ _ ?_).onward; simp
  · refine (keepsWr_some _ _ ?_).onward; simp
  · refine (keepsWr_some _ _ ?_).onward; split <;> simp
  · refine (keepsWr_some _ _ ?_).onward; simp
  · exact onwardWr_some _ _ (State.authWrite_onward _ _)
  · refine (keepsWr_some _ _ ?_).onward; simp
  · refine (keepsWr_some _ _ ?_).onward; simp
  · exact (keepsWr_none _).onward
theorem State.writeGal_onward (s : State) (g off : Nat) (v : BitVec 64) : onwardWr s (s.writeGal g off v) := by
  unfold State.writeGal
  split
  · exact (State.writeClk_kept ..).onward
  split
  · exact (State.writeRouter_kept ..).onward
  split
  · rename_i t h; exact onwardWr_some _ _ (.of_eq ((State.writeIcu_kept _ _ _ _).out _ h))
  split
  · rename_i t h; split at h
    · exact onwardWr_some _ _ ((State.writeG0One_onward _ _ _).out _ h)
    · cases h
  split
  · rename_i t h; split at h
    · exact onwardWr_some _ _ (.of_eq ((State.writeG0Idx_kept _ _ _).out _ h))
    · cases h
  split
  · exact onwardWr_some _ _ (.refl _)
  · exact (keepsWr_none _).onward
theorem State.writeTarget_onward (s : State) (v : BitVec 64) (t : Target) : onwardWr s (s.writeTarget v t) := by
  unfold State.writeTarget
  split
  · cases s.siteOfSett _ with
    | none => exact (keepsWr_none _).onward
    | some i => exact (State.writeSett_kept ..).onward
  · cases s.coreAt _ with
    | none => exact (keepsWr_none _).onward
    | some i => exact (State.writeCore_kept ..).onward
  · exact (State.writeSett_kept ..).onward
  · exact (State.writeCore_kept ..).onward
  · exact (State.writeSump_kept ..).onward
  · exact State.writeGal_onward ..
  · exact (keepsWr_none _).onward

@[simp ↓] theorem State.readBytes_kept (s : State) (a n : Nat) : (s.readBytes a n).1.kept = s.kept := by
  unfold State.readBytes; dsimp only
  rw [foldl_kept1]
  intro t b; split
  · rename_i h; exact (State.readTarget_kept _ _).out _ h
  · rfl

theorem State.writeBytes_onward (s : State) (a : Nat) (bs : List Byte) : s.kept.Onward (s.writeBytes a bs).kept := by
  unfold State.writeBytes
  apply foldl_onward
  intro t b; split
  · dsimp only
    generalize he : t.writeTarget _ _ = o
    cases o with
    | none => exact .refl _
    | some u => exact (State.writeTarget_onward _ _ _).out _ he
  · exact .refl _

@[simp ↓] theorem State.regRead_kept (s : State) (cls : BitVec 3) (a n : Nat) :
    (State.regRead s cls a n).1.kept = s.kept := by unfold State.regRead; dsimp only; split <;> simp

theorem State.regWrite_onward (s : State) (cls : BitVec 3) (a : Nat) (bs : List Byte) : s.kept.Onward (s.regWrite cls a bs).1.kept := by
  unfold State.regWrite; dsimp only; split
  · exact State.writeBytes_onward ..
  · exact .refl _

@[simp ↓] theorem State.started_kept (s : State) (c : Cmd) : (State.started s c).kept = s.kept := by unfold State.started; simp

@[simp ↓] theorem State.run_kept (s : State) (c : Cmd) (op : Nat) (f : State → State) (h : ∀ t : State, (f t).kept = t.kept) :
    (s.run c op f).kept = s.kept := by
  unfold State.run; repeat' split
  all_goals first
  | rfl
  | (simp)
  | (rw [h]; simp)
theorem State.run_onward (s : State) (c : Cmd) (op : Nat) (f : State → State) (h : ∀ t : State, t.kept.Onward (f t).kept) :
    s.kept.Onward (s.run c op f).kept := by
  unfold State.run; repeat' split
  all_goals first
  | exact .refl _
  | exact h _
  | exact (Kept.Onward.of_eq (by simp)).trans (h _)
  | exact Kept.Onward.of_eq (by simp)

@[simp ↓] theorem State.ctxOpen_kept (s : State) (c : Cmd) : (State.ctxOpen s c).kept = s.kept := by unfold State.ctxOpen; split <;> simp

@[simp ↓] theorem State.ctxClose_kept (s : State) (c : Cmd) : (State.ctxClose s c).kept = s.kept := by unfold State.ctxClose; simp

@[simp ↓] theorem State.ctxAttach_kept (s : State) (c : Cmd) : (State.ctxAttach s c).kept = s.kept := by unfold State.ctxAttach; split <;> simp

@[simp ↓] theorem State.ctxDetach_kept (s : State) (c : Cmd) : (State.ctxDetach s c).kept = s.kept := by unfold State.ctxDetach; simp

@[simp ↓] theorem State.qpCreate_kept (s : State) (c : Cmd) : (State.qpCreate s c).kept = s.kept := by
  unfold State.qpCreate; dsimp only; repeat' split
  all_goals simp

@[simp ↓] theorem State.dropPasses_kept (s : State) (k : Nat) : (State.dropPasses s k).kept = s.kept := by
  unfold State.dropPasses; dsimp only; repeat' split
  all_goals simp [foldl_kept]

@[simp ↓] theorem State.qpDelete_kept (s : State) (c : Cmd) : (State.qpDelete s c).kept = s.kept := by
  unfold State.qpDelete; dsimp only; repeat' split
  all_goals simp [foldl_kept]

@[simp ↓] theorem State.vfQuota_kept (s : State) (c : Cmd) : (State.vfQuota s c).kept = s.kept := by unfold State.vfQuota; simp

@[simp ↓] theorem State.regionCreate_kept (s : State) (c : Cmd) : (State.regionCreate s c).kept = s.kept := by
  unfold State.regionCreate; dsimp only; repeat' split
  all_goals simp [foldl_kept]

@[simp ↓] theorem State.regionRemove_kept (s : State) (c : Cmd) : (State.regionRemove s c).kept = s.kept := by
  unfold State.regionRemove; dsimp only; repeat' split
  all_goals simp [foldl_kept]

@[simp ↓] theorem State.placeRegister_kept (s : State) (c : Cmd) : (State.placeRegister s c).kept = s.kept := by
  unfold State.placeRegister
  try dsimp only
  repeat' (first
  | (simp; done)
  | (with_reducible rfl)
  | (intro _)
  | (assumption)
  | (rename _ = (_, _) => hh; have e := congrArg Prod.fst hh; clear hh; dsimp only at e; subst e)
  | rw [foldl_kept]
  | rw [foldl_kept1]
  | (split))

@[simp ↓] theorem State.placeUnregister_kept (s : State) (c : Cmd) :
    (State.placeUnregister s c).kept = s.kept := by unfold State.placeUnregister; simp

@[simp ↓] theorem State.resLoadHost_kept (s : State) (c : Cmd) (page : HostRead) : (State.resLoadHost s c page).kept = s.kept := by
  unfold State.resLoadHost
  try dsimp only
  repeat' (first
  | (simp; done)
  | (with_reducible rfl)
  | (intro _)
  | (assumption)
  | (rename _ = (_, _) => hh; have e := congrArg Prod.fst hh; clear hh; dsimp only at e; subst e)
  | rw [foldl_kept]
  | rw [foldl_kept1]
  | (split))

@[simp ↓] theorem State.resRelease_kept (s : State) (c : Cmd) : (State.resRelease s c).kept = s.kept := by unfold State.resRelease; simp

@[simp ↓] theorem State.resHint_kept (s : State) (c : Cmd) : (State.resHint s c).kept = s.kept := by unfold State.resHint; simp

@[simp ↓] theorem State.unpin_kept (s : State) (n : Nat) : (State.unpin s n).kept = s.kept := by unfold State.unpin; split <;> simp

@[simp ↓] theorem State.resPin_kept (s : State) (c : Cmd) : (State.resPin s c).kept = s.kept := by unfold State.resPin; simp

@[simp ↓] theorem State.passLaunch_kept (s : State) (c : Cmd) : (State.passLaunch s c).kept = s.kept := by unfold State.passLaunch; simp

@[simp ↓] theorem State.dropWaitingLoad_kept (s : State) (t : Cmd) :
    (State.dropWaitingLoad s t).kept = s.kept := by unfold State.dropWaitingLoad; simp

@[simp ↓] theorem State.dropMeadowJob_kept (s : State) (t : Cmd) : (State.dropMeadowJob s t).kept = s.kept := by
  unfold State.dropMeadowJob; dsimp only; simp [foldl_kept]

@[simp ↓] theorem State.abortCmd_kept (s : State) (t : Cmd) : (State.abortCmd s t).1.kept = s.kept := by
  unfold State.abortCmd; dsimp only; repeat' split
  all_goals simp

@[simp ↓] theorem State.abort_kept (s : State) (c : Cmd) : (State.abort s c).kept = s.kept := by unfold State.abort; split <;> simp

@[simp ↓] theorem State.copyRead_kept (s : State) (c : Cmd) (off n : Nat) (src : HostRead) : (State.copyRead s c off n src).1.kept = s.kept := by
  unfold State.copyRead; dsimp only; repeat' split
  all_goals simp

@[simp ↓] theorem State.copyWrite_kept (s : State) (c : Cmd) (off : Nat) (bs : List Byte) : (State.copyWrite s c off bs).1.kept = s.kept := by
  unfold State.copyWrite; dsimp only; repeat' split
  all_goals simp

@[simp ↓] theorem State.copyEnd_kept (s : State) (c : Cmd) (moved status : Nat) :
    (State.copyEnd s c moved status).kept = s.kept := by unfold State.copyEnd; simp

@[simp ↓] theorem State.copyPiece_kept (s : State) (c : Cmd) (off : Nat) (src : HostRead) : (State.copyPiece s c off src).kept = s.kept := by
  unfold State.copyPiece
  try dsimp only
  repeat' (first
  | (simp; done)
  | (with_reducible rfl)
  | (intro _)
  | (assumption)
  | (rename _ = (_, _) => hh; have e := congrArg Prod.fst hh; clear hh; dsimp only at e; subst e)
  | rw [foldl_kept]
  | rw [foldl_kept1]
  | (split))

end Sys2Proof.Machine
end

