-- ==== Sys2Proof/Laws/KeptSpan.lean ====
section
/-! SUPPORT. That the functions of spans, packets, register accesses and management leave the waiting commands and the security vault alone. -/

namespace Sys2Proof.Machine

@[simp ↓] theorem State.setPen_kept (s : State) (e : Nat) (v : BitVec 64) : (State.setPen s e v).kept = s.kept := by unfold State.setPen; simp

@[simp ↓] theorem State.spanRoutes_kept (s : State) : (State.spanRoutes s).kept = s.kept := by unfold State.spanRoutes; simp

@[simp ↓] theorem State.forgetHops_kept (s : State) (e : Nat) : (State.forgetHops s e).kept = s.kept := by unfold State.forgetHops; simp

@[simp ↓] theorem State.sendFrame_kept (s : State) (e : Nat) (f : PenFrame) : (State.sendFrame s e f).kept = s.kept := by unfold State.sendFrame; simp

@[simp ↓] theorem State.sendAll_kept (s : State) (but : Option Nat) (f : PenFrame) : (State.sendAll s but f).kept = s.kept := by
  unfold State.sendAll
  try dsimp only
  repeat' (first
  | (simp; done)
  | (with_reducible rfl)
  | (intro _)
  | (assumption)
  | rw [foldl_kept])

@[simp ↓] theorem State.trainLink_kept (s : State) (e lanes : Nat) : (State.trainLink s e lanes).kept = s.kept := by unfold State.trainLink; simp

@[simp ↓] theorem State.setPeer_kept (s : State) (k v : Nat) : (State.setPeer s k v).kept = s.kept := by unfold State.setPeer; simp

@[simp ↓] theorem State.sendRoster_kept (s : State) : (State.sendRoster s).kept = s.kept := by unfold State.sendRoster; simp

@[simp ↓] theorem State.enrol_kept (s : State) (k : Nat) (serial : BitVec 64) : (State.enrol s k serial).kept = s.kept := by unfold State.enrol; simp

@[simp ↓] theorem State.noteJobs_kept (s : State) (l : List (BitVec 64 × BitVec 64)) :
    (State.noteJobs s l).kept = s.kept := by unfold State.noteJobs; simp

@[simp ↓] theorem State.heard_kept (s : State) (k : Nat) (serial : BitVec 64) : (State.heard s k serial).kept = s.kept := by unfold State.heard; simp

@[simp ↓] theorem State.identified_kept (s : State) (e : Nat) (f : IdentFrame) :
    (State.identified s e f).kept = s.kept := by unfold State.identified; simp

@[simp ↓] theorem State.takeRoster_kept (s : State) (e : Nat) (f : RosterFrame) :
    (State.takeRoster s e f).kept = s.kept := by unfold State.takeRoster; simp

@[simp ↓] theorem State.relink_kept (s : State) (e : Nat) : (State.relink s e).kept = s.kept := by unfold State.relink; simp

@[simp ↓] theorem State.useRecord_kept (s : State) (r : SpanRecord) : (State.useRecord s r).kept = s.kept := by
  unfold State.useRecord; dsimp only; simp [foldl_kept]

@[simp ↓] theorem State.pollRecord_kept (s : State) : (State.pollRecord s).kept = s.kept := by unfold State.pollRecord; split <;> simp

@[simp ↓] theorem State.sendTime_kept (s : State) (but : Option Nat) (t : BitVec 64) (age : Nat) :
    (State.sendTime s but t age).kept = s.kept := by unfold State.sendTime; simp

@[simp ↓] theorem State.setTsync_kept (s : State) (v : Bool) : (State.setTsync s v).kept = s.kept := by unfold State.setTsync; simp

@[simp ↓] theorem State.requestStep_kept (s : State) (t : BitVec 64) : (State.requestStep s t).kept = s.kept := by unfold State.requestStep; simp

@[simp ↓] theorem State.takeTime_kept (s : State) (t : BitVec 64) : (State.takeTime s t).kept = s.kept := by unfold State.takeTime; simp

@[simp ↓] theorem State.beat_kept (s : State) : (State.beat s).kept = s.kept := by unfold State.beat; simp

@[simp ↓] theorem State.alive_kept (s : State) (k : Nat) : (State.alive s k).kept = s.kept := by unfold State.alive; simp

@[simp ↓] theorem State.heartbeat_kept (s : State) (e : Nat) (f : HeartbeatFrame) :
    (State.heartbeat s e f).kept = s.kept := by unfold State.heartbeat; simp

@[simp ↓] theorem State.routeFrame_kept (s : State) (dst : Nat) (f : Prefix) (k : Packet) :
    (State.routeFrame s dst f k).kept = s.kept := by unfold State.routeFrame; split <;> simp

@[simp ↓] theorem State.hoFail_kept (s : State) : (State.hoFail s).kept = s.kept := by unfold State.hoFail; simp

@[simp ↓] theorem State.hoAck_kept (s : State) (k : Packet) : (State.hoAck s k).kept = s.kept := by unfold State.hoAck; simp

@[simp ↓] theorem State.peerReply_kept (s : State) (f : Prefix) (k : Packet) :
    (State.peerReply s f k).kept = s.kept := by unfold State.peerReply; simp

@[simp ↓] theorem State.spanMulti_kept (s : State) (f : Prefix) (k : Packet) (mask : Nat) : (State.spanMulti s f k mask).kept = s.kept := by
  unfold State.spanMulti; dsimp only; repeat' split
  all_goals simp [foldl_kept]

@[simp ↓] theorem State.deliverJob_kept (s : State) (g : Nat) (f : Prefix) (k : Packet) : (State.deliverJob s g f k).kept = s.kept := by
  unfold State.deliverJob; dsimp only; repeat' split
  all_goals simp

@[simp ↓] theorem State.peerAnswer_kept (s : State) (k : Packet) : (State.peerAnswer s k).kept = s.kept := by unfold State.peerAnswer; split <;> simp

@[simp ↓] theorem State.hoBytes_kept (s : State) (j : HandoffJob) : (State.hoBytes s j).1.kept = s.kept := by unfold State.hoBytes; split <;> simp

@[simp ↓] theorem State.hoSend_kept (s : State) (j : HandoffJob) (ks : List Packet) : (State.hoSend s j ks).1.kept = s.kept := by
  unfold State.hoSend; dsimp only; repeat' split
  all_goals simp [foldl_kept]

@[simp ↓] theorem State.hoEnd_kept (s : State) (j : HandoffJob) (failed : Bool) :
    (State.hoEnd s j failed).kept = s.kept := by unfold State.hoEnd; simp

@[simp ↓] theorem State.hoStart_kept (s : State) (j : HandoffJob) : (State.hoStart s j).kept = s.kept := by
  unfold State.hoStart
  try dsimp only
  repeat' (first
  | (simp; done)
  | (with_reducible rfl)
  | (intro _)
  | (assumption)
  | (rename _ = (_, _) => hh; have e := congrArg Prod.fst hh; clear hh; dsimp only at e; subst e)
  | rw [foldl_kept]
  | rw [foldl_kept1]
  | (split))

@[simp ↓] theorem State.freeHandoffs_kept (s : State) : (State.freeHandoffs s).kept = s.kept := by
  unfold State.freeHandoffs
  try dsimp only
  repeat' (first
  | (simp)
  | (with_reducible rfl)
  | (intro _)
  | (assumption)
  | rw [foldl_kept])

@[simp ↓] theorem State.hoSettle_kept (f : Nat) (s : State) : (s.hoSettle f).kept = s.kept := by
  induction f generalizing s with
  | zero => unfold State.hoSettle; simp
  | succ f ih =>
    unfold State.hoSettle; dsimp only; repeat' split
    · simp [foldl_kept]
    · rw [ih, foldl_kept]; simp
    · rw [ih, State.hoStart_kept, foldl_kept]; simp

@[simp ↓] theorem State.hoGo_kept (s : State) : (State.hoGo s).kept = s.kept := by unfold State.hoGo; simp

@[simp ↓] theorem State.handoff_kept (s : State) (n : Nat) (h : BitVec 19) (pass : BitVec 32) : (State.handoff s n h pass).kept = s.kept := by
  unfold State.handoff
  split
  · rfl
  · have h := s.hbmRead_kept (some n) ((s.entry h.toNat).img.toNat + 0x400) 0xC00
    generalize s.hbmRead (some n) _ 0xC00 = q at h ⊢
    obtain ⟨t, r⟩ := q
    cases r with
    | error e => exact (State.hoFail_kept t).trans h
    | ok bs =>
      dsimp only
      split
      · exact (State.hoFail_kept t).trans h
      · simp; exact h

@[simp ↓] theorem State.setCopy_kept (s : State) (j k : CopyJob) : (State.setCopy s j k).kept = s.kept := by unfold State.setCopy; simp

@[simp ↓] theorem State.copySend_kept (s : State) (j : CopyJob) (k : Packet) : (State.copySend s j k).kept = s.kept := by unfold State.copySend; simp

@[simp ↓] theorem State.copyOver_kept (s : State) (j : CopyJob) (status : Nat) :
    (State.copyOver s j status).kept = s.kept := by unfold State.copyOver; simp

@[simp ↓] theorem State.copyTell_kept (s : State) (j : CopyJob) (status : Nat) :
    (State.copyTell s j status).kept = s.kept := by unfold State.copyTell; simp

@[simp ↓] theorem State.copyStart_kept (s : State) (c : Cmd) : (State.copyStart s c).kept = s.kept := by unfold State.copyStart; simp

@[simp ↓] theorem State.copySummary_kept (s : State) (rs : List (Nat × Nat)) : (State.copySummary s rs).1.kept = s.kept := by
  unfold State.copySummary
  try dsimp only
  repeat' (first
  | (simp; done)
  | (with_reducible rfl)
  | (intro _)
  | (assumption)
  | (rename _ = (_, _) => hh; have e := congrArg Prod.fst hh; clear hh; dsimp only at e; subst e)
  | rw [foldl_kept]
  | rw [foldl_kept1]
  | (split))

@[simp ↓] theorem State.copyNext_kept (s : State) (j : CopyJob) : (State.copyNext s j).kept = s.kept := by
  unfold State.copyNext
  try dsimp only
  repeat' (first
  | (simp; done)
  | (with_reducible rfl)
  | (intro _)
  | (assumption)
  | (rename _ = (_, _) => hh; have e := congrArg Prod.fst hh; clear hh; dsimp only at e; subst e)
  | rw [foldl_kept]
  | rw [foldl_kept1]
  | (split))

@[simp ↓] theorem State.copyPair_kept (s : State) (j : CopyJob) (body : List Byte) :
    (State.copyPair s j body).kept = s.kept := by unfold State.copyPair; simp

@[simp ↓] theorem State.copyJudge_kept (s : State) (j : CopyJob) (body : List Byte) : (State.copyJudge s j body).kept = s.kept := by
  unfold State.copyJudge
  try dsimp only
  repeat' (first
  | (simp; done)
  | (with_reducible rfl)
  | (intro _)
  | (assumption)
  | (rename _ = (_, _) => hh; have e := congrArg Prod.fst hh; clear hh; dsimp only at e; subst e)
  | rw [foldl_kept]
  | rw [foldl_kept1]
  | (split))

@[simp ↓] theorem State.copyLand_kept (s : State) (j : CopyJob) (f : Prefix) (k : Packet) :
    (State.copyLand s j f k).kept = s.kept := by unfold State.copyLand; simp

@[simp ↓] theorem State.copyFrame_kept (s : State) (f : Prefix) (k : Packet) : (State.copyFrame s f k).kept = s.kept := by
  unfold State.copyFrame; dsimp only; repeat' split
  all_goals simp

@[simp ↓] theorem State.deliverFrame_kept (s : State) (g : Nat) (f : Prefix) (k : Packet) :
    (State.deliverFrame s g f k).kept = s.kept := by unfold State.deliverFrame; simp

@[simp ↓] theorem State.relay_kept (s : State) (f : Prefix) (go : Prefix → State) (h : ∀ k, (go k).kept = s.kept) : (s.relay f go).kept = s.kept := by
  unfold State.relay; split <;> simp [h]

@[simp ↓] theorem State.dataFrame_kept (s : State) (e : Nat) (f : Prefix) (k : Packet) :
    (State.dataFrame s e f k).kept = s.kept := by unfold State.dataFrame; simp

@[simp ↓] theorem State.dropBad_kept (s : State) (k : Packet) : (State.dropBad s k).kept = s.kept := by unfold State.dropBad; split <;> simp

@[simp ↓] theorem State.arrive_kept (s : State) (k : Packet) (opc : Nat) (f : State → State) (h : ∀ t : State, (f t).kept = t.kept) :
    (s.arrive k opc f).kept = s.kept := by
  unfold State.arrive; repeat' split
  all_goals first
  | rfl
  | (simp)
  | (rw [h]; simp)
theorem State.arrive_onward (s : State) (k : Packet) (opc : Nat) (f : State → State) (h : ∀ t : State, t.kept.Onward (f t).kept) :
    s.kept.Onward (s.arrive k opc f).kept := by
  unfold State.arrive; repeat' split
  all_goals first
  | exact .refl _
  | exact h _
  | exact (Kept.Onward.of_eq (by simp)).trans (h _)
  | exact Kept.Onward.of_eq (by simp)

@[simp ↓] theorem State.readHbm_kept (s : State) (k : Packet) (stack off : Nat) : (State.readHbm s k stack off).1.kept = s.kept := by
  unfold State.readHbm; dsimp only; repeat' split
  all_goals simp

@[simp ↓] theorem State.readPad_kept (s : State) (k : Packet) (l off : Nat) : (State.readPad s k l off).1.kept = s.kept := by
  unfold State.readPad; dsimp only; repeat' split
  all_goals simp

@[simp ↓] theorem State.serveRead_kept (s : State) (k : Packet) : (State.serveRead s k).1.kept = s.kept := by
  unfold State.serveRead; dsimp only; repeat' split
  all_goals simp

@[simp ↓] theorem State.readArrives_kept (s : State) (k : Packet) : (State.readArrives s k).kept = s.kept := by
  unfold State.readArrives
  try dsimp only
  repeat' (first
  | (simp; done)
  | (with_reducible rfl)
  | (intro _)
  | (assumption)
  | (rename _ = (_, _) => hh; have e := congrArg Prod.fst hh; clear hh; dsimp only at e; subst e)
  | rw [foldl_kept]
  | rw [foldl_kept1]
  | (split))

@[simp ↓] theorem State.writeHbm_kept (s : State) (k : Packet) (stack off : Nat) : (State.writeHbm s k stack off).1.kept = s.kept := by
  unfold State.writeHbm; dsimp only; repeat' split
  all_goals simp

@[simp ↓] theorem State.writeCorePad_kept (s : State) (p : Nat) (k : Packet) (off : Nat) :
    (State.writeCorePad s p k off).1.kept = s.kept := by unfold State.writeCorePad; dsimp only; split <;> simp

theorem State.serveWrite_onward (s : State) (k : Packet) : s.kept.Onward (s.serveWrite k).1.kept := by
  unfold State.serveWrite; dsimp only; split
  all_goals repeat' split
  all_goals first
  | exact State.regWrite_onward ..
  | exact .of_eq (by simp)

@[simp ↓] theorem State.acknowledge_kept (s : State) (k : Packet) (a0 : Option (BitVec 4)) :
    (State.acknowledge s k a0).kept = s.kept := by unfold State.acknowledge; split <;> simp

@[simp ↓] theorem State.countArrives_kept (s : State) (k : Packet) (f : Core → Nat → Nat → Core × List Packet) :
    (State.countArrives s k f).kept = s.kept := by
  unfold State.countArrives; dsimp only; repeat' split
  all_goals simp

@[simp ↓] theorem State.deliverCopy_kept (s : State) (k : Packet) (m : McExt) (i : Nat) : (State.deliverCopy s k m i).1.kept = s.kept := by
  unfold State.deliverCopy
  try dsimp only
  repeat' (first
  | (simp; done)
  | (with_reducible rfl)
  | (intro _)
  | (assumption)
  | rw [foldl_kept]
  | rw [foldl_kept1]
  | (split))

@[simp ↓] theorem State.mcRoot_kept (s : State) (k : Packet) (m : McExt) (root : Node) : (State.mcRoot s k m root).kept = s.kept := by
  unfold State.mcRoot; dsimp only; repeat' split
  all_goals simp [foldl_kept]

@[simp ↓] theorem State.mcCopy_kept (s : State) (k : Packet) (m : McExt) (root : Node) (i : Nat) : (State.mcCopy s k m root i).kept = s.kept := by
  unfold State.mcCopy; dsimp only; repeat' split
  all_goals simp

@[simp ↓] theorem State.note_kept (s : State) (st : BitVec 4) (data : List Byte) : (State.note s st data).kept = s.kept := by unfold State.note; simp

@[simp ↓] theorem State.writeAqCfg_kept (s : State) (f : Nat) (v : BitVec 32) :
    (State.writeAqCfg s f v).kept = s.kept := by unfold State.writeAqCfg; simp

@[simp ↓] theorem State.writeMsix_kept (s : State) (f off : Nat) (v : BitVec 32) :
    (State.writeMsix s f off v).kept = s.kept := by unfold State.writeMsix; split <;> simp

@[simp ↓] theorem State.bar0Write_kept (s : State) (f off : Nat) (v : BitVec 32) : (State.bar0Write s f off v).kept = s.kept := by
  unfold State.bar0Write; dsimp only; repeat' split
  all_goals simp

@[simp ↓] theorem State.bar0_kept (s : State) (port vf off : Nat) (wide : Bool) (v : BitVec 64) :
    (State.bar0 s port vf off wide v).kept = s.kept := by unfold State.bar0; simp

@[simp ↓] theorem State.recoveryWrite_kept (s : State) (off : Nat) (wide : Bool) (v : BitVec 64) :
    (State.recoveryWrite s off wide v).kept = s.kept := by
  unfold State.recoveryWrite; dsimp only; repeat' split
  all_goals simp

@[simp ↓] theorem State.readReg_kept (s : State) (cls : BitVec 3) (a n : Nat) :
    (State.readReg s cls a n).kept = s.kept := by unfold State.readReg; simp

theorem State.writeReg_onward (s : State) (cls : BitVec 3) (a : Nat) (bs : List Byte) : s.kept.Onward (s.writeReg cls a bs).kept := by
  unfold State.writeReg; dsimp only; split
  · exact .of_eq (by simp)
  · exact (State.regWrite_onward s cls a bs).trans (.of_eq (by simp))

@[simp ↓] theorem State.setTap_kept (s : State) (v : BitVec 8) : (State.setTap s v).kept = s.kept := by unfold State.setTap; simp

@[simp ↓] theorem State.onTap_kept (s : State)  (f : State → State) (h : ∀ t : State, (f t).kept = t.kept) : (s.onTap f).kept = s.kept := by
  unfold State.onTap; repeat' split
  all_goals first
  | rfl
  | exact h _

theorem State.onTap_onward (s : State)  (f : State → State) (h : ∀ t : State, t.kept.Onward (f t).kept) : s.kept.Onward (s.onTap f).kept := by
  unfold State.onTap; repeat' split
  all_goals first
  | exact .refl _
  | exact h _

@[simp ↓] theorem State.debugRead_kept (s : State) (a n : Nat) : (State.debugRead s a n).1.kept = s.kept := by
  unfold State.debugRead
  try dsimp only
  repeat' (first
  | (simp; done)
  | (with_reducible rfl)
  | (intro _)
  | (assumption)
  | (rename _ = (_, _) => hh; have e := congrArg Prod.fst hh; clear hh; dsimp only at e; subst e)
  | rw [foldl_kept]
  | rw [foldl_kept1]
  | (split))

theorem State.debugWrite_onward (s : State) (a : Nat) (bs : List Byte) : s.kept.Onward (s.debugWrite a bs).1.kept := by
  unfold State.debugWrite; dsimp only; split
  · exact .refl _
  · exact State.serveWrite_onward ..

theorem State.debugAccess_onward (s : State) (write : Bool) (a n : Nat) (data : List Byte) : s.kept.Onward (s.debugAccess write a n data).kept := by
  unfold State.debugAccess
  refine Kept.Onward.trans (.of_eq (b := (s.note stOk []).kept) (by simp)) (foldl_onward ?_ _ _)
  intro t e; dsimp only; split
  · rw [State.note_kept]; exact State.debugWrite_onward _ _ _
  · exact .of_eq (by simp)

@[simp ↓] theorem State.drainCmd_kept (s : State) (c : Cmd) : (State.drainCmd s c).kept = s.kept := by unfold State.drainCmd; simp

@[simp ↓] theorem State.setEpoch_kept (s : State) (c : Cmd) (e : JobEpoch) : (State.setEpoch s c e).kept = s.kept := by unfold State.setEpoch; simp

@[simp ↓] theorem State.fencePasses_kept (s : State) (n : Nat) : (State.fencePasses s n).kept = s.kept := by
  unfold State.fencePasses; dsimp only; repeat' split
  all_goals simp [foldl_kept]

@[simp ↓] theorem State.fenceOutput_kept (s : State) (n : Nat) : (State.fenceOutput s n).kept = s.kept := by
  unfold State.fenceOutput; dsimp only; simp [foldl_kept]

@[simp ↓] theorem State.fence_kept (s : State) (c : Cmd) : (State.fence s c).kept = s.kept := by
  unfold State.fence; dsimp only; repeat' split
  all_goals simp [foldl_kept]

@[simp ↓] theorem State.unfence_kept (s : State) (c : Cmd) : (State.unfence s c).kept = s.kept := by unfold State.unfence; split <;> simp

@[simp ↓] theorem State.shadow_kept (s : State) (c : Cmd) : (State.shadow s c).kept = s.kept := by unfold State.shadow; simp

@[simp ↓] theorem State.meadowOnCmd_kept (s : State) (c : Cmd) : (State.meadowOnCmd s c).kept = s.kept := by unfold State.meadowOnCmd; simp

@[simp ↓] theorem State.meadowOffCmd_kept (s : State) (c : Cmd) : (State.meadowOffCmd s c).kept = s.kept := by
  unfold State.meadowOffCmd; dsimp only; simp [foldl_kept]

@[simp ↓] theorem State.panelReset_kept (s : State) (c : Cmd) : (State.panelReset s c).kept = s.kept := by unfold State.panelReset; simp

@[simp ↓] theorem State.query_kept (s : State) (c : Cmd) : (State.query s c).kept = s.kept := by unfold State.query; split <;> simp

@[simp ↓] theorem State.fwPhase_kept (s : State) (v : Nat) : (State.fwPhase s v).kept = s.kept := by unfold State.fwPhase; simp

@[simp ↓] theorem State.fwAccept_kept (s : State) (c : Cmd) (img : List Byte) :
    (State.fwAccept s c img).kept = s.kept := by unfold State.fwAccept; simp

@[simp ↓] theorem State.fwUpdate_kept (s : State) (c : Cmd) (image : HostRead) : (State.fwUpdate s c image).kept = s.kept := by
  unfold State.fwUpdate; dsimp only; repeat' split
  all_goals simp

@[simp ↓] theorem State.eventAt_kept (s : State) (g : Nat) (k : Packet) :
    (State.eventAt s g k).kept = s.kept := by unfold State.eventAt; split <;> simp

@[simp ↓] theorem State.mctpSend_kept (s : State) (m : MctpOut) : (State.mctpSend s m).kept = s.kept := by unfold State.mctpSend; simp

@[simp ↓] theorem State.spdmAnswer_kept (s : State) (first : Bool) (f : State → SpdmAns × State) (h : ∀ t, (f t).2.kept = t.kept) :
    (s.spdmAnswer first f).kept = s.kept := by
  unfold State.spdmAnswer; repeat' split
  all_goals simp [h]

@[simp ↓] theorem State.spdmVersion_kept (s : State) : (State.spdmVersion s).kept = s.kept := by unfold State.spdmVersion; simp

@[simp ↓] theorem State.spdmCapabilities_kept (s : State) : (State.spdmCapabilities s).kept = s.kept := by unfold State.spdmCapabilities; simp

@[simp ↓] theorem State.spdmAlgorithms_kept (s : State) : (State.spdmAlgorithms s).kept = s.kept := by unfold State.spdmAlgorithms; simp

@[simp ↓] theorem State.spdmDigests_kept (s : State) : (State.spdmDigests s).kept = s.kept := by unfold State.spdmDigests; simp

@[simp ↓] theorem State.spdmCertificate_kept (s : State) (off len : BitVec 16) :
    (State.spdmCertificate s off len).kept = s.kept := by unfold State.spdmCertificate; simp

@[simp ↓] theorem State.spdmChallenge_kept (s : State) (nonce : BitVec 256) :
    (State.spdmChallenge s nonce).kept = s.kept := by unfold State.spdmChallenge; simp

@[simp ↓] theorem State.spdmMeasurements_kept (s : State) (index : BitVec 8) (nonce : BitVec 256) :
    (State.spdmMeasurements s index nonce).kept = s.kept := by unfold State.spdmMeasurements; simp

@[simp ↓] theorem State.mctpControl_kept (s : State) (body : List Byte) :
    (State.mctpControl s body).kept = s.kept := by unfold State.mctpControl; simp

@[simp ↓] theorem State.mctpSpdm_kept (s : State) (body : List Byte) :
    (State.mctpSpdm s body).kept = s.kept := by unfold State.mctpSpdm; split <;> simp

@[simp ↓] theorem State.mctpVendor_kept (s : State) (body : List Byte) : (State.mctpVendor s body).kept = s.kept := by unfold State.mctpVendor; simp

@[simp ↓] theorem idleTick_kept (s : State) : (idleTick s).kept = s.kept := by unfold idleTick; simp

end Sys2Proof.Machine
end

