-- ==== Sys2Proof/Laws/KeptRows.lean ====
section
/-! SUPPORT. That every command leaves the waiting commands alone, and the security vault too, or moves it forward. -/

namespace Sys2Proof.Machine

/-- Any next state of an outcome keeps what `s` keeps. -/
def keeps (s : State) (o : Host.Outcome State Fault Refusal) : Prop := ∀ t, o = .next t → t.kept = s.kept

theorem keeps_next {s t : State} (h : t.kept = s.kept) : keeps s (.next t) := by
  intro u e; cases e; exact h

/-- Any next state of an outcome comes from `s` by moving its vault forward. -/
def onwards (s : State) (o : Host.Outcome State Fault Refusal) : Prop := ∀ t, o = .next t → s.kept.Onward t.kept

theorem onwards_next {s t : State} (h : s.kept.Onward t.kept) : onwards s (.next t) := by
  intro u e; cases e; exact h

theorem keeps.onwards {s : State} {o : Host.Outcome State Fault Refusal} (h : keeps s o) : onwards s o := fun t e => .of_eq (h t e)

theorem execBypass_kept (s : State) : keeps s (execBypass s) := by unfold execBypass; exact keeps_next (by simp)

theorem execIdcode_kept (s : State) : keeps s (execIdcode s) := by unfold execIdcode; exact keeps_next (by simp)

theorem execExtest_kept (s : State) : keeps s (execExtest s) := by unfold execExtest; exact keeps_next (by simp)

theorem execTapReset_kept (s : State) : keeps s (execTapReset s) := by unfold execTapReset; exact keeps_next (by simp)

theorem execNew_kept (s : State) : keeps s (execNew s) := by unfold execNew; exact keeps_next (by simp)

theorem execSecDbgCtrlWrite_kept (v : BitVec 32) (s : State) :
    keeps s (execSecDbgCtrlWrite v s) := by unfold execSecDbgCtrlWrite; exact keeps_next (by simp)

theorem execPanelResetPin_kept (level : Bool) (s : State) :
    keeps s (execPanelResetPin level s) := by unfold execPanelResetPin; exact keeps_next (by simp)

theorem execRimPowerGood_kept (s : State) : keeps s (execRimPowerGood s) := by unfold execRimPowerGood; exact keeps_next (by simp)

theorem execBringupPhase_kept (f : PhaseFindings) (dt : Nat) (s : State) : keeps s (execBringupPhase f dt s) := by
  unfold execBringupPhase; dsimp only
  refine keeps_next ?_
  split
  · rename_i h; rw [State.dueReset_kept _ _ h]; simp
  · split <;> simp

theorem execBenchStep_kept (f : Findings) (dt : Nat) (s : State) : keeps s (execBenchStep f dt s) := by
  unfold execBenchStep; dsimp only; refine keeps_next ?_; repeat' split
  all_goals simp

theorem execRetentionSoak_kept (group : Fin 4) (rows : List (Stack × BitVec 21)) (s : State) :
    keeps s (execRetentionSoak group rows s) := by unfold execRetentionSoak; exact keeps_next (by simp)

theorem execGo_kept (image : HostRead) (s : State) : keeps s (execGo image s) := by
  unfold execGo; dsimp only; refine keeps_next ?_; repeat' split
  all_goals simp

theorem execReferenceLoss_kept (n : Node) (input : RefInput) (s : State) :
    keeps s (execReferenceLoss n input s) := by unfold execReferenceLoss; exact keeps_next (by simp)

theorem execInputQualified_kept (n : Node) (input : RefInput) (s : State) :
    keeps s (execInputQualified n input s) := by unfold execInputQualified; exact keeps_next (by simp)

theorem execAclkStep_kept (site : Site) (s : State) : keeps s (execAclkStep site s) := by unfold execAclkStep; exact keeps_next (by simp)

theorem execClockViolation_kept (site : Site) (duty : Bool) (s : State) :
    keeps s (execClockViolation site duty s) := by unfold execClockViolation; exact keeps_next (by simp)

theorem execSafeClear_kept (site : Site) (s : State) : keeps s (execSafeClear site s) := by unfold execSafeClear; exact keeps_next (by simp)

theorem execDroop_kept (site : Site) (_row : Fin 8) (s : State) : keeps s (execDroop site _row s) := by unfold execDroop; exact keeps_next (by simp)

theorem execDroopRecovery_kept (site : Site) (dt : Nat) (s : State) :
    keeps s (execDroopRecovery site dt s) := by unfold execDroopRecovery; exact keeps_next (by simp)

theorem execVcoLockFail_kept (n : Node) (s : State) : keeps s (execVcoLockFail n s) := by
  unfold execVcoLockFail; dsimp only; refine keeps_next ?_; repeat' split
  all_goals simp

theorem execBeaconReceive_kept (n : Node) (frame : BitVec 128) (s : State) :
    keeps s (execBeaconReceive n frame s) := by unfold execBeaconReceive; exact keeps_next (by simp)

theorem execSyncLoss_kept (n : Node) (s : State) : keeps s (execSyncLoss n s) := by unfold execSyncLoss; exact keeps_next (by simp)

theorem execTimeStep_kept (v : BitVec 64) (s : State) : keeps s (execTimeStep v s) := by unfold execTimeStep; exact keeps_next (by simp)

theorem execCtxOpen_kept (c : Cmd) (s : State) : keeps s (execCtxOpen c s) := by unfold execCtxOpen; exact keeps_next (by simp)

theorem execCtxClose_kept (c : Cmd) (s : State) : keeps s (execCtxClose c s) := by unfold execCtxClose; exact keeps_next (by simp)

theorem execCtxAttach_kept (c : Cmd) (s : State) : keeps s (execCtxAttach c s) := by unfold execCtxAttach; exact keeps_next (by simp)

theorem execCtxDetach_kept (c : Cmd) (s : State) : keeps s (execCtxDetach c s) := by unfold execCtxDetach; exact keeps_next (by simp)

theorem execCtxSet_kept (c : Cmd) (s : State) : keeps s (execCtxSet c s) := by unfold execCtxSet; exact keeps_next (by simp)

theorem execQpCreate_kept (c : Cmd) (s : State) : keeps s (execQpCreate c s) := by unfold execQpCreate; exact keeps_next (by simp)

theorem execQpDelete_kept (c : Cmd) (s : State) : keeps s (execQpDelete c s) := by unfold execQpDelete; exact keeps_next (by simp)

theorem execVfQuota_kept (c : Cmd) (s : State) : keeps s (execVfQuota c s) := by unfold execVfQuota; exact keeps_next (by simp)

theorem execRegionCreate_kept (c : Cmd) (s : State) : keeps s (execRegionCreate c s) := by unfold execRegionCreate; exact keeps_next (by simp)

theorem execRegionRemove_kept (c : Cmd) (s : State) : keeps s (execRegionRemove c s) := by unfold execRegionRemove; exact keeps_next (by simp)

theorem execMcWatchdogExpiry_kept (g : Gal) (b : Fin 4) (dt : Nat) (s : State) :
    keeps s (execMcWatchdogExpiry g b dt s) := by unfold execMcWatchdogExpiry; exact keeps_next (by simp)

theorem execRestartComplete_kept (g : Gal) (b : Fin 4) (s : State) :
    keeps s (execRestartComplete g b s) := by unfold execRestartComplete; exact keeps_next (by simp)

theorem execSettControllerProbe_kept (site : Site) (answered : Bool) (s : State) :
    keeps s (execSettControllerProbe site answered s) := by unfold execSettControllerProbe; exact keeps_next (by simp)

theorem execFwchunk_kept (site : Site) (k : Packet) (s : State) : keeps s (execFwchunk site k s) := by unfold execFwchunk; exact keeps_next (by simp)

theorem execRepairRoundEnd_kept (dt : Nat) (s : State) : keeps s (execRepairRoundEnd dt s) := by unfold execRepairRoundEnd; exact keeps_next (by simp)

theorem execFlashWriteDone_kept (ok : Bool) (s : State) :
    keeps s (execFlashWriteDone ok s) := by unfold execFlashWriteDone; exact keeps_next (by simp)

theorem execHoldBegin_kept (dt : Nat) (s : State) : keeps s (execHoldBegin dt s) := by unfold execHoldBegin; exact keeps_next (by simp)

theorem execActivation_kept (dt : Nat) (s : State) : keeps s (execActivation dt s) := by unfold execActivation; exact keeps_next (by split <;> simp)

theorem execIcuClaim_kept (g : Gal) (b : Fin 4) (s : State) : keeps s (execIcuClaim g b s) := by unfold execIcuClaim; exact keeps_next (by simp)

theorem execIcuComplete_kept (g : Gal) (b : Fin 4) (v : BitVec 32) (s : State) :
    keeps s (execIcuComplete g b v s) := by unfold execIcuComplete; exact keeps_next (by simp)

theorem execIcuSgi_kept (g : Gal) (v : BitVec 32) (s : State) : keeps s (execIcuSgi g v s) := by unfold execIcuSgi; exact keeps_next (by simp)

theorem execGdis_kept (g : Gal) (v : BitVec 32) (s : State) : keeps s (execGdis g v s) := by unfold execGdis; exact keeps_next (by simp)

theorem execInterruptEdge_kept (g : Gal) (n : Fin 1024) (s : State) :
    keeps s (execInterruptEdge g n s) := by unfold execInterruptEdge; exact keeps_next (by simp)

theorem execStackFailed_kept (k : Stack) (s : State) : keeps s (execStackFailed k s) := by unfold execStackFailed; exact keeps_next (by simp)

theorem execHbmTraining_kept (k : Stack) (rate : Option (BitVec 2)) (laneRepairs : BitVec 8) (s : State) :
    keeps s (execHbmTraining k rate laneRepairs s) := by
  unfold execHbmTraining; refine keeps_next ?_; repeat' split
  all_goals simp

theorem execStackReadout_kept (k : Stack) (temp : Option (BitVec 8)) (s : State) :
    keeps s (execStackReadout k temp s) := by unfold execStackReadout; exact keeps_next (by split <;> simp)

theorem execRefresh_kept (k : Stack) (_rfm : Bool) (bank : Nat) (s : State) :
    keeps s (execRefresh k _rfm bank s) := by unfold execRefresh; exact keeps_next (by simp)

theorem execPatrolScrub_kept (k : Stack) (upsets : List Upset) (dt : Nat) (s : State) :
    keeps s (execPatrolScrub k upsets dt s) := by unfold execPatrolScrub; exact keeps_next (by simp)

theorem execHbmRowRepair_kept (k : Stack) (unit : BitVec 21) (resource : Bool) (s : State) :
    keeps s (execHbmRowRepair k unit resource s) := by unfold execHbmRowRepair; exact keeps_next (by simp)

theorem execRegionZeroFillDone_kept (k : Stack) (s : State) :
    keeps s (execRegionZeroFillDone k s) := by unfold execRegionZeroFillDone; exact keeps_next (by split <;> simp)

theorem execMsixUnmask_kept (port : Gal) (vf : Fin 64) (vector : Fin 2048) (s : State) :
    keeps s (execMsixUnmask port vf vector s) := by unfold execMsixUnmask; exact keeps_next (by simp)

theorem execMsixCoalesceTimeout_kept (port : Gal) (vf : Fin 64) (qp : Fin 1024) (dt : Nat) (s : State) :
    keeps s (execMsixCoalesceTimeout port vf qp dt s) := by unfold execMsixCoalesceTimeout; exact keeps_next (by split <;> simp)

theorem execSqDoorbell_kept (port : Gal) (vf : Fin 64) (qp : Fin 1024) (v : BitVec 32) (s : State) :
    keeps s (execSqDoorbell port vf qp v s) := by unfold execSqDoorbell; exact keeps_next (by simp)

theorem execCqDoorbell_kept (port : Gal) (vf : Fin 64) (qp : Fin 1024) (v : BitVec 32) (s : State) :
    keeps s (execCqDoorbell port vf qp v s) := by unfold execCqDoorbell; exact keeps_next (by simp)

theorem execAqEnable_kept (port : Gal) (vf : Fin 64) (s : State) :
    keeps s (execAqEnable port vf s) := by unfold execAqEnable; exact keeps_next (by simp)

theorem execHostCompletion_kept (port : Gal) (id : Nat) (o : LinkOutcome) (s : State) : keeps s (execHostCompletion port id o s) := by
  unfold execHostCompletion; refine keeps_next ?_; repeat' split
  all_goals simp

theorem execCompletionTimeout_kept (port : Gal) (id : Nat) (s : State) :
    keeps s (execCompletionTimeout port id s) := by unfold execCompletionTimeout; exact keeps_next (by split <;> simp)

theorem execFlr_kept (port : Gal) (vf : Fin 64) (s : State) : keeps s (execFlr port vf s) := by unfold execFlr; exact keeps_next (by simp)

theorem execVfEnable_kept (port : Gal) (enable : Bool) (s : State) : keeps s (execVfEnable port enable s) := by
  unfold execVfEnable; dsimp only; refine keeps_next ?_; repeat' split
  all_goals simp [foldl_kept]

theorem execDStateChange_kept (port : Gal) (vf : Fin 64) (d3hot : Bool) (s : State) :
    keeps s (execDStateChange port vf d3hot s) := by unfold execDStateChange; exact keeps_next (by simp)

theorem execPortLinkDown_kept (port : Gal) (up : Bool) (s : State) :
    keeps s (execPortLinkDown port up s) := by unfold execPortLinkDown; exact keeps_next (by simp)

theorem execPerst_kept (port : Gal) (kind : PortReset) (s : State) :
    keeps s (execPerst port kind s) := by unfold execPerst; exact keeps_next (by simp)

theorem execSqFetch_kept (port : Gal) (vf : Fin 64) (qp : Fin 1024) (r : HostRead) (s : State) : keeps s (execSqFetch port vf qp r s) := by
  unfold execSqFetch; dsimp only; refine keeps_next ?_; repeat' split
  all_goals simp

theorem execCqPost_kept (port : Gal) (vf : Fin 64) (qp : Fin 1024) (ok : Bool) (s : State) : keeps s (execCqPost port vf qp ok s) := by
  unfold execCqPost; dsimp only; refine keeps_next ?_; repeat' split
  all_goals simp

theorem execLoadStart_kept (s : State) : keeps s (execLoadStart s) := by unfold execLoadStart; exact keeps_next (by simp)

theorem execLoad_kept (seg : Fin 32) (s : State) : keeps s (execLoad seg s) := by unfold execLoad; exact keeps_next (by simp)

theorem execLoadComplete_kept (s : State) : keeps s (execLoadComplete s) := by unfold execLoadComplete; exact keeps_next (by simp)

theorem execHostSegmentFetch_kept (g : Gal) (seg : Fin 32) (r : HostRead) (s : State) :
    keeps s (execHostSegmentFetch g seg r s) := by unfold execHostSegmentFetch; exact keeps_next (by simp)

theorem execSpRowRepair_kept (p : PCore) (bank : Fin 12) (row : Fin 256) (s : State) :
    keeps s (execSpRowRepair p bank row s) := by unfold execSpRowRepair; exact keeps_next (by simp)

theorem execCoreReady_kept (p : PCore) (s : State) : keeps s (execCoreReady p s) := by unfold execCoreReady; exact keeps_next (by simp)

theorem execMeshMessageLand_kept (id : Nat) (s : State) :
    keeps s (execMeshMessageLand id s) := by unfold execMeshMessageLand; exact keeps_next (by simp)

theorem execHopQueueFlush_kept (site : Site) (s : State) :
    keeps s (execHopQueueFlush site s) := by unfold execHopQueueFlush; exact keeps_next (by simp)

theorem execMeshLaneReplay_kept (site : Site) (lane : Fin 10) (s : State) :
    keeps s (execMeshLaneReplay site lane s) := by unfold execMeshLaneReplay; exact keeps_next (by simp)

theorem execMeshLaneDead_kept (site : Site) (lane : Fin 10) (s : State) :
    keeps s (execMeshLaneDead site lane s) := by unfold execMeshLaneDead; exact keeps_next (by simp)

theorem execDrainCmd_kept (c : Cmd) (s : State) : keeps s (execDrainCmd c s) := by unfold execDrainCmd; exact keeps_next (by simp)

theorem execFence_kept (c : Cmd) (s : State) : keeps s (execFence c s) := by unfold execFence; exact keeps_next (by simp)

theorem execUnfence_kept (c : Cmd) (s : State) : keeps s (execUnfence c s) := by unfold execUnfence; exact keeps_next (by simp)

theorem execShadow_kept (c : Cmd) (s : State) : keeps s (execShadow c s) := by unfold execShadow; exact keeps_next (by simp)

theorem execMeadowPower_kept (c : Cmd) (s : State) : keeps s (execMeadowPower c s) := by unfold execMeadowPower; exact keeps_next (by simp)

theorem execPanelReset_kept (c : Cmd) (s : State) : keeps s (execPanelReset c s) := by unfold execPanelReset; exact keeps_next (by simp)

theorem execQuery_kept (c : Cmd) (s : State) : keeps s (execQuery c s) := by unfold execQuery; exact keeps_next (by simp)

theorem execFwUpdate_kept (c : Cmd) (image : HostRead) (s : State) :
    keeps s (execFwUpdate c image s) := by unfold execFwUpdate; exact keeps_next (by simp)

theorem execEvent_kept (k : Packet) (s : State) : keeps s (execEvent k s) := by unfold execEvent; exact keeps_next (by simp)

theorem execRdReq_kept (k : Packet) (s : State) : keeps s (execRdReq k s) := by unfold execRdReq; exact keeps_next (by simp)

theorem execRdRsp_kept (k : Packet) (s : State) : keeps s (execRdRsp k s) := by
  unfold execRdRsp
  refine keeps_next (State.arrive_kept _ _ _ _ fun t => ?_)
  repeat' split
  all_goals simp

theorem execAck_kept (p : Option PCore) (k : Packet) (s : State) : keeps s (execAck p k s) := by unfold execAck; exact keeps_next (by split <;> simp)

theorem execToken_kept (k : Packet) (s : State) : keeps s (execToken k s) := by unfold execToken; exact keeps_next (by simp)

theorem execCredit_kept (k : Packet) (s : State) : keeps s (execCredit k s) := by unfold execCredit; exact keeps_next (by simp)

theorem execHintPkt_kept (k : Packet) (s : State) : keeps s (execHintPkt k s) := by unfold execHintPkt; exact keeps_next (by simp)

theorem execHintLineLapse_kept (k : Stack) (stripe : Nat) (dt : Nat) (s : State) :
    keeps s (execHintLineLapse k stripe dt s) := by unfold execHintLineLapse; exact keeps_next (by simp)

theorem execRetract_kept (k : Packet) (s : State) : keeps s (execRetract k s) := by unfold execRetract; exact keeps_next (by simp)

theorem execMcwPkt_kept (k : Packet) (s : State) : keeps s (execMcwPkt k s) := by unfold execMcwPkt; exact keeps_next (by split <;> simp)

theorem execLaunch_kept (p : PCore) (dt : Nat) (s : State) : keeps s (execLaunch p dt s) := by unfold execLaunch; exact keeps_next (by simp)

theorem execTimedStart_kept (dt : Nat) (s : State) : keeps s (execTimedStart dt s) := by
  unfold execTimedStart; dsimp only; refine keeps_next ?_; repeat' split
  all_goals simp [foldl_kept]

theorem execTimeRelease_kept (p : PCore) (dt : Nat) (s : State) :
    keeps s (execTimeRelease p dt s) := by unfold execTimeRelease; exact keeps_next (by simp)

theorem execStandaloneFlip_kept (dt : Nat) (s : State) : keeps s (execStandaloneFlip dt s) := by unfold execStandaloneFlip; exact keeps_next (by simp)

theorem execSchedulerPick_kept (s : State) : keeps s (execSchedulerPick s) := by unfold execSchedulerPick; exact keeps_next (by simp)

theorem execDone_kept (k : Packet) (s : State) : keeps s (execDone k s) := by unfold execDone; exact keeps_next (by simp)

theorem execAbortEvent_kept (reason : BitVec 8) (lost : List PCore) (s : State) : keeps s (execAbortEvent reason lost s) := by
  unfold execAbortEvent; dsimp only; refine keeps_next ?_; repeat' split
  all_goals simp [foldl_kept]

theorem execStop_kept (p : PCore) (s : State) : keeps s (execStop p s) := by unfold execStop; exact keeps_next (by simp)

theorem execStopAck_kept (p : PCore) (s : State) : keeps s (execStopAck p s) := by unfold execStopAck; exact keeps_next (by simp)

theorem execQuiesceLimit_kept (dt : Nat) (s : State) : keeps s (execQuiesceLimit dt s) := by
  unfold execQuiesceLimit; dsimp only; refine keeps_next ?_; repeat' split
  all_goals simp [foldl_kept]

theorem execPassRecordPost_kept (s : State) : keeps s (execPassRecordPost s) := by unfold execPassRecordPost; exact keeps_next (by simp)

theorem execPassTimeLimit_kept (dt : Nat) (s : State) : keeps s (execPassTimeLimit dt s) := by unfold execPassTimeLimit; exact keeps_next (by simp)

theorem execNextPassFill_kept (s : State) : keeps s (execNextPassFill s) := by
  unfold execNextPassFill; dsimp only; refine keeps_next ?_; repeat' split
  all_goals simp

theorem execHintFill_kept (s : State) : keeps s (execHintFill s) := by
  unfold execHintFill; dsimp only; refine keeps_next ?_; repeat' split
  all_goals simp

theorem execPinLapse_kept (handle : BitVec 19) (dt : Nat) (s : State) : keeps s (execPinLapse handle dt s) := by
  unfold execPinLapse; dsimp only; refine keeps_next ?_
  try dsimp only
  repeat' (first
  | (simp)
  | (with_reducible rfl)
  | (intro _)
  | (assumption)
  | rw [foldl_kept]
  | rw [foldl_kept1]
  | (split))

theorem execProbe_kept (p : PCore) (alive : Bool) (s : State) : keeps s (execProbe p alive s) := by
  unfold execProbe; dsimp only; refine keeps_next ?_; repeat' split
  all_goals simp

theorem execIdleProbe_kept (p : PCore) (alive : Bool) (s : State) :
    keeps s (execIdleProbe p alive s) := by unfold execIdleProbe; exact keeps_next (by simp)

theorem execMapChange_kept (s : State) : keeps s (execMapChange s) := by unfold execMapChange; exact keeps_next (by simp)

theorem execRimPowerLoss_kept (s : State) : keeps s (execRimPowerLoss s) := by unfold execRimPowerLoss; exact keeps_next (by simp)

theorem execEfuseTrip_kept (region : Fin 9) (cause : BitVec 4) (s : State) :
    keeps s (execEfuseTrip region cause s) := by unfold execEfuseTrip; exact keeps_next (by simp)

theorem execConnectorOpen_kept (n : Fin 36) (s : State) : keeps s (execConnectorOpen n s) := by unfold execConnectorOpen; exact keeps_next (by simp)

theorem execConnectorEstimate_kept (n : Fin 36) (microOhm : Nat) (centiAmp : BitVec 16) (dt : Nat) (s : State) :
    keeps s (execConnectorEstimate n microOhm centiAmp dt s) := by unfold execConnectorEstimate; exact keeps_next (by simp)

theorem execAllocationTick_kept (power : List (Site × Nat)) (rim : Nat) (planeMilliVolt : List (Fin 9 × Nat)) (dt : Nat) (s : State) :
    keeps s (execAllocationTick power rim planeMilliVolt dt s) := by unfold execAllocationTick; exact keeps_next (by simp)

theorem execCapCompare_kept (site : Site) (power : BitVec 16) (below1ms : Bool) (s : State) :
    keeps s (execCapCompare site power below1ms s) := by unfold execCapCompare; exact keeps_next (by simp)

theorem execPanelClamp_kept (power : Nat) (s : State) : keeps s (execPanelClamp power s) := by
  unfold execPanelClamp; dsimp only; refine keeps_next ?_; repeat' split
  all_goals simp [foldl_kept]

theorem execPhaseFail_kept (site : Site) (phase : Fin 8) (s : State) :
    keeps s (execPhaseFail site phase s) := by unfold execPhaseFail; exact keeps_next (by simp)

theorem execIvrFail_kept (site : Site) (ivr : Fin 9) (tieMax : BitVec 7) (s : State) : keeps s (execIvrFail site ivr tieMax s) := by
  unfold execIvrFail; dsimp only; refine keeps_next ?_; repeat' split
  all_goals simp [foldl_kept]

theorem execInrushGrant_kept (power : Nat) (s : State) : keeps s (execInrushGrant power s) := by unfold execInrushGrant; exact keeps_next (by simp)

theorem execInrushReevaluate_kept (power : Nat) (dt : Nat) (s : State) :
    keeps s (execInrushReevaluate power dt s) := by unfold execInrushReevaluate; exact keeps_next (by simp)

theorem execTurnOnPhase_kept (m : Meadow) (s : State) : keeps s (execTurnOnPhase m s) := by
  unfold execTurnOnPhase; dsimp only; refine keeps_next ?_; repeat' split
  all_goals simp [foldl_kept]

theorem execMeadowPowerDown_kept (s : State) : keeps s (execMeadowPowerDown s) := by
  unfold execMeadowPowerDown; dsimp only; refine keeps_next ?_; repeat' split
  all_goals simp [foldl_kept]

theorem execCoreGate_kept (site : Site) (v : BitVec 64) (s : State) :
    keeps s (execCoreGate site v s) := by unfold execCoreGate; exact keeps_next (by simp)

theorem execPlaceRegister_kept (c : Cmd) (s : State) : keeps s (execPlaceRegister c s) := by unfold execPlaceRegister; exact keeps_next (by simp)

theorem execPlaceUnregister_kept (c : Cmd) (s : State) :
    keeps s (execPlaceUnregister c s) := by unfold execPlaceUnregister; exact keeps_next (by simp)

theorem execResLoad_kept (c : Cmd) (s : State) : keeps s (execResLoad c s) := by unfold execResLoad; exact keeps_next (by simp)

theorem execResLoadHost_kept (c : Cmd) (page : HostRead) (s : State) :
    keeps s (execResLoadHost c page s) := by unfold execResLoadHost; exact keeps_next (by simp)

theorem execResRelease_kept (c : Cmd) (s : State) : keeps s (execResRelease c s) := by unfold execResRelease; exact keeps_next (by simp)

theorem execResHint_kept (c : Cmd) (s : State) : keeps s (execResHint c s) := by unfold execResHint; exact keeps_next (by simp)

theorem execResPin_kept (c : Cmd) (s : State) : keeps s (execResPin c s) := by unfold execResPin; exact keeps_next (by simp)

theorem execPassLaunch_kept (c : Cmd) (s : State) : keeps s (execPassLaunch c s) := by unfold execPassLaunch; exact keeps_next (by simp)

theorem execAbort_kept (c : Cmd) (s : State) : keeps s (execAbort c s) := by unfold execAbort; exact keeps_next (by simp)

theorem execMemCopy_kept (c : Cmd) (src : HostRead) (s : State) :
    keeps s (execMemCopy c src s) := by unfold execMemCopy; exact keeps_next (by split <;> simp)

theorem execRoutePacket_kept (n : Node) (frame : Arrival) (k : Packet) (s : State) :
    keeps s (execRoutePacket n frame k s) := by unfold execRoutePacket; exact keeps_next (by simp)

theorem execFlitReplay_kept (n : Node) (port : Fin 12) (s : State) :
    keeps s (execFlitReplay n port s) := by unfold execFlitReplay; exact keeps_next (by simp)

theorem execRingLinkDead_kept (n : Node) (port : Fin 12) (s : State) :
    keeps s (execRingLinkDead n port s) := by unfold execRingLinkDead; exact keeps_next (by simp)

theorem execLinkLockLoss_kept (n : Node) (port : Fin 12) (s : State) :
    keeps s (execLinkLockLoss n port s) := by unfold execLinkLockLoss; exact keeps_next (by simp)

theorem execLinkIdleTimeout_kept (n : Node) (port : Fin 12) (s : State) :
    keeps s (execLinkIdleTimeout n port s) := by unfold execLinkIdleTimeout; exact keeps_next (by simp)

theorem execCombineTimeout_kept (n : Node) (dt : Nat) (s : State) : keeps s (execCombineTimeout n dt s) := by
  unfold execCombineTimeout; dsimp only; refine keeps_next ?_; simp [foldl_kept]

theorem execDrainStart_kept (v : BitVec 64) (s : State) : keeps s (execDrainStart v s) := by unfold execDrainStart; exact keeps_next (by simp)

theorem execBeacon_kept (dt : Nat) (s : State) : keeps s (execBeacon dt s) := by unfold execBeacon; exact keeps_next (by simp)

theorem execDrainLimit_kept (dt : Nat) (s : State) : keeps s (execDrainLimit dt s) := by unfold execDrainLimit; exact keeps_next (by simp)

theorem execNop_kept (p : PCore) (g : Guard) (b : BitVec 48) (s : State) : keeps s (execNop p g b s) := by unfold execNop; exact keeps_next (by simp)

theorem execPdone_kept (p : PCore) (g : Guard) (b : BitVec 48) (s : State) :
    keeps s (execPdone p g b s) := by unfold execPdone; exact keeps_next (by simp)

theorem execBrk_kept (p : PCore) (g : Guard) (b : BitVec 48) (s : State) : keeps s (execBrk p g b s) := by unfold execBrk; exact keeps_next (by simp)

theorem execSeqFence_kept (p : PCore) (g : Guard) (b : BitVec 48) (s : State) :
    keeps s (execSeqFence p g b s) := by unfold execSeqFence; exact keeps_next (by simp)

theorem execAluR_kept (p : PCore) (g : Guard) (b : BitVec 54) (s : State) :
    keeps s (execAluR p g b s) := by unfold execAluR; exact keeps_next (by simp)

theorem execAluI_kept (p : PCore) (g : Guard) (b : BitVec 54) (s : State) :
    keeps s (execAluI p g b s) := by unfold execAluI; exact keeps_next (by simp)

theorem execLil_kept (p : PCore) (g : Guard) (b : BitVec 48) (s : State) : keeps s (execLil p g b s) := by unfold execLil; exact keeps_next (by simp)

theorem execLih_kept (p : PCore) (g : Guard) (b : BitVec 48) (s : State) : keeps s (execLih p g b s) := by unfold execLih; exact keeps_next (by simp)

theorem execExt_kept (p : PCore) (g : Guard) (b : BitVec 48) (s : State) : keeps s (execExt p g b s) := by unfold execExt; exact keeps_next (by simp)

theorem execDep_kept (p : PCore) (g : Guard) (b : BitVec 48) (s : State) : keeps s (execDep p g b s) := by unfold execDep; exact keeps_next (by simp)

theorem execLd_kept (p : PCore) (g : Guard) (b : BitVec 54) (s : State) : keeps s (execLd p g b s) := by unfold execLd; exact keeps_next (by simp)

theorem execSt_kept (p : PCore) (g : Guard) (b : BitVec 54) (s : State) : keeps s (execSt p g b s) := by unfold execSt; exact keeps_next (by simp)

theorem execRdreg_kept (p : PCore) (g : Guard) (b : BitVec 50) (s : State) :
    keeps s (execRdreg p g b s) := by unfold execRdreg; exact keeps_next (by simp)

theorem execWrreg_kept (p : PCore) (g : Guard) (b : BitVec 50) (s : State) :
    keeps s (execWrreg p g b s) := by unfold execWrreg; exact keeps_next (by simp)

theorem execRdtime_kept (p : PCore) (g : Guard) (b : BitVec 50) (s : State) :
    keeps s (execRdtime p g b s) := by unfold execRdtime; exact keeps_next (by simp)

theorem execRdlaunch_kept (p : PCore) (g : Guard) (b : BitVec 50) (s : State) :
    keeps s (execRdlaunch p g b s) := by unfold execRdlaunch; exact keeps_next (by simp)

theorem execMovu_kept (p : PCore) (g : Guard) (b : BitVec 50) (s : State) :
    keeps s (execMovu p g b s) := by unfold execMovu; exact keeps_next (by simp)

theorem execRdid_kept (p : PCore) (g : Guard) (b : BitVec 50) (s : State) :
    keeps s (execRdid p g b s) := by unfold execRdid; exact keeps_next (by simp)

theorem execJ_kept (p : PCore) (g : Guard) (b : BitVec 48) (s : State) : keeps s (execJ p g b s) := by unfold execJ; exact keeps_next (by simp)

theorem execJal_kept (p : PCore) (g : Guard) (b : BitVec 48) (s : State) : keeps s (execJal p g b s) := by unfold execJal; exact keeps_next (by simp)

theorem execJr_kept (p : PCore) (g : Guard) (b : BitVec 48) (s : State) : keeps s (execJr p g b s) := by unfold execJr; exact keeps_next (by simp)

theorem execBcmp_kept (p : PCore) (g : Guard) (b : BitVec 54) (s : State) :
    keeps s (execBcmp p g b s) := by unfold execBcmp; exact keeps_next (by simp)

theorem execBsum_kept (p : PCore) (g : Guard) (b : BitVec 54) (s : State) :
    keeps s (execBsum p g b s) := by unfold execBsum; exact keeps_next (by simp)

theorem execPset_kept (p : PCore) (g : Guard) (b : BitVec 54) (s : State) :
    keeps s (execPset p g b s) := by unfold execPset; exact keeps_next (by simp)

theorem execPsum_kept (p : PCore) (g : Guard) (b : BitVec 54) (s : State) :
    keeps s (execPsum p g b s) := by unfold execPsum; exact keeps_next (by simp)

theorem execPlog_kept (p : PCore) (g : Guard) (b : BitVec 54) (s : State) :
    keeps s (execPlog p g b s) := by unfold execPlog; exact keeps_next (by simp)

theorem execMmaOs_kept (p : PCore) (g : Guard) (b : BitVec 54) (s : State) :
    keeps s (execMmaOs p g b s) := by unfold execMmaOs; exact keeps_next (by simp)

theorem execMmaWs_kept (p : PCore) (g : Guard) (b : BitVec 54) (s : State) :
    keeps s (execMmaWs p g b s) := by unfold execMmaWs; exact keeps_next (by simp)

theorem execWload_kept (p : PCore) (g : Guard) (b : BitVec 54) (s : State) :
    keeps s (execWload p g b s) := by unfold execWload; exact keeps_next (by simp)

theorem execAccLoad_kept (p : PCore) (g : Guard) (b : BitVec 54) (s : State) :
    keeps s (execAccLoad p g b s) := by unfold execAccLoad; exact keeps_next (by simp)

theorem execDrain_kept (p : PCore) (g : Guard) (b : BitVec 54) (s : State) :
    keeps s (execDrain p g b s) := by unfold execDrain; exact keeps_next (by simp)

theorem execVchain_kept (p : PCore) (g : Guard) (b : BitVec 54) (s : State) :
    keeps s (execVchain p g b s) := by unfold execVchain; exact keeps_next (by simp)

theorem execFill_kept (p : PCore) (g : Guard) (b : BitVec 54) (s : State) :
    keeps s (execFill p g b s) := by unfold execFill; exact keeps_next (by simp)

theorem execCopy_kept (p : PCore) (g : Guard) (b : BitVec 54) (s : State) :
    keeps s (execCopy p g b s) := by unfold execCopy; exact keeps_next (by simp)

theorem execFrd_kept (p : PCore) (g : Guard) (b : BitVec 54) (s : State) : keeps s (execFrd p g b s) := by unfold execFrd; exact keeps_next (by simp)

theorem execFwr_kept (p : PCore) (g : Guard) (b : BitVec 54) (s : State) : keeps s (execFwr p g b s) := by unfold execFwr; exact keeps_next (by simp)

theorem execMcw_kept (p : PCore) (g : Guard) (b : BitVec 54) (s : State) : keeps s (execMcw p g b s) := by unfold execMcw; exact keeps_next (by simp)

theorem execHint_kept (p : PCore) (g : Guard) (b : BitVec 54) (s : State) :
    keeps s (execHint p g b s) := by unfold execHint; exact keeps_next (by simp)

theorem execMsend_kept (p : PCore) (g : Guard) (b : BitVec 54) (s : State) :
    keeps s (execMsend p g b s) := by unfold execMsend; exact keeps_next (by simp)

theorem execDwait_kept (p : PCore) (g : Guard) (b : BitVec 54) (s : State) :
    keeps s (execDwait p g b s) := by unfold execDwait; exact keeps_next (by simp)

theorem execTwait_kept (p : PCore) (g : Guard) (b : BitVec 54) (s : State) :
    keeps s (execTwait p g b s) := by unfold execTwait; exact keeps_next (by simp)

theorem execCwait_kept (p : PCore) (g : Guard) (b : BitVec 54) (s : State) :
    keeps s (execCwait p g b s) := by unfold execCwait; exact keeps_next (by simp)

theorem execTsend_kept (p : PCore) (g : Guard) (b : BitVec 54) (s : State) :
    keeps s (execTsend p g b s) := by unfold execTsend; exact keeps_next (by simp)

theorem execCret_kept (p : PCore) (g : Guard) (b : BitVec 54) (s : State) :
    keeps s (execCret p g b s) := by unfold execCret; exact keeps_next (by simp)

theorem execWopen_kept (p : PCore) (g : Guard) (b : BitVec 54) (s : State) :
    keeps s (execWopen p g b s) := by unfold execWopen; exact keeps_next (by simp)

theorem execWclose_kept (p : PCore) (g : Guard) (b : BitVec 54) (s : State) :
    keeps s (execWclose p g b s) := by unfold execWclose; exact keeps_next (by simp)

theorem execCbcfg_kept (p : PCore) (g : Guard) (b : BitVec 54) (s : State) :
    keeps s (execCbcfg p g b s) := by unfold execCbcfg; exact keeps_next (by simp)

theorem execCbpush_kept (p : PCore) (g : Guard) (b : BitVec 54) (s : State) :
    keeps s (execCbpush p g b s) := by unfold execCbpush; exact keeps_next (by simp)

theorem execCbpop_kept (p : PCore) (g : Guard) (b : BitVec 54) (s : State) :
    keeps s (execCbpop p g b s) := by unfold execCbpop; exact keeps_next (by simp)

theorem execCbaddr_kept (p : PCore) (g : Guard) (b : BitVec 54) (s : State) :
    keeps s (execCbaddr p g b s) := by unfold execCbaddr; exact keeps_next (by simp)

theorem execWaitt_kept (p : PCore) (g : Guard) (b : BitVec 54) (s : State) :
    keeps s (execWaitt p g b s) := by unfold execWaitt; exact keeps_next (by simp)

theorem execHandoff_kept (s : State) : keeps s (execHandoff s) := by unfold execHandoff; exact keeps_next (by split <;> simp)

theorem execHandoffTimeout_kept (id : Nat) (dt : Nat) (s : State) :
    keeps s (execHandoffTimeout id dt s) := by unfold execHandoffTimeout; exact keeps_next (by split <;> simp)

theorem execStateCopy_kept (c : Cmd) (s : State) : keeps s (execStateCopy c s) := by unfold execStateCopy; exact keeps_next (by split <;> simp)

theorem execStateCopyPairTimeout_kept (ctx : BitVec 10) (dt : Nat) (s : State) : keeps s (execStateCopyPairTimeout ctx dt s) := by
  unfold execStateCopyPairTimeout; dsimp only; refine keeps_next ?_; simp [foldl_kept]

theorem execSourceLost_kept (ctx : BitVec 10) (s : State) : keeps s (execSourceLost ctx s) := by
  unfold execSourceLost; refine keeps_next ?_; rw [foldl_kept]; intro t a; simp

theorem execData_kept (e : Engine) (f : Prefix) (k : Packet) (s : State) :
    keeps s (execData e f k s) := by unfold execData; exact keeps_next (by simp)

theorem execPenletLinkTrain_kept (e : Engine) (lanes : BitVec 4) (s : State) :
    keeps s (execPenletLinkTrain e lanes s) := by unfold execPenletLinkTrain; exact keeps_next (by simp)

theorem execPenletLinkLoss_kept (e : Engine) (lanes : BitVec 4) (s : State) :
    keeps s (execPenletLinkLoss e lanes s) := by unfold execPenletLinkLoss; exact keeps_next (by simp)

theorem execIdent_kept (e : Engine) (f : IdentFrame) (s : State) : keeps s (execIdent e f s) := by unfold execIdent; exact keeps_next (by simp)

theorem execRoster_kept (e : Engine) (f : RosterFrame) (s : State) : keeps s (execRoster e f s) := by unfold execRoster; exact keeps_next (by simp)

theorem execSpanRecordRead_kept (r : SpanRecord) (s : State) :
    keeps s (execSpanRecordRead r s) := by unfold execSpanRecordRead; exact keeps_next (by simp)

theorem execTimeFrameSend_kept (dt : Nat) (s : State) : keeps s (execTimeFrameSend dt s) := by unfold execTimeFrameSend; exact keeps_next (by simp)

theorem execTime_kept (e : Engine) (t : BitVec 64) (agePs : Nat) (s : State) :
    keeps s (execTime e t agePs s) := by unfold execTime; exact keeps_next (by simp)

theorem execTsyncLoss_kept (dt : Nat) (s : State) : keeps s (execTsyncLoss dt s) := by unfold execTsyncLoss; exact keeps_next (by simp)

theorem execHeartbeatSend_kept (dt : Nat) (s : State) : keeps s (execHeartbeatSend dt s) := by unfold execHeartbeatSend; exact keeps_next (by simp)

theorem execHeartbeat_kept (e : Engine) (f : HeartbeatFrame) (s : State) :
    keeps s (execHeartbeat e f s) := by unfold execHeartbeat; exact keeps_next (by simp)

theorem execUnresponsive_kept (index : Fin 64) (dt : Nat) (s : State) :
    keeps s (execUnresponsive index dt s) := by unfold execUnresponsive; exact keeps_next (by simp)

theorem execPenletFrameReplay_kept (_e : Engine) (s : State) :
    keeps s (execPenletFrameReplay _e s) := by unfold execPenletFrameReplay; exact keeps_next (by simp)

theorem execGetVersion_kept (s : State) : keeps s (execGetVersion s) := by unfold execGetVersion; exact keeps_next (by simp)

theorem execGetCapabilities_kept (s : State) : keeps s (execGetCapabilities s) := by unfold execGetCapabilities; exact keeps_next (by simp)

theorem execNegotiateAlgorithms_kept (s : State) :
    keeps s (execNegotiateAlgorithms s) := by unfold execNegotiateAlgorithms; exact keeps_next (by simp)

theorem execGetDigests_kept (s : State) : keeps s (execGetDigests s) := by unfold execGetDigests; exact keeps_next (by simp)

theorem execGetCertificate_kept (off len : BitVec 16) (s : State) :
    keeps s (execGetCertificate off len s) := by unfold execGetCertificate; exact keeps_next (by simp)

theorem execChallenge_kept (nonce : BitVec 256) (s : State) : keeps s (execChallenge nonce s) := by unfold execChallenge; exact keeps_next (by simp)

theorem execGetMeasurements_kept (index : BitVec 8) (nonce : BitVec 256) (s : State) :
    keeps s (execGetMeasurements index nonce s) := by unfold execGetMeasurements; exact keeps_next (by simp)

theorem execMctpMessage_kept (type : BitVec 8) (body : List Byte) (s : State) :
    keeps s (execMctpMessage type body s) := by unfold execMctpMessage; exact keeps_next (by simp)

theorem execCoolantRead_kept (r : Option (BitVec 16 × BitVec 16 × BitVec 16)) (dt : Nat) (s : State) :
    keeps s (execCoolantRead r dt s) := by unfold execCoolantRead; exact keeps_next (by split <;> simp)

theorem execFlowLow_kept (dt : Nat) (s : State) : keeps s (execFlowLow dt s) := by unfold execFlowLow; exact keeps_next (by simp)

theorem execCoolLostClear_kept (dt : Nat) (s : State) : keeps s (execCoolLostClear dt s) := by unfold execCoolLostClear; exact keeps_next (by simp)

theorem execSensorSample_kept (site : Site) (k : Fin 16) (temp : BitVec 16) (s : State) : keeps s (execSensorSample site k temp s) := by
  unfold execSensorSample
  refine keeps_next ?_
  split
  · extract_lets x
    have h : (if x.hotSpot.isSome then ((0 : BitVec 256), s) else s.fresh).2.kept = s.kept := by
      split
      · rfl
      · exact State.fresh_kept s
    generalize (if x.hotSpot.isSome then ((0 : BitVec 256), s) else s.fresh) = q at h ⊢
    obtain ⟨v, t⟩ := q
    exact (State.setSett_kept _ _ _).trans h
  · rfl

theorem execGuardRelease_kept (site : Site) (dt : Nat) (s : State) :
    keeps s (execGuardRelease site dt s) := by unfold execGuardRelease; exact keeps_next (by simp)

theorem execSensorDisagree_kept (site : Site) (pair : Fin 8) (estimate : BitVec 16) (s : State) :
    keeps s (execSensorDisagree site pair estimate s) := by unfold execSensorDisagree; exact keeps_next (by simp)

theorem execThermalTick_kept (fc : List Forecast) (dt : Nat) (s : State) : keeps s (execThermalTick fc dt s) := by
  unfold execThermalTick; dsimp only; refine keeps_next ?_; repeat' split
  all_goals simp [foldl_kept]

theorem execThermtrip_kept (hbm : Bool) (source : BitVec 9) (s : State) : keeps s (execThermtrip hbm source s) := by
  unfold execThermtrip; dsimp only; refine keeps_next ?_; repeat' split
  all_goals simp [foldl_kept]

theorem execArrayOpComplete_kept (p : PCore) (s : State) :
    keeps s (execArrayOpComplete p s) := by unfold execArrayOpComplete; exact keeps_next (by simp)

theorem execChainStart_kept (p : PCore) (s : State) : keeps s (execChainStart p s) := by unfold execChainStart; exact keeps_next (by simp)

theorem execChainComplete_kept (p : PCore) (s : State) : keeps s (execChainComplete p s) := by unfold execChainComplete; exact keeps_next (by simp)

theorem execSummaryWrite_kept (p : PCore) (s : State) : keeps s (execSummaryWrite p s) := by unfold execSummaryWrite; exact keeps_next (by simp)

theorem execFillCopyComplete_kept (p : PCore) (s : State) :
    keeps s (execFillCopyComplete p s) := by unfold execFillCopyComplete; exact keeps_next (by simp)

theorem execTransferComplete_kept (p : PCore) (tid : Nat) (s : State) :
    keeps s (execTransferComplete p tid s) := by unfold execTransferComplete; exact keeps_next (by simp)

theorem execTransferTimeout_kept (p : PCore) (tid : Nat) (dt : Nat) (s : State) :
    keeps s (execTransferTimeout p tid dt s) := by unfold execTransferTimeout; exact keeps_next (by simp)

theorem execRunAheadStart_kept (p : PCore) (s : State) : keeps s (execRunAheadStart p s) := by unfold execRunAheadStart; exact keeps_next (by simp)

theorem execWatchdogFire_kept (p : PCore) (dt : Nat) (s : State) :
    keeps s (execWatchdogFire p dt s) := by unfold execWatchdogFire; exact keeps_next (by simp)

theorem execResume_kept (p : PCore) (s : State) : keeps s (execResume p s) := by unfold execResume; exact keeps_next (by simp)

theorem execStep_kept (p : PCore) (s : State) : keeps s (execStep p s) := by unfold execStep; exact keeps_next (by simp)

theorem execHalt_kept (p : PCore) (s : State) : keeps s (execHalt p s) := by unfold execHalt; exact keeps_next (by simp)

theorem execCoreNumSeedWrite_kept (p : PCore) (v : BitVec 32) (s : State) :
    keeps s (execCoreNumSeedWrite p v s) := by unfold execCoreNumSeedWrite; exact keeps_next (by simp)

theorem execWinCfgWrite_kept (p : PCore) (n : Fin 16) (v : BitVec 64) (s : State) :
    keeps s (execWinCfgWrite p n v s) := by unfold execWinCfgWrite; exact keeps_next (by simp)

theorem execBankPowerUp_kept (p : PCore) (on : BitVec 12) (s : State) :
    keeps s (execBankPowerUp p on s) := by unfold execBankPowerUp; exact keeps_next (by simp)

theorem execBankZeroFillDone_kept (p : PCore) (bank : Fin 12) (s : State) :
    keeps s (execBankZeroFillDone p bank s) := by unfold execBankZeroFillDone; exact keeps_next (by simp)

theorem execScrubTick_kept (p : PCore) (upsets : List Upset) (s : State) :
    keeps s (execScrubTick p upsets s) := by unfold execScrubTick; exact keeps_next (by simp)

theorem execUnlockFull_onward (s : State) : onwards s (execUnlockFull s) := by
  refine onwards_next ?_
  split
  · exact State.authEnd_onward _ _
  · exact State.authGo_onward _ _

theorem execRetire_onward (s : State) : onwards s (execRetire s) := by
  refine onwards_next ?_
  split
  · exact State.authEnd_onward _ _
  · exact State.authGo_onward _ _

theorem execProvision_onward (s : State) : onwards s (execProvision s) := onwards_next (State.authGo_onward _ _)

theorem execClaim_onward (s : State) : onwards s (execClaim s) := onwards_next (State.authGo_onward _ _)

theorem execKeyAdd_onward (s : State) : onwards s (execKeyAdd s) := onwards_next (State.authGo_onward _ _)

theorem execKeyRevoke_onward (s : State) : onwards s (execKeyRevoke s) := onwards_next (State.authGo_onward _ _)

theorem execSvnCommit_onward (s : State) : onwards s (execSvnCommit s) := onwards_next (State.authGo_onward _ _)

theorem execListsClear_onward (s : State) : onwards s (execListsClear s) := onwards_next (State.authGo_onward _ _)

theorem execRegisterWrite_onward (t : RegPath) (wide : Bool) (v : BitVec 64) (s : State) : onwards s (execRegisterWrite t wide v s) := by
  refine onwards_next ?_
  split
  · exact State.writeReg_onward _ _ _ _
  · exact .of_eq (by simp)
  · exact .of_eq (by simp)

theorem execApertureAccess_onward (write : Bool) (off : BitVec 24) (wide : Bool) (v : BitVec 64) (s : State) :
    onwards s (execApertureAccess write off wide v s) := by
  refine onwards_next ?_
  split
  · split
    · exact State.writeReg_onward _ _ _ _
    · exact .of_eq (by simp)
  · exact .refl _

theorem execSecAccess_onward (write : Bool) (addr : BitVec 48) (wide : Bool) (v : BitVec 64) (s : State) :
    onwards s (execSecAccess write addr wide v s) := by
  refine onwards_next (State.onTap_onward _ _ fun u => ?_)
  dsimp only
  split
  · split
    · exact Kept.Onward.trans (.of_eq (State.setTap_kept u 2)) (State.writeReg_onward _ _ _ _)
    · exact .of_eq (by simp)
  · exact .of_eq (by simp)

theorem execTapDebugAccess_onward (write : Bool) (addr : BitVec 48) (bytes : BitVec 14) (data : List Byte) (s : State) :
    onwards s (execTapDebugAccess write addr bytes data s) := by
  refine onwards_next (State.onTap_onward _ _ fun u => ?_)
  split
  · exact Kept.Onward.trans (.of_eq (State.setTap_kept u 4)) (State.debugAccess_onward _ _ _ _ _)
  · exact .of_eq (by simp)

theorem execWr_onward (k : Packet) (s : State) : onwards s (execWr k s) := by
  refine onwards_next (State.arrive_onward _ _ _ _ fun u => ?_)
  dsimp only
  rw [State.acknowledge_kept]
  exact State.serveWrite_onward _ _

end Sys2Proof.Machine
end

