-- ==== Sys2Proof/Laws/Seq.lean ====
section
/-! SUPPORT. What the issue of a sequencer instruction comes to, in terms of the meaning of its word. -/

namespace Sys2Proof.Machine

/-- A field of an instruction word below the guard is the field of its body. -/
theorem nfld_seqWord {op b hi lo : Nat} {g : Guard} (hb : b < 2 ^ 54) (h : hi < 54) : nfld (seqWord op g b) hi lo = nfld b hi lo := by
  unfold nfld seqWord
  apply Nat.eq_of_testBit_eq
  intro i
  have e : op * 2 ^ 58 + b2n g.gn * 2 ^ 57 + g.gp.toNat * 2 ^ 54 + b = 2 ^ 54 * (op * 16 + b2n g.gn * 8 + g.gp.toNat) + b := by omega
  rw [e]
  simp only [Nat.testBit_mod_two_pow, Nat.testBit_shiftRight]
  by_cases hi' : i < hi + 1 - lo
  · have : lo + i < 54 := by omega
    rw [Nat.testBit_two_pow_mul_add _ hb]
    simp [this]
  · simp [hi']

/-- A bit of an instruction word below the guard is the bit of its body. -/
theorem testBit_seqWord {op b i : Nat} {g : Guard} (hb : b < 2 ^ 54) (h : i < 54) : (seqWord op g b).testBit i = b.testBit i := by
  unfold seqWord
  have e : op * 2 ^ 58 + b2n g.gn * 2 ^ 57 + g.gp.toNat * 2 ^ 54 + b = 2 ^ 54 * (op * 16 + b2n g.gn * 8 + g.gp.toNat) + b := by omega
  rw [e, Nat.testBit_two_pow_mul_add _ hb]
  simp [h]

/-- The guard of an instruction word is the row's guard. -/
theorem guardTrue_seqWord {op b : Nat} {g : Guard} (c : Core) (hb : b < 2 ^ 54) :
    guardTrue c (seqWord op g b) = (c.pred g.gp.toNat != g.gn) := by
  have h1 : nfld (seqWord op g b) 56 54 = g.gp.toNat := by
    unfold nfld seqWord
    have : g.gp.toNat < 8 := g.gp.isLt
    have hb2 : b2n g.gn ≤ 1 := by cases g.gn <;> simp [b2n]
    rw [Nat.shiftRight_eq_div_pow]
    omega
  have h2 : (seqWord op g b).testBit 57 = g.gn := by
    unfold seqWord
    have : g.gp.toNat < 8 := g.gp.isLt
    rw [Nat.testBit_eq_decide_div_mod_eq]
    cases g.gn <;> simp [b2n] <;> omega
  simp [guardTrue, h1, h2]

/-- A field of a word with a 54-bit body. -/
theorem nfld_w54 {op hi lo : Nat} {g : Guard} (b : BitVec 54) (h : hi < 54) : nfld (seqWord op g b.toNat) hi lo = fld b hi lo :=
  nfld_seqWord b.isLt h

/-- A bit of a word with a 54-bit body. -/
theorem testBit_w54 {op i : Nat} {g : Guard} (b : BitVec 54) (h : i < 54) : (seqWord op g b.toNat).testBit i = bit b i :=
  testBit_seqWord b.isLt h

/-- A field below a code that stands above n bits. -/
theorem nfld_above {k b hi lo n : Nat} (hb : b < 2 ^ n) (hk : k % 2 ^ n = 0) (h : hi < n) : nfld (k + b) hi lo = nfld b hi lo := by
  obtain ⟨m, rfl⟩ := Nat.dvd_of_mod_eq_zero hk
  unfold nfld
  apply Nat.eq_of_testBit_eq
  intro i
  simp only [Nat.testBit_mod_two_pow, Nat.testBit_shiftRight]
  by_cases hi' : i < hi + 1 - lo
  · have : lo + i < n := by omega
    rw [Nat.testBit_two_pow_mul_add _ hb]
    simp [this]
  · simp [hi']

/-- A bit below a code that stands above n bits. -/
theorem testBit_above {k b i n : Nat} (hb : b < 2 ^ n) (hk : k % 2 ^ n = 0) (h : i < n) : (k + b).testBit i = b.testBit i := by
  obtain ⟨m, rfl⟩ := Nat.dvd_of_mod_eq_zero hk
  rw [Nat.testBit_two_pow_mul_add _ hb]
  simp [h]

/-- A body with a code above it fits 54 bits. -/
theorem above_lt {k b n : Nat} (hn : n ≤ 54) (hb : b < 2 ^ n) (hk : k % 2 ^ n = 0) (hk2 : k < 2 ^ 54) : k + b < 2 ^ 54 := by
  obtain ⟨m, rfl⟩ := Nat.dvd_of_mod_eq_zero hk
  have h1 : 2 ^ 54 = 2 ^ n * 2 ^ (54 - n) := by rw [← Nat.pow_add]; congr 1; omega
  rw [h1] at hk2 ⊢
  have h2 : m < 2 ^ (54 - n) := Nat.lt_of_mul_lt_mul_left hk2
  calc 2 ^ n * m + b < 2 ^ n * m + 2 ^ n := by omega
    _ = 2 ^ n * (m + 1) := by ring
    _ ≤ 2 ^ n * 2 ^ (54 - n) := Nat.mul_le_mul_left _ h2

/-- A field of a word with a 48-bit body below an FN code. -/
theorem nfld_w48 {op hi lo k : Nat} {g : Guard} (b : BitVec 48) (hk : k % 2 ^ 48 = 0) (hk2 : k < 2 ^ 54) (h : hi < 48) :
    nfld (seqWord op g (k + b.toNat)) hi lo = fld b hi lo :=
  (nfld_seqWord (above_lt (by decide) b.isLt hk hk2) (by omega)).trans (nfld_above b.isLt hk h)

/-- A bit of a word with a 48-bit body below an FN code. -/
theorem testBit_w48 {op i k : Nat} {g : Guard} (b : BitVec 48) (hk : k % 2 ^ 48 = 0) (hk2 : k < 2 ^ 54) (h : i < 48) :
    (seqWord op g (k + b.toNat)).testBit i = bit b i :=
  (testBit_seqWord (above_lt (by decide) b.isLt hk hk2) (by omega)).trans (testBit_above b.isLt hk h)

/-- A field of a word with a 48-bit body and FN 0. -/
theorem nfld_w48z {op hi lo : Nat} {g : Guard} (b : BitVec 48) (h : hi < 48) : nfld (seqWord op g b.toNat) hi lo = fld b hi lo :=
  nfld_seqWord (by have := b.isLt; omega) (by omega)

/-- A bit of a word with a 48-bit body and FN 0. -/
theorem testBit_w48z {op i : Nat} {g : Guard} (b : BitVec 48) (h : i < 48) : (seqWord op g b.toNat).testBit i = bit b i :=
  testBit_seqWord (by have := b.isLt; omega) (by omega)

/-- A field of a word with a 50-bit body below an FN code. -/
theorem nfld_w50 {op hi lo k : Nat} {g : Guard} (b : BitVec 50) (hk : k % 2 ^ 50 = 0) (hk2 : k < 2 ^ 54) (h : hi < 50) :
    nfld (seqWord op g (k + b.toNat)) hi lo = fld b hi lo :=
  (nfld_seqWord (above_lt (by decide) b.isLt hk hk2) (by omega)).trans (nfld_above b.isLt hk h)

/-- A field of a word with a 50-bit body and FN 0. -/
theorem nfld_w50z {op hi lo : Nat} {g : Guard} (b : BitVec 50) (h : hi < 50) : nfld (seqWord op g b.toNat) hi lo = fld b hi lo :=
  nfld_seqWord (by have := b.isLt; omega) (by omega)

/-- A core that does not run issues nothing. -/
theorem issue_idle {s : State} {p op b : Nat} {g : Guard} {body : Body} (h : (s.core p).seq.mode ≠ .run) : s.issue p op g b body = s := by
  simp [State.issue, h]

@[simp] theorem send_nil (s : State) : s.send [] = s := by simp [State.send]

/-- Retiring outside run-ahead and debug. -/
theorem advance_plain {d : Core} {next : Nat} (hr : d.seq.ra = none) (hh : d.seq.haltReq = false) (hn : next ≤ 4095) :
    d.advance next = (d.wentTo next, []) := by
  simp [Core.advance, hn, Core.follow, hr, CoreSeq.goOn, hh, Core.wentTo]

/-- A false guard only advances the PC. -/
theorem issue_false {s : State} {p op b : Nat} {g : Guard} {body : Body} (hc : (s.core p).plain) (hb : b < 2 ^ 54)
    (hg : ¬ (s.core p).guarded g) : s.issue p op g b body = s.setCore p (s.core p).wentOn := by
  obtain ⟨hm, hr, hh, -, hpc⟩ := hc
  have hg' : guardTrue (s.core p) (seqWord op g b) = false := by
    rw [guardTrue_seqWord _ hb]; simpa [Core.guarded] using hg
  simp only [State.issue, hm, if_true, State.issueWord, hg', Bool.false_eq_true, if_false, Core.retire, State.finishIssue]
  rw [advance_plain hr hh (by omega)]
  simp [Core.wentOn, State.setCore]

/-- An instruction that comes to `.done` retires with its effect. -/
theorem issue_done {s : State} {p op b next : Nat} {g : Guard} {body : Body} {d : Core} {out : List Packet} {msgs : List MeshMsg}
    (hc : (s.core p).plain) (hb : b < 2 ^ 54) (hg : (s.core p).guarded g)
    (h : body s p (seqWord op g b) (s.core p) = .done d next out msgs) (hr : d.seq.ra = none) (hh : d.seq.haltReq = false) (hn : next ≤ 4095) :
    s.issue p op g b body = { (s.setCore p (d.wentTo next)).send out with mesh := s.mesh ++ msgs } := by
  obtain ⟨hm, hr0, -, -, -⟩ := hc
  have hg' : guardTrue (s.core p) (seqWord op g b) = true := by rw [guardTrue_seqWord _ hb]; exact hg
  simp only [State.issue, hm, if_true, State.issueWord, hg', State.effect, Core.nextEntry, hr0, h, State.finishIssue]
  rw [advance_plain hr hh hn]
  simp

/-- An instruction that only changes its core retires with that change. -/
theorem issue_retire {s : State} {p op b next : Nat} {g : Guard} {body : Body} {d : Core}
    (hc : (s.core p).plain) (hb : b < 2 ^ 54) (hg : (s.core p).guarded g)
    (h : body s p (seqWord op g b) (s.core p) = .done d next [] []) (hr : d.seq.ra = none) (hh : d.seq.haltReq = false) (hn : next ≤ 4095) :
    s.issue p op g b body = s.setCore p (d.wentTo next) := by
  rw [issue_done hc hb hg h hr hh hn]
  simp [State.setCore]

/-- An instruction that waits blocks its core. -/
theorem issue_wait {s : State} {p op b count : Nat} {g : Guard} {body : Body} {m : SeqMode}
    (hc : (s.core p).plain) (hb : b < 2 ^ 54) (hg : (s.core p).guarded g)
    (h : body s p (seqWord op g b) (s.core p) = .wait m count) :
    s.issue p op g b body = s.setCore p ((s.core p).block s.tclk (seqWord op g b) m count) := by
  obtain ⟨hm, hr0, -, -, -⟩ := hc
  have hg' : guardTrue (s.core p) (seqWord op g b) = true := by rw [guardTrue_seqWord _ hb]; exact hg
  simp only [State.issue, hm, if_true, State.issueWord, hg', State.effect, Core.nextEntry, hr0, h, State.finishIssue]

/-- An instruction that traps. -/
theorem issue_trap {s : State} {p op b cause addr : Nat} {g : Guard} {body : Body} {d : Core}
    (hc : (s.core p).plain) (hb : b < 2 ^ 54) (hg : (s.core p).guarded g)
    (h : body s p (seqWord op g b) (s.core p) = .trap d cause addr) :
    s.issue p op g b body = (s.setCore p (d.trap cause addr).1).send (d.trap cause addr).2 := by
  obtain ⟨hm, hr0, -, -, -⟩ := hc
  have hg' : guardTrue (s.core p) (seqWord op g b) = true := by rw [guardTrue_seqWord _ hb]; exact hg
  simp only [State.issue, hm, if_true, State.issueWord, hg', State.effect, Core.nextEntry, hr0, h, State.finishIssue]
  simp

@[simp] theorem setSreg_ra (c : Core) (n : Nat) (v : BitVec 64) : (c.setSreg n v).seq.ra = c.seq.ra := by unfold Core.setSreg; split <;> rfl
@[simp] theorem setSreg_haltReq (c : Core) (n : Nat) (v : BitVec 64) : (c.setSreg n v).seq.haltReq = c.seq.haltReq := by unfold Core.setSreg; split <;> rfl
@[simp] theorem setSreg_pc (c : Core) (n : Nat) (v : BitVec 64) : (c.setSreg n v).seq.pc = c.seq.pc := by unfold Core.setSreg; split <;> rfl
@[simp] theorem setPred_ra (c : Core) (n : Nat) (v : Bool) : (c.setPred n v).seq.ra = c.seq.ra := by unfold Core.setPred; split <;> rfl
@[simp] theorem setPred_haltReq (c : Core) (n : Nat) (v : Bool) : (c.setPred n v).seq.haltReq = c.seq.haltReq := by unfold Core.setPred; split <;> rfl
@[simp] theorem setPred_pc (c : Core) (n : Nat) (v : Bool) : (c.setPred n v).seq.pc = c.seq.pc := by unfold Core.setPred; split <;> rfl

/-- Retiring a change of the core that leaves its run-ahead, debug request and PC. -/
theorem issue_on {s : State} {p op b : Nat} {g : Guard} {body : Body} {d : Core}
    (hc : (s.core p).plain) (hb : b < 2 ^ 54) (hg : (s.core p).guarded g) (h : body s p (seqWord op g b) (s.core p) = d.retire)
    (hd : d.seq.ra = (s.core p).seq.ra ∧ d.seq.haltReq = (s.core p).seq.haltReq ∧ d.seq.pc = (s.core p).seq.pc) :
    s.issue p op g b body = s.setCore p d.wentOn :=
  issue_retire hc hb hg h (hd.1.trans hc.2.1) (hd.2.1.trans hc.2.2.1) (by rw [hd.2.2]; exact hc.2.2.2.2)

/-- A change of the core that leaves its sequencer. -/
theorem seq_parts {c d : Core} (h : d.seq = c.seq) : d.seq.ra = c.seq.ra ∧ d.seq.haltReq = c.seq.haltReq ∧ d.seq.pc = c.seq.pc := by
  rw [h]; exact ⟨rfl, rfl, rfl⟩

theorem openWin_seq (c : Core) (n : Nat) (x f : BitVec 64) : (c.openWin n x f).seq = c.seq := by cases c; rfl
theorem closeWins_seq (c : Core) (n : Nat) : (c.closeWins n).seq = c.seq := by cases c; rfl
theorem setCb_seq (c : Core) (n h t : Nat) : (c.setCb n h t).seq = c.seq := by cases c; rfl
theorem sp_seq (c : Core) (x : CoreSp) : ({ c with sp := x } : Core).seq = c.seq := by cases c; rfl
theorem units_seq (c : Core) (x : CoreUnits) : ({ c with units := x } : Core).seq = c.seq := by cases c; rfl
theorem setSreg_parts (c : Core) (n : Nat) (v : BitVec 64) :
    (c.setSreg n v).seq.ra = c.seq.ra ∧ (c.setSreg n v).seq.haltReq = c.seq.haltReq ∧ (c.setSreg n v).seq.pc = c.seq.pc := by simp
theorem setPred_parts (c : Core) (n : Nat) (v : Bool) :
    (c.setPred n v).seq.ra = c.seq.ra ∧ (c.setPred n v).seq.haltReq = c.seq.haltReq ∧ (c.setPred n v).seq.pc = c.seq.pc := by simp
theorem setTok_parts (c : Core) (n v : Nat) :
    (c.setTok n v).seq.ra = c.seq.ra ∧ (c.setTok n v).seq.haltReq = c.seq.haltReq ∧ (c.setTok n v).seq.pc = c.seq.pc := ⟨rfl, rfl, rfl⟩
theorem setCrd_parts (c : Core) (n v : Nat) :
    (c.setCrd n v).seq.ra = c.seq.ra ∧ (c.setCrd n v).seq.haltReq = c.seq.haltReq ∧ (c.setCrd n v).seq.pc = c.seq.pc := ⟨rfl, rfl, rfl⟩

theorem check_nil (x : CoreSp) (l : List (Nat × Nat)) (h : x.errs = []) : x.check l = (x, none) := by
  simp [CoreSp.check, h]


theorem trap_plain {c : Core} {cause addr : Nat} (hr : c.seq.ra = none) (ht : bit c.seq.trap 63 = false) :
   c.trap cause addr = ({ c with seq := { c.seq with trap := c.trapImage cause addr, mode := .trapped, blocked := none } }, []) := by
  simp [Core.trap, Core.cancelAll, hr, ht]


theorem issue_halt {s : State} {p op b : Nat} {g : Guard} {body : Body} {d : Core} {out : List Packet}
    (hc : (s.core p).plain) (hb : b < 2 ^ 54) (hg : (s.core p).guarded g)
    (h : body s p (seqWord op g b) (s.core p) = .halt d out) (hr : d.seq.ra = none) :
    s.issue p op g b body = (s.setCore p { d with seq := { d.seq with blocked := none, haltReq := false } }).send out := by
  obtain ⟨hm, hr0, -, -, -⟩ := hc
  have hg' : guardTrue (s.core p) (seqWord op g b) = true := by rw [guardTrue_seqWord _ hb]; exact hg
  simp only [State.issue, hm, if_true, State.issueWord, hg', State.effect, Core.nextEntry, hr0, h, State.finishIssue, Core.cancelAll, hr]
  simp


theorem rel_in {pc off t : Nat} (h : t ≤ 4095) (e : (t : Int) = pc + sgn 16 off) : relTarget pc off = some t := by
  unfold relTarget
  rw [← e]
  simp [h]


theorem retire_seq (c d : Core) (h : d.seq = c.seq) : d.retire = .done d (c.seq.pc.toNat + 1) [] [] := by rw [Core.retire, h]

theorem flush_held {u : CoreUnits} {h : HeldSend} (he : u.held = [h]) (hf : h.free u = false) : u.flush = (u, []) := by
  have : u.held.filter (fun h => !h.free u) = u.held := by simp [he, hf]
  unfold CoreUnits.flush
  rw [this]
  simp [he, hf]
  rw [← he]

end Sys2Proof.Machine
end

