-- ==== Sys2Proof/Laws/Ops.lean ====
section
/-! SUPPORT. Laws of the shared operations on a core: replacing it, sending its packets, and waking it. -/

namespace Sys2Proof.Machine

theorem core_setCore (s : State) (p q : Nat) (c : Core) : (s.setCore p c).core q = if q = p then c else s.core q := by
  unfold State.core State.setCore; exact get_set _ _ _ _ _
theorem core_send (s : State) (q : Nat) (ks : List Packet) : (s.send ks).core q = s.core q := rfl
theorem wake_none {s : State} {p : Nat} (h : (s.core p).seq.blocked = none) : s.wake p = s := by
  unfold State.wake; rw [h]
theorem settle_plain {s : State} {p : Nat} {r : Core × List Packet} (h : r.1.seq.blocked = none) : s.settle p r = (s.setCore p r.1).send r.2 := by
  unfold State.settle
  rw [wake_none]
  rw [core_send, core_setCore, if_pos rfl]; exact h
theorem leave_plain {c : Core} {id : Nat} (h : c.units.held = []) : c.leave id = ({ c with units := { c.units with sb := sbRelease c.units.sb id } }, []) := by
  simp [Core.leave, CoreUnits.flush, h]
theorem store_plain {x : CoreSp} {a : Nat} {bs : List Byte} (h : x.errs = []) : x.store a bs = { x with mem := Memory.write x.mem a bs } := by
  simp [CoreSp.store, h]

theorem checkPred_none {s : State} {p : Nat} (h : (s.core p).seq.ra = none) : s.checkPredictions p = s := by
  unfold State.checkPredictions; simp only [h]


end Sys2Proof.Machine
end

