-- ==== Sys2Proof/Laws/State.lean ====
section
/-! SUPPORT. What the named updates of the state leave alone, one lemma per field per update, and what a unit reads as after an update of a unit. -/

namespace Sys2Proof.Machine

/-! ### State.setCore -/

@[simp] theorem setCore_pending (s : State) (p : Nat) (c : Core) : (s.setCore p c).pending = s.pending := (rfl)
@[simp] theorem setCore_tclk (s : State) (p : Nat) (c : Core) : (s.setCore p c).tclk = s.tclk := (rfl)
@[simp] theorem setCore_free (s : State) (p : Nat) (c : Core) : (s.setCore p c).free = s.free := (rfl)
@[simp] theorem setCore_nv (s : State) (p : Nat) (c : Core) : (s.setCore p c).nv = s.nv := (rfl)
@[simp] theorem setCore_pins (s : State) (p : Nat) (c : Core) : (s.setCore p c).pins = s.pins := (rfl)
@[simp] theorem setCore_map (s : State) (p : Nat) (c : Core) : (s.setCore p c).map = s.map := (rfl)
@[simp] theorem setCore_boot (s : State) (p : Nat) (c : Core) : (s.setCore p c).boot = s.boot := (rfl)
@[simp] theorem setCore_setts (s : State) (p : Nat) (c : Core) : (s.setCore p c).setts = s.setts := (rfl)
@[simp] theorem setCore_sumps (s : State) (p : Nat) (c : Core) : (s.setCore p c).sumps = s.sumps := (rfl)
@[simp] theorem setCore_gals (s : State) (p : Nat) (c : Core) : (s.setCore p c).gals = s.gals := (rfl)
@[simp] theorem setCore_flight (s : State) (p : Nat) (c : Core) : (s.setCore p c).flight = s.flight := (rfl)
@[simp] theorem setCore_mesh (s : State) (p : Nat) (c : Core) : (s.setCore p c).mesh = s.mesh := (rfl)
@[simp] theorem setCore_ledger (s : State) (p : Nat) (c : Core) : (s.setCore p c).ledger = s.ledger := (rfl)
@[simp] theorem setCore_sched (s : State) (p : Nat) (c : Core) : (s.setCore p c).sched = s.sched := (rfl)
@[simp] theorem setCore_ctxs (s : State) (p : Nat) (c : Core) : (s.setCore p c).ctxs = s.ctxs := (rfl)
@[simp] theorem setCore_dir (s : State) (p : Nat) (c : Core) : (s.setCore p c).dir = s.dir := (rfl)
@[simp] theorem setCore_fill (s : State) (p : Nat) (c : Core) : (s.setCore p c).fill = s.fill := (rfl)
@[simp] theorem setCore_drain (s : State) (p : Nat) (c : Core) : (s.setCore p c).drain = s.drain := (rfl)
@[simp] theorem setCore_timeSvc (s : State) (p : Nat) (c : Core) : (s.setCore p c).timeSvc = s.timeSvc := (rfl)
@[simp] theorem setCore_power (s : State) (p : Nat) (c : Core) : (s.setCore p c).power = s.power := (rfl)
@[simp] theorem setCore_thermal (s : State) (p : Nat) (c : Core) : (s.setCore p c).thermal = s.thermal := (rfl)
@[simp] theorem setCore_fw (s : State) (p : Nat) (c : Core) : (s.setCore p c).fw = s.fw := (rfl)
@[simp] theorem setCore_sec (s : State) (p : Nat) (c : Core) : (s.setCore p c).sec = s.sec := (rfl)
@[simp] theorem setCore_span (s : State) (p : Nat) (c : Core) : (s.setCore p c).span = s.span := (rfl)
@[simp] theorem setCore_host (s : State) (p : Nat) (c : Core) : (s.setCore p c).host = s.host := (rfl)
@[simp] theorem setCore_alert (s : State) (p : Nat) (c : Core) : (s.setCore p c).alert = s.alert := (rfl)
@[simp] theorem setCore_access (s : State) (p : Nat) (c : Core) : (s.setCore p c).access = s.access := (rfl)

/-! ### State.modCore -/

@[simp] theorem modCore_pending (s : State) (p : Nat) (f : Core → Core) : (s.modCore p f).pending = s.pending := (rfl)
@[simp] theorem modCore_tclk (s : State) (p : Nat) (f : Core → Core) : (s.modCore p f).tclk = s.tclk := (rfl)
@[simp] theorem modCore_free (s : State) (p : Nat) (f : Core → Core) : (s.modCore p f).free = s.free := (rfl)
@[simp] theorem modCore_nv (s : State) (p : Nat) (f : Core → Core) : (s.modCore p f).nv = s.nv := (rfl)
@[simp] theorem modCore_pins (s : State) (p : Nat) (f : Core → Core) : (s.modCore p f).pins = s.pins := (rfl)
@[simp] theorem modCore_map (s : State) (p : Nat) (f : Core → Core) : (s.modCore p f).map = s.map := (rfl)
@[simp] theorem modCore_boot (s : State) (p : Nat) (f : Core → Core) : (s.modCore p f).boot = s.boot := (rfl)
@[simp] theorem modCore_setts (s : State) (p : Nat) (f : Core → Core) : (s.modCore p f).setts = s.setts := (rfl)
@[simp] theorem modCore_sumps (s : State) (p : Nat) (f : Core → Core) : (s.modCore p f).sumps = s.sumps := (rfl)
@[simp] theorem modCore_gals (s : State) (p : Nat) (f : Core → Core) : (s.modCore p f).gals = s.gals := (rfl)
@[simp] theorem modCore_flight (s : State) (p : Nat) (f : Core → Core) : (s.modCore p f).flight = s.flight := (rfl)
@[simp] theorem modCore_mesh (s : State) (p : Nat) (f : Core → Core) : (s.modCore p f).mesh = s.mesh := (rfl)
@[simp] theorem modCore_ledger (s : State) (p : Nat) (f : Core → Core) : (s.modCore p f).ledger = s.ledger := (rfl)
@[simp] theorem modCore_sched (s : State) (p : Nat) (f : Core → Core) : (s.modCore p f).sched = s.sched := (rfl)
@[simp] theorem modCore_ctxs (s : State) (p : Nat) (f : Core → Core) : (s.modCore p f).ctxs = s.ctxs := (rfl)
@[simp] theorem modCore_dir (s : State) (p : Nat) (f : Core → Core) : (s.modCore p f).dir = s.dir := (rfl)
@[simp] theorem modCore_fill (s : State) (p : Nat) (f : Core → Core) : (s.modCore p f).fill = s.fill := (rfl)
@[simp] theorem modCore_drain (s : State) (p : Nat) (f : Core → Core) : (s.modCore p f).drain = s.drain := (rfl)
@[simp] theorem modCore_timeSvc (s : State) (p : Nat) (f : Core → Core) : (s.modCore p f).timeSvc = s.timeSvc := (rfl)
@[simp] theorem modCore_power (s : State) (p : Nat) (f : Core → Core) : (s.modCore p f).power = s.power := (rfl)
@[simp] theorem modCore_thermal (s : State) (p : Nat) (f : Core → Core) : (s.modCore p f).thermal = s.thermal := (rfl)
@[simp] theorem modCore_fw (s : State) (p : Nat) (f : Core → Core) : (s.modCore p f).fw = s.fw := (rfl)
@[simp] theorem modCore_sec (s : State) (p : Nat) (f : Core → Core) : (s.modCore p f).sec = s.sec := (rfl)
@[simp] theorem modCore_span (s : State) (p : Nat) (f : Core → Core) : (s.modCore p f).span = s.span := (rfl)
@[simp] theorem modCore_host (s : State) (p : Nat) (f : Core → Core) : (s.modCore p f).host = s.host := (rfl)
@[simp] theorem modCore_alert (s : State) (p : Nat) (f : Core → Core) : (s.modCore p f).alert = s.alert := (rfl)
@[simp] theorem modCore_access (s : State) (p : Nat) (f : Core → Core) : (s.modCore p f).access = s.access := (rfl)

/-! ### State.setSett -/

@[simp] theorem setSett_pending (s : State) (i : Nat) (x : Sett) : (s.setSett i x).pending = s.pending := (rfl)
@[simp] theorem setSett_tclk (s : State) (i : Nat) (x : Sett) : (s.setSett i x).tclk = s.tclk := (rfl)
@[simp] theorem setSett_free (s : State) (i : Nat) (x : Sett) : (s.setSett i x).free = s.free := (rfl)
@[simp] theorem setSett_nv (s : State) (i : Nat) (x : Sett) : (s.setSett i x).nv = s.nv := (rfl)
@[simp] theorem setSett_pins (s : State) (i : Nat) (x : Sett) : (s.setSett i x).pins = s.pins := (rfl)
@[simp] theorem setSett_map (s : State) (i : Nat) (x : Sett) : (s.setSett i x).map = s.map := (rfl)
@[simp] theorem setSett_boot (s : State) (i : Nat) (x : Sett) : (s.setSett i x).boot = s.boot := (rfl)
@[simp] theorem setSett_cores (s : State) (i : Nat) (x : Sett) : (s.setSett i x).cores = s.cores := (rfl)
@[simp] theorem setSett_sumps (s : State) (i : Nat) (x : Sett) : (s.setSett i x).sumps = s.sumps := (rfl)
@[simp] theorem setSett_gals (s : State) (i : Nat) (x : Sett) : (s.setSett i x).gals = s.gals := (rfl)
@[simp] theorem setSett_flight (s : State) (i : Nat) (x : Sett) : (s.setSett i x).flight = s.flight := (rfl)
@[simp] theorem setSett_mesh (s : State) (i : Nat) (x : Sett) : (s.setSett i x).mesh = s.mesh := (rfl)
@[simp] theorem setSett_ledger (s : State) (i : Nat) (x : Sett) : (s.setSett i x).ledger = s.ledger := (rfl)
@[simp] theorem setSett_sched (s : State) (i : Nat) (x : Sett) : (s.setSett i x).sched = s.sched := (rfl)
@[simp] theorem setSett_ctxs (s : State) (i : Nat) (x : Sett) : (s.setSett i x).ctxs = s.ctxs := (rfl)
@[simp] theorem setSett_dir (s : State) (i : Nat) (x : Sett) : (s.setSett i x).dir = s.dir := (rfl)
@[simp] theorem setSett_fill (s : State) (i : Nat) (x : Sett) : (s.setSett i x).fill = s.fill := (rfl)
@[simp] theorem setSett_drain (s : State) (i : Nat) (x : Sett) : (s.setSett i x).drain = s.drain := (rfl)
@[simp] theorem setSett_timeSvc (s : State) (i : Nat) (x : Sett) : (s.setSett i x).timeSvc = s.timeSvc := (rfl)
@[simp] theorem setSett_power (s : State) (i : Nat) (x : Sett) : (s.setSett i x).power = s.power := (rfl)
@[simp] theorem setSett_thermal (s : State) (i : Nat) (x : Sett) : (s.setSett i x).thermal = s.thermal := (rfl)
@[simp] theorem setSett_fw (s : State) (i : Nat) (x : Sett) : (s.setSett i x).fw = s.fw := (rfl)
@[simp] theorem setSett_sec (s : State) (i : Nat) (x : Sett) : (s.setSett i x).sec = s.sec := (rfl)
@[simp] theorem setSett_span (s : State) (i : Nat) (x : Sett) : (s.setSett i x).span = s.span := (rfl)
@[simp] theorem setSett_host (s : State) (i : Nat) (x : Sett) : (s.setSett i x).host = s.host := (rfl)
@[simp] theorem setSett_alert (s : State) (i : Nat) (x : Sett) : (s.setSett i x).alert = s.alert := (rfl)
@[simp] theorem setSett_access (s : State) (i : Nat) (x : Sett) : (s.setSett i x).access = s.access := (rfl)

/-! ### State.modSett -/

@[simp] theorem modSett_pending (s : State) (i : Nat) (f : Sett → Sett) : (s.modSett i f).pending = s.pending := (rfl)
@[simp] theorem modSett_tclk (s : State) (i : Nat) (f : Sett → Sett) : (s.modSett i f).tclk = s.tclk := (rfl)
@[simp] theorem modSett_free (s : State) (i : Nat) (f : Sett → Sett) : (s.modSett i f).free = s.free := (rfl)
@[simp] theorem modSett_nv (s : State) (i : Nat) (f : Sett → Sett) : (s.modSett i f).nv = s.nv := (rfl)
@[simp] theorem modSett_pins (s : State) (i : Nat) (f : Sett → Sett) : (s.modSett i f).pins = s.pins := (rfl)
@[simp] theorem modSett_map (s : State) (i : Nat) (f : Sett → Sett) : (s.modSett i f).map = s.map := (rfl)
@[simp] theorem modSett_boot (s : State) (i : Nat) (f : Sett → Sett) : (s.modSett i f).boot = s.boot := (rfl)
@[simp] theorem modSett_cores (s : State) (i : Nat) (f : Sett → Sett) : (s.modSett i f).cores = s.cores := (rfl)
@[simp] theorem modSett_sumps (s : State) (i : Nat) (f : Sett → Sett) : (s.modSett i f).sumps = s.sumps := (rfl)
@[simp] theorem modSett_gals (s : State) (i : Nat) (f : Sett → Sett) : (s.modSett i f).gals = s.gals := (rfl)
@[simp] theorem modSett_flight (s : State) (i : Nat) (f : Sett → Sett) : (s.modSett i f).flight = s.flight := (rfl)
@[simp] theorem modSett_mesh (s : State) (i : Nat) (f : Sett → Sett) : (s.modSett i f).mesh = s.mesh := (rfl)
@[simp] theorem modSett_ledger (s : State) (i : Nat) (f : Sett → Sett) : (s.modSett i f).ledger = s.ledger := (rfl)
@[simp] theorem modSett_sched (s : State) (i : Nat) (f : Sett → Sett) : (s.modSett i f).sched = s.sched := (rfl)
@[simp] theorem modSett_ctxs (s : State) (i : Nat) (f : Sett → Sett) : (s.modSett i f).ctxs = s.ctxs := (rfl)
@[simp] theorem modSett_dir (s : State) (i : Nat) (f : Sett → Sett) : (s.modSett i f).dir = s.dir := (rfl)
@[simp] theorem modSett_fill (s : State) (i : Nat) (f : Sett → Sett) : (s.modSett i f).fill = s.fill := (rfl)
@[simp] theorem modSett_drain (s : State) (i : Nat) (f : Sett → Sett) : (s.modSett i f).drain = s.drain := (rfl)
@[simp] theorem modSett_timeSvc (s : State) (i : Nat) (f : Sett → Sett) : (s.modSett i f).timeSvc = s.timeSvc := (rfl)
@[simp] theorem modSett_power (s : State) (i : Nat) (f : Sett → Sett) : (s.modSett i f).power = s.power := (rfl)
@[simp] theorem modSett_thermal (s : State) (i : Nat) (f : Sett → Sett) : (s.modSett i f).thermal = s.thermal := (rfl)
@[simp] theorem modSett_fw (s : State) (i : Nat) (f : Sett → Sett) : (s.modSett i f).fw = s.fw := (rfl)
@[simp] theorem modSett_sec (s : State) (i : Nat) (f : Sett → Sett) : (s.modSett i f).sec = s.sec := (rfl)
@[simp] theorem modSett_span (s : State) (i : Nat) (f : Sett → Sett) : (s.modSett i f).span = s.span := (rfl)
@[simp] theorem modSett_host (s : State) (i : Nat) (f : Sett → Sett) : (s.modSett i f).host = s.host := (rfl)
@[simp] theorem modSett_alert (s : State) (i : Nat) (f : Sett → Sett) : (s.modSett i f).alert = s.alert := (rfl)
@[simp] theorem modSett_access (s : State) (i : Nat) (f : Sett → Sett) : (s.modSett i f).access = s.access := (rfl)

/-! ### State.setSump -/

@[simp] theorem setSump_pending (s : State) (i : Nat) (x : Sump) : (s.setSump i x).pending = s.pending := (rfl)
@[simp] theorem setSump_tclk (s : State) (i : Nat) (x : Sump) : (s.setSump i x).tclk = s.tclk := (rfl)
@[simp] theorem setSump_free (s : State) (i : Nat) (x : Sump) : (s.setSump i x).free = s.free := (rfl)
@[simp] theorem setSump_nv (s : State) (i : Nat) (x : Sump) : (s.setSump i x).nv = s.nv := (rfl)
@[simp] theorem setSump_pins (s : State) (i : Nat) (x : Sump) : (s.setSump i x).pins = s.pins := (rfl)
@[simp] theorem setSump_map (s : State) (i : Nat) (x : Sump) : (s.setSump i x).map = s.map := (rfl)
@[simp] theorem setSump_boot (s : State) (i : Nat) (x : Sump) : (s.setSump i x).boot = s.boot := (rfl)
@[simp] theorem setSump_cores (s : State) (i : Nat) (x : Sump) : (s.setSump i x).cores = s.cores := (rfl)
@[simp] theorem setSump_setts (s : State) (i : Nat) (x : Sump) : (s.setSump i x).setts = s.setts := (rfl)
@[simp] theorem setSump_gals (s : State) (i : Nat) (x : Sump) : (s.setSump i x).gals = s.gals := (rfl)
@[simp] theorem setSump_flight (s : State) (i : Nat) (x : Sump) : (s.setSump i x).flight = s.flight := (rfl)
@[simp] theorem setSump_mesh (s : State) (i : Nat) (x : Sump) : (s.setSump i x).mesh = s.mesh := (rfl)
@[simp] theorem setSump_ledger (s : State) (i : Nat) (x : Sump) : (s.setSump i x).ledger = s.ledger := (rfl)
@[simp] theorem setSump_sched (s : State) (i : Nat) (x : Sump) : (s.setSump i x).sched = s.sched := (rfl)
@[simp] theorem setSump_ctxs (s : State) (i : Nat) (x : Sump) : (s.setSump i x).ctxs = s.ctxs := (rfl)
@[simp] theorem setSump_dir (s : State) (i : Nat) (x : Sump) : (s.setSump i x).dir = s.dir := (rfl)
@[simp] theorem setSump_fill (s : State) (i : Nat) (x : Sump) : (s.setSump i x).fill = s.fill := (rfl)
@[simp] theorem setSump_drain (s : State) (i : Nat) (x : Sump) : (s.setSump i x).drain = s.drain := (rfl)
@[simp] theorem setSump_timeSvc (s : State) (i : Nat) (x : Sump) : (s.setSump i x).timeSvc = s.timeSvc := (rfl)
@[simp] theorem setSump_power (s : State) (i : Nat) (x : Sump) : (s.setSump i x).power = s.power := (rfl)
@[simp] theorem setSump_thermal (s : State) (i : Nat) (x : Sump) : (s.setSump i x).thermal = s.thermal := (rfl)
@[simp] theorem setSump_fw (s : State) (i : Nat) (x : Sump) : (s.setSump i x).fw = s.fw := (rfl)
@[simp] theorem setSump_sec (s : State) (i : Nat) (x : Sump) : (s.setSump i x).sec = s.sec := (rfl)
@[simp] theorem setSump_span (s : State) (i : Nat) (x : Sump) : (s.setSump i x).span = s.span := (rfl)
@[simp] theorem setSump_host (s : State) (i : Nat) (x : Sump) : (s.setSump i x).host = s.host := (rfl)
@[simp] theorem setSump_alert (s : State) (i : Nat) (x : Sump) : (s.setSump i x).alert = s.alert := (rfl)
@[simp] theorem setSump_access (s : State) (i : Nat) (x : Sump) : (s.setSump i x).access = s.access := (rfl)

/-! ### State.modSump -/

@[simp] theorem modSump_pending (s : State) (i : Nat) (f : Sump → Sump) : (s.modSump i f).pending = s.pending := (rfl)
@[simp] theorem modSump_tclk (s : State) (i : Nat) (f : Sump → Sump) : (s.modSump i f).tclk = s.tclk := (rfl)
@[simp] theorem modSump_free (s : State) (i : Nat) (f : Sump → Sump) : (s.modSump i f).free = s.free := (rfl)
@[simp] theorem modSump_nv (s : State) (i : Nat) (f : Sump → Sump) : (s.modSump i f).nv = s.nv := (rfl)
@[simp] theorem modSump_pins (s : State) (i : Nat) (f : Sump → Sump) : (s.modSump i f).pins = s.pins := (rfl)
@[simp] theorem modSump_map (s : State) (i : Nat) (f : Sump → Sump) : (s.modSump i f).map = s.map := (rfl)
@[simp] theorem modSump_boot (s : State) (i : Nat) (f : Sump → Sump) : (s.modSump i f).boot = s.boot := (rfl)
@[simp] theorem modSump_cores (s : State) (i : Nat) (f : Sump → Sump) : (s.modSump i f).cores = s.cores := (rfl)
@[simp] theorem modSump_setts (s : State) (i : Nat) (f : Sump → Sump) : (s.modSump i f).setts = s.setts := (rfl)
@[simp] theorem modSump_gals (s : State) (i : Nat) (f : Sump → Sump) : (s.modSump i f).gals = s.gals := (rfl)
@[simp] theorem modSump_flight (s : State) (i : Nat) (f : Sump → Sump) : (s.modSump i f).flight = s.flight := (rfl)
@[simp] theorem modSump_mesh (s : State) (i : Nat) (f : Sump → Sump) : (s.modSump i f).mesh = s.mesh := (rfl)
@[simp] theorem modSump_ledger (s : State) (i : Nat) (f : Sump → Sump) : (s.modSump i f).ledger = s.ledger := (rfl)
@[simp] theorem modSump_sched (s : State) (i : Nat) (f : Sump → Sump) : (s.modSump i f).sched = s.sched := (rfl)
@[simp] theorem modSump_ctxs (s : State) (i : Nat) (f : Sump → Sump) : (s.modSump i f).ctxs = s.ctxs := (rfl)
@[simp] theorem modSump_dir (s : State) (i : Nat) (f : Sump → Sump) : (s.modSump i f).dir = s.dir := (rfl)
@[simp] theorem modSump_fill (s : State) (i : Nat) (f : Sump → Sump) : (s.modSump i f).fill = s.fill := (rfl)
@[simp] theorem modSump_drain (s : State) (i : Nat) (f : Sump → Sump) : (s.modSump i f).drain = s.drain := (rfl)
@[simp] theorem modSump_timeSvc (s : State) (i : Nat) (f : Sump → Sump) : (s.modSump i f).timeSvc = s.timeSvc := (rfl)
@[simp] theorem modSump_power (s : State) (i : Nat) (f : Sump → Sump) : (s.modSump i f).power = s.power := (rfl)
@[simp] theorem modSump_thermal (s : State) (i : Nat) (f : Sump → Sump) : (s.modSump i f).thermal = s.thermal := (rfl)
@[simp] theorem modSump_fw (s : State) (i : Nat) (f : Sump → Sump) : (s.modSump i f).fw = s.fw := (rfl)
@[simp] theorem modSump_sec (s : State) (i : Nat) (f : Sump → Sump) : (s.modSump i f).sec = s.sec := (rfl)
@[simp] theorem modSump_span (s : State) (i : Nat) (f : Sump → Sump) : (s.modSump i f).span = s.span := (rfl)
@[simp] theorem modSump_host (s : State) (i : Nat) (f : Sump → Sump) : (s.modSump i f).host = s.host := (rfl)
@[simp] theorem modSump_alert (s : State) (i : Nat) (f : Sump → Sump) : (s.modSump i f).alert = s.alert := (rfl)
@[simp] theorem modSump_access (s : State) (i : Nat) (f : Sump → Sump) : (s.modSump i f).access = s.access := (rfl)

/-! ### State.setGal -/

@[simp] theorem setGal_pending (s : State) (i : Nat) (x : Gallery) : (s.setGal i x).pending = s.pending := (rfl)
@[simp] theorem setGal_tclk (s : State) (i : Nat) (x : Gallery) : (s.setGal i x).tclk = s.tclk := (rfl)
@[simp] theorem setGal_free (s : State) (i : Nat) (x : Gallery) : (s.setGal i x).free = s.free := (rfl)
@[simp] theorem setGal_nv (s : State) (i : Nat) (x : Gallery) : (s.setGal i x).nv = s.nv := (rfl)
@[simp] theorem setGal_pins (s : State) (i : Nat) (x : Gallery) : (s.setGal i x).pins = s.pins := (rfl)
@[simp] theorem setGal_map (s : State) (i : Nat) (x : Gallery) : (s.setGal i x).map = s.map := (rfl)
@[simp] theorem setGal_boot (s : State) (i : Nat) (x : Gallery) : (s.setGal i x).boot = s.boot := (rfl)
@[simp] theorem setGal_cores (s : State) (i : Nat) (x : Gallery) : (s.setGal i x).cores = s.cores := (rfl)
@[simp] theorem setGal_setts (s : State) (i : Nat) (x : Gallery) : (s.setGal i x).setts = s.setts := (rfl)
@[simp] theorem setGal_sumps (s : State) (i : Nat) (x : Gallery) : (s.setGal i x).sumps = s.sumps := (rfl)
@[simp] theorem setGal_flight (s : State) (i : Nat) (x : Gallery) : (s.setGal i x).flight = s.flight := (rfl)
@[simp] theorem setGal_mesh (s : State) (i : Nat) (x : Gallery) : (s.setGal i x).mesh = s.mesh := (rfl)
@[simp] theorem setGal_ledger (s : State) (i : Nat) (x : Gallery) : (s.setGal i x).ledger = s.ledger := (rfl)
@[simp] theorem setGal_sched (s : State) (i : Nat) (x : Gallery) : (s.setGal i x).sched = s.sched := (rfl)
@[simp] theorem setGal_ctxs (s : State) (i : Nat) (x : Gallery) : (s.setGal i x).ctxs = s.ctxs := (rfl)
@[simp] theorem setGal_dir (s : State) (i : Nat) (x : Gallery) : (s.setGal i x).dir = s.dir := (rfl)
@[simp] theorem setGal_fill (s : State) (i : Nat) (x : Gallery) : (s.setGal i x).fill = s.fill := (rfl)
@[simp] theorem setGal_drain (s : State) (i : Nat) (x : Gallery) : (s.setGal i x).drain = s.drain := (rfl)
@[simp] theorem setGal_timeSvc (s : State) (i : Nat) (x : Gallery) : (s.setGal i x).timeSvc = s.timeSvc := (rfl)
@[simp] theorem setGal_power (s : State) (i : Nat) (x : Gallery) : (s.setGal i x).power = s.power := (rfl)
@[simp] theorem setGal_thermal (s : State) (i : Nat) (x : Gallery) : (s.setGal i x).thermal = s.thermal := (rfl)
@[simp] theorem setGal_fw (s : State) (i : Nat) (x : Gallery) : (s.setGal i x).fw = s.fw := (rfl)
@[simp] theorem setGal_sec (s : State) (i : Nat) (x : Gallery) : (s.setGal i x).sec = s.sec := (rfl)
@[simp] theorem setGal_span (s : State) (i : Nat) (x : Gallery) : (s.setGal i x).span = s.span := (rfl)
@[simp] theorem setGal_host (s : State) (i : Nat) (x : Gallery) : (s.setGal i x).host = s.host := (rfl)
@[simp] theorem setGal_alert (s : State) (i : Nat) (x : Gallery) : (s.setGal i x).alert = s.alert := (rfl)
@[simp] theorem setGal_access (s : State) (i : Nat) (x : Gallery) : (s.setGal i x).access = s.access := (rfl)

/-! ### State.modGal -/

@[simp] theorem modGal_pending (s : State) (i : Nat) (f : Gallery → Gallery) : (s.modGal i f).pending = s.pending := (rfl)
@[simp] theorem modGal_tclk (s : State) (i : Nat) (f : Gallery → Gallery) : (s.modGal i f).tclk = s.tclk := (rfl)
@[simp] theorem modGal_free (s : State) (i : Nat) (f : Gallery → Gallery) : (s.modGal i f).free = s.free := (rfl)
@[simp] theorem modGal_nv (s : State) (i : Nat) (f : Gallery → Gallery) : (s.modGal i f).nv = s.nv := (rfl)
@[simp] theorem modGal_pins (s : State) (i : Nat) (f : Gallery → Gallery) : (s.modGal i f).pins = s.pins := (rfl)
@[simp] theorem modGal_map (s : State) (i : Nat) (f : Gallery → Gallery) : (s.modGal i f).map = s.map := (rfl)
@[simp] theorem modGal_boot (s : State) (i : Nat) (f : Gallery → Gallery) : (s.modGal i f).boot = s.boot := (rfl)
@[simp] theorem modGal_cores (s : State) (i : Nat) (f : Gallery → Gallery) : (s.modGal i f).cores = s.cores := (rfl)
@[simp] theorem modGal_setts (s : State) (i : Nat) (f : Gallery → Gallery) : (s.modGal i f).setts = s.setts := (rfl)
@[simp] theorem modGal_sumps (s : State) (i : Nat) (f : Gallery → Gallery) : (s.modGal i f).sumps = s.sumps := (rfl)
@[simp] theorem modGal_flight (s : State) (i : Nat) (f : Gallery → Gallery) : (s.modGal i f).flight = s.flight := (rfl)
@[simp] theorem modGal_mesh (s : State) (i : Nat) (f : Gallery → Gallery) : (s.modGal i f).mesh = s.mesh := (rfl)
@[simp] theorem modGal_ledger (s : State) (i : Nat) (f : Gallery → Gallery) : (s.modGal i f).ledger = s.ledger := (rfl)
@[simp] theorem modGal_sched (s : State) (i : Nat) (f : Gallery → Gallery) : (s.modGal i f).sched = s.sched := (rfl)
@[simp] theorem modGal_ctxs (s : State) (i : Nat) (f : Gallery → Gallery) : (s.modGal i f).ctxs = s.ctxs := (rfl)
@[simp] theorem modGal_dir (s : State) (i : Nat) (f : Gallery → Gallery) : (s.modGal i f).dir = s.dir := (rfl)
@[simp] theorem modGal_fill (s : State) (i : Nat) (f : Gallery → Gallery) : (s.modGal i f).fill = s.fill := (rfl)
@[simp] theorem modGal_drain (s : State) (i : Nat) (f : Gallery → Gallery) : (s.modGal i f).drain = s.drain := (rfl)
@[simp] theorem modGal_timeSvc (s : State) (i : Nat) (f : Gallery → Gallery) : (s.modGal i f).timeSvc = s.timeSvc := (rfl)
@[simp] theorem modGal_power (s : State) (i : Nat) (f : Gallery → Gallery) : (s.modGal i f).power = s.power := (rfl)
@[simp] theorem modGal_thermal (s : State) (i : Nat) (f : Gallery → Gallery) : (s.modGal i f).thermal = s.thermal := (rfl)
@[simp] theorem modGal_fw (s : State) (i : Nat) (f : Gallery → Gallery) : (s.modGal i f).fw = s.fw := (rfl)
@[simp] theorem modGal_sec (s : State) (i : Nat) (f : Gallery → Gallery) : (s.modGal i f).sec = s.sec := (rfl)
@[simp] theorem modGal_span (s : State) (i : Nat) (f : Gallery → Gallery) : (s.modGal i f).span = s.span := (rfl)
@[simp] theorem modGal_host (s : State) (i : Nat) (f : Gallery → Gallery) : (s.modGal i f).host = s.host := (rfl)
@[simp] theorem modGal_alert (s : State) (i : Nat) (f : Gallery → Gallery) : (s.modGal i f).alert = s.alert := (rfl)
@[simp] theorem modGal_access (s : State) (i : Nat) (f : Gallery → Gallery) : (s.modGal i f).access = s.access := (rfl)

/-! ### State.edge -/

@[simp] theorem edge_pending (s : State) (g n : Nat) : (s.edge g n).pending = s.pending := (rfl)
@[simp] theorem edge_tclk (s : State) (g n : Nat) : (s.edge g n).tclk = s.tclk := (rfl)
@[simp] theorem edge_free (s : State) (g n : Nat) : (s.edge g n).free = s.free := (rfl)
@[simp] theorem edge_nv (s : State) (g n : Nat) : (s.edge g n).nv = s.nv := (rfl)
@[simp] theorem edge_pins (s : State) (g n : Nat) : (s.edge g n).pins = s.pins := (rfl)
@[simp] theorem edge_map (s : State) (g n : Nat) : (s.edge g n).map = s.map := (rfl)
@[simp] theorem edge_boot (s : State) (g n : Nat) : (s.edge g n).boot = s.boot := (rfl)
@[simp] theorem edge_cores (s : State) (g n : Nat) : (s.edge g n).cores = s.cores := (rfl)
@[simp] theorem edge_setts (s : State) (g n : Nat) : (s.edge g n).setts = s.setts := (rfl)
@[simp] theorem edge_sumps (s : State) (g n : Nat) : (s.edge g n).sumps = s.sumps := (rfl)
@[simp] theorem edge_flight (s : State) (g n : Nat) : (s.edge g n).flight = s.flight := (rfl)
@[simp] theorem edge_mesh (s : State) (g n : Nat) : (s.edge g n).mesh = s.mesh := (rfl)
@[simp] theorem edge_ledger (s : State) (g n : Nat) : (s.edge g n).ledger = s.ledger := (rfl)
@[simp] theorem edge_sched (s : State) (g n : Nat) : (s.edge g n).sched = s.sched := (rfl)
@[simp] theorem edge_ctxs (s : State) (g n : Nat) : (s.edge g n).ctxs = s.ctxs := (rfl)
@[simp] theorem edge_dir (s : State) (g n : Nat) : (s.edge g n).dir = s.dir := (rfl)
@[simp] theorem edge_fill (s : State) (g n : Nat) : (s.edge g n).fill = s.fill := (rfl)
@[simp] theorem edge_drain (s : State) (g n : Nat) : (s.edge g n).drain = s.drain := (rfl)
@[simp] theorem edge_timeSvc (s : State) (g n : Nat) : (s.edge g n).timeSvc = s.timeSvc := (rfl)
@[simp] theorem edge_power (s : State) (g n : Nat) : (s.edge g n).power = s.power := (rfl)
@[simp] theorem edge_thermal (s : State) (g n : Nat) : (s.edge g n).thermal = s.thermal := (rfl)
@[simp] theorem edge_fw (s : State) (g n : Nat) : (s.edge g n).fw = s.fw := (rfl)
@[simp] theorem edge_sec (s : State) (g n : Nat) : (s.edge g n).sec = s.sec := (rfl)
@[simp] theorem edge_span (s : State) (g n : Nat) : (s.edge g n).span = s.span := (rfl)
@[simp] theorem edge_host (s : State) (g n : Nat) : (s.edge g n).host = s.host := (rfl)
@[simp] theorem edge_alert (s : State) (g n : Nat) : (s.edge g n).alert = s.alert := (rfl)
@[simp] theorem edge_access (s : State) (g n : Nat) : (s.edge g n).access = s.access := (rfl)

/-! ### State.pass -/

@[simp] theorem pass_pending (s : State) (dt : Nat) : (s.pass dt).pending = s.pending := (rfl)
@[simp] theorem pass_free (s : State) (dt : Nat) : (s.pass dt).free = s.free := (rfl)
@[simp] theorem pass_nv (s : State) (dt : Nat) : (s.pass dt).nv = s.nv := (rfl)
@[simp] theorem pass_pins (s : State) (dt : Nat) : (s.pass dt).pins = s.pins := (rfl)
@[simp] theorem pass_map (s : State) (dt : Nat) : (s.pass dt).map = s.map := (rfl)
@[simp] theorem pass_boot (s : State) (dt : Nat) : (s.pass dt).boot = s.boot := (rfl)
@[simp] theorem pass_cores (s : State) (dt : Nat) : (s.pass dt).cores = s.cores := (rfl)
@[simp] theorem pass_setts (s : State) (dt : Nat) : (s.pass dt).setts = s.setts := (rfl)
@[simp] theorem pass_sumps (s : State) (dt : Nat) : (s.pass dt).sumps = s.sumps := (rfl)
@[simp] theorem pass_gals (s : State) (dt : Nat) : (s.pass dt).gals = s.gals := (rfl)
@[simp] theorem pass_flight (s : State) (dt : Nat) : (s.pass dt).flight = s.flight := (rfl)
@[simp] theorem pass_mesh (s : State) (dt : Nat) : (s.pass dt).mesh = s.mesh := (rfl)
@[simp] theorem pass_ledger (s : State) (dt : Nat) : (s.pass dt).ledger = s.ledger := (rfl)
@[simp] theorem pass_sched (s : State) (dt : Nat) : (s.pass dt).sched = s.sched := (rfl)
@[simp] theorem pass_ctxs (s : State) (dt : Nat) : (s.pass dt).ctxs = s.ctxs := (rfl)
@[simp] theorem pass_dir (s : State) (dt : Nat) : (s.pass dt).dir = s.dir := (rfl)
@[simp] theorem pass_fill (s : State) (dt : Nat) : (s.pass dt).fill = s.fill := (rfl)
@[simp] theorem pass_drain (s : State) (dt : Nat) : (s.pass dt).drain = s.drain := (rfl)
@[simp] theorem pass_timeSvc (s : State) (dt : Nat) : (s.pass dt).timeSvc = s.timeSvc := (rfl)
@[simp] theorem pass_power (s : State) (dt : Nat) : (s.pass dt).power = s.power := (rfl)
@[simp] theorem pass_thermal (s : State) (dt : Nat) : (s.pass dt).thermal = s.thermal := (rfl)
@[simp] theorem pass_fw (s : State) (dt : Nat) : (s.pass dt).fw = s.fw := (rfl)
@[simp] theorem pass_sec (s : State) (dt : Nat) : (s.pass dt).sec = s.sec := (rfl)
@[simp] theorem pass_span (s : State) (dt : Nat) : (s.pass dt).span = s.span := (rfl)
@[simp] theorem pass_host (s : State) (dt : Nat) : (s.pass dt).host = s.host := (rfl)
@[simp] theorem pass_alert (s : State) (dt : Nat) : (s.pass dt).alert = s.alert := (rfl)
@[simp] theorem pass_access (s : State) (dt : Nat) : (s.pass dt).access = s.access := (rfl)

/-! ### State.take -/

@[simp] theorem take_pending (s : State) (k : Packet) : (s.take k).pending = s.pending := (rfl)
@[simp] theorem take_tclk (s : State) (k : Packet) : (s.take k).tclk = s.tclk := (rfl)
@[simp] theorem take_free (s : State) (k : Packet) : (s.take k).free = s.free := (rfl)
@[simp] theorem take_nv (s : State) (k : Packet) : (s.take k).nv = s.nv := (rfl)
@[simp] theorem take_pins (s : State) (k : Packet) : (s.take k).pins = s.pins := (rfl)
@[simp] theorem take_map (s : State) (k : Packet) : (s.take k).map = s.map := (rfl)
@[simp] theorem take_boot (s : State) (k : Packet) : (s.take k).boot = s.boot := (rfl)
@[simp] theorem take_cores (s : State) (k : Packet) : (s.take k).cores = s.cores := (rfl)
@[simp] theorem take_setts (s : State) (k : Packet) : (s.take k).setts = s.setts := (rfl)
@[simp] theorem take_sumps (s : State) (k : Packet) : (s.take k).sumps = s.sumps := (rfl)
@[simp] theorem take_gals (s : State) (k : Packet) : (s.take k).gals = s.gals := (rfl)
@[simp] theorem take_mesh (s : State) (k : Packet) : (s.take k).mesh = s.mesh := (rfl)
@[simp] theorem take_ledger (s : State) (k : Packet) : (s.take k).ledger = s.ledger := (rfl)
@[simp] theorem take_sched (s : State) (k : Packet) : (s.take k).sched = s.sched := (rfl)
@[simp] theorem take_ctxs (s : State) (k : Packet) : (s.take k).ctxs = s.ctxs := (rfl)
@[simp] theorem take_dir (s : State) (k : Packet) : (s.take k).dir = s.dir := (rfl)
@[simp] theorem take_fill (s : State) (k : Packet) : (s.take k).fill = s.fill := (rfl)
@[simp] theorem take_drain (s : State) (k : Packet) : (s.take k).drain = s.drain := (rfl)
@[simp] theorem take_timeSvc (s : State) (k : Packet) : (s.take k).timeSvc = s.timeSvc := (rfl)
@[simp] theorem take_power (s : State) (k : Packet) : (s.take k).power = s.power := (rfl)
@[simp] theorem take_thermal (s : State) (k : Packet) : (s.take k).thermal = s.thermal := (rfl)
@[simp] theorem take_fw (s : State) (k : Packet) : (s.take k).fw = s.fw := (rfl)
@[simp] theorem take_sec (s : State) (k : Packet) : (s.take k).sec = s.sec := (rfl)
@[simp] theorem take_span (s : State) (k : Packet) : (s.take k).span = s.span := (rfl)
@[simp] theorem take_host (s : State) (k : Packet) : (s.take k).host = s.host := (rfl)
@[simp] theorem take_alert (s : State) (k : Packet) : (s.take k).alert = s.alert := (rfl)
@[simp] theorem take_access (s : State) (k : Packet) : (s.take k).access = s.access := (rfl)

/-! ### State.modIsland -/

@[simp] theorem modIsland_pending (s : State) (n : Node) (f : Island → Island) : (s.modIsland n f).pending = s.pending := by cases n <;> exact (rfl)
@[simp] theorem modIsland_tclk (s : State) (n : Node) (f : Island → Island) : (s.modIsland n f).tclk = s.tclk := by cases n <;> exact (rfl)
@[simp] theorem modIsland_free (s : State) (n : Node) (f : Island → Island) : (s.modIsland n f).free = s.free := by cases n <;> exact (rfl)
@[simp] theorem modIsland_nv (s : State) (n : Node) (f : Island → Island) : (s.modIsland n f).nv = s.nv := by cases n <;> exact (rfl)
@[simp] theorem modIsland_pins (s : State) (n : Node) (f : Island → Island) : (s.modIsland n f).pins = s.pins := by cases n <;> exact (rfl)
@[simp] theorem modIsland_map (s : State) (n : Node) (f : Island → Island) : (s.modIsland n f).map = s.map := by cases n <;> exact (rfl)
@[simp] theorem modIsland_boot (s : State) (n : Node) (f : Island → Island) : (s.modIsland n f).boot = s.boot := by cases n <;> exact (rfl)
@[simp] theorem modIsland_cores (s : State) (n : Node) (f : Island → Island) : (s.modIsland n f).cores = s.cores := by cases n <;> exact (rfl)
@[simp] theorem modIsland_flight (s : State) (n : Node) (f : Island → Island) : (s.modIsland n f).flight = s.flight := by cases n <;> exact (rfl)
@[simp] theorem modIsland_mesh (s : State) (n : Node) (f : Island → Island) : (s.modIsland n f).mesh = s.mesh := by cases n <;> exact (rfl)
@[simp] theorem modIsland_ledger (s : State) (n : Node) (f : Island → Island) : (s.modIsland n f).ledger = s.ledger := by cases n <;> exact (rfl)
@[simp] theorem modIsland_sched (s : State) (n : Node) (f : Island → Island) : (s.modIsland n f).sched = s.sched := by cases n <;> exact (rfl)
@[simp] theorem modIsland_ctxs (s : State) (n : Node) (f : Island → Island) : (s.modIsland n f).ctxs = s.ctxs := by cases n <;> exact (rfl)
@[simp] theorem modIsland_dir (s : State) (n : Node) (f : Island → Island) : (s.modIsland n f).dir = s.dir := by cases n <;> exact (rfl)
@[simp] theorem modIsland_fill (s : State) (n : Node) (f : Island → Island) : (s.modIsland n f).fill = s.fill := by cases n <;> exact (rfl)
@[simp] theorem modIsland_drain (s : State) (n : Node) (f : Island → Island) : (s.modIsland n f).drain = s.drain := by cases n <;> exact (rfl)
@[simp] theorem modIsland_timeSvc (s : State) (n : Node) (f : Island → Island) : (s.modIsland n f).timeSvc = s.timeSvc := by cases n <;> exact (rfl)
@[simp] theorem modIsland_power (s : State) (n : Node) (f : Island → Island) : (s.modIsland n f).power = s.power := by cases n <;> exact (rfl)
@[simp] theorem modIsland_thermal (s : State) (n : Node) (f : Island → Island) : (s.modIsland n f).thermal = s.thermal := by cases n <;> exact (rfl)
@[simp] theorem modIsland_fw (s : State) (n : Node) (f : Island → Island) : (s.modIsland n f).fw = s.fw := by cases n <;> exact (rfl)
@[simp] theorem modIsland_sec (s : State) (n : Node) (f : Island → Island) : (s.modIsland n f).sec = s.sec := by cases n <;> exact (rfl)
@[simp] theorem modIsland_span (s : State) (n : Node) (f : Island → Island) : (s.modIsland n f).span = s.span := by cases n <;> exact (rfl)
@[simp] theorem modIsland_host (s : State) (n : Node) (f : Island → Island) : (s.modIsland n f).host = s.host := by cases n <;> exact (rfl)
@[simp] theorem modIsland_alert (s : State) (n : Node) (f : Island → Island) : (s.modIsland n f).alert = s.alert := by cases n <;> exact (rfl)
@[simp] theorem modIsland_access (s : State) (n : Node) (f : Island → Island) : (s.modIsland n f).access = s.access := by cases n <;> exact (rfl)

/-! ### State.modRouter -/

@[simp] theorem modRouter_pending (s : State) (n : Node) (f : Router → Router) : (s.modRouter n f).pending = s.pending := by cases n <;> exact (rfl)
@[simp] theorem modRouter_tclk (s : State) (n : Node) (f : Router → Router) : (s.modRouter n f).tclk = s.tclk := by cases n <;> exact (rfl)
@[simp] theorem modRouter_free (s : State) (n : Node) (f : Router → Router) : (s.modRouter n f).free = s.free := by cases n <;> exact (rfl)
@[simp] theorem modRouter_nv (s : State) (n : Node) (f : Router → Router) : (s.modRouter n f).nv = s.nv := by cases n <;> exact (rfl)
@[simp] theorem modRouter_pins (s : State) (n : Node) (f : Router → Router) : (s.modRouter n f).pins = s.pins := by cases n <;> exact (rfl)
@[simp] theorem modRouter_map (s : State) (n : Node) (f : Router → Router) : (s.modRouter n f).map = s.map := by cases n <;> exact (rfl)
@[simp] theorem modRouter_boot (s : State) (n : Node) (f : Router → Router) : (s.modRouter n f).boot = s.boot := by cases n <;> exact (rfl)
@[simp] theorem modRouter_cores (s : State) (n : Node) (f : Router → Router) : (s.modRouter n f).cores = s.cores := by cases n <;> exact (rfl)
@[simp] theorem modRouter_flight (s : State) (n : Node) (f : Router → Router) : (s.modRouter n f).flight = s.flight := by cases n <;> exact (rfl)
@[simp] theorem modRouter_mesh (s : State) (n : Node) (f : Router → Router) : (s.modRouter n f).mesh = s.mesh := by cases n <;> exact (rfl)
@[simp] theorem modRouter_ledger (s : State) (n : Node) (f : Router → Router) : (s.modRouter n f).ledger = s.ledger := by cases n <;> exact (rfl)
@[simp] theorem modRouter_sched (s : State) (n : Node) (f : Router → Router) : (s.modRouter n f).sched = s.sched := by cases n <;> exact (rfl)
@[simp] theorem modRouter_ctxs (s : State) (n : Node) (f : Router → Router) : (s.modRouter n f).ctxs = s.ctxs := by cases n <;> exact (rfl)
@[simp] theorem modRouter_dir (s : State) (n : Node) (f : Router → Router) : (s.modRouter n f).dir = s.dir := by cases n <;> exact (rfl)
@[simp] theorem modRouter_fill (s : State) (n : Node) (f : Router → Router) : (s.modRouter n f).fill = s.fill := by cases n <;> exact (rfl)
@[simp] theorem modRouter_drain (s : State) (n : Node) (f : Router → Router) : (s.modRouter n f).drain = s.drain := by cases n <;> exact (rfl)
@[simp] theorem modRouter_timeSvc (s : State) (n : Node) (f : Router → Router) : (s.modRouter n f).timeSvc = s.timeSvc := by cases n <;> exact (rfl)
@[simp] theorem modRouter_power (s : State) (n : Node) (f : Router → Router) : (s.modRouter n f).power = s.power := by cases n <;> exact (rfl)
@[simp] theorem modRouter_thermal (s : State) (n : Node) (f : Router → Router) : (s.modRouter n f).thermal = s.thermal := by cases n <;> exact (rfl)
@[simp] theorem modRouter_fw (s : State) (n : Node) (f : Router → Router) : (s.modRouter n f).fw = s.fw := by cases n <;> exact (rfl)
@[simp] theorem modRouter_sec (s : State) (n : Node) (f : Router → Router) : (s.modRouter n f).sec = s.sec := by cases n <;> exact (rfl)
@[simp] theorem modRouter_span (s : State) (n : Node) (f : Router → Router) : (s.modRouter n f).span = s.span := by cases n <;> exact (rfl)
@[simp] theorem modRouter_host (s : State) (n : Node) (f : Router → Router) : (s.modRouter n f).host = s.host := by cases n <;> exact (rfl)
@[simp] theorem modRouter_alert (s : State) (n : Node) (f : Router → Router) : (s.modRouter n f).alert = s.alert := by cases n <;> exact (rfl)
@[simp] theorem modRouter_access (s : State) (n : Node) (f : Router → Router) : (s.modRouter n f).access = s.access := by cases n <;> exact (rfl)

/-! ### A unit after an update of a unit -/

@[simp] theorem core_modCore (s : State) (i j : Nat) (f : Core → Core) : (s.modCore i f).core j = if j = i then f (s.core i) else s.core j :=
  get_set _ _ _ _ _
@[simp] theorem sett_setSett (s : State) (i j : Nat) (x : Sett) : (s.setSett i x).sett j = if j = i then x else s.sett j :=
  get_set _ _ _ _ _
@[simp] theorem sett_modSett (s : State) (i j : Nat) (f : Sett → Sett) : (s.modSett i f).sett j = if j = i then f (s.sett i) else s.sett j :=
  get_set _ _ _ _ _
@[simp] theorem sump_setSump (s : State) (i j : Nat) (x : Sump) : (s.setSump i x).sump j = if j = i then x else s.sump j :=
  get_set _ _ _ _ _
@[simp] theorem sump_modSump (s : State) (i j : Nat) (f : Sump → Sump) : (s.modSump i f).sump j = if j = i then f (s.sump i) else s.sump j :=
  get_set _ _ _ _ _
@[simp] theorem gal_setGal (s : State) (i j : Nat) (x : Gallery) : (s.setGal i x).gal j = if j = i then x else s.gal j :=
  get_set _ _ _ _ _
@[simp] theorem gal_modGal (s : State) (i j : Nat) (f : Gallery → Gallery) : (s.modGal i f).gal j = if j = i then f (s.gal i) else s.gal j :=
  get_set _ _ _ _ _
@[simp] theorem sett_setCore (s : State) (i j : Nat) (x : Core) : (s.setCore i x).sett j = s.sett j := (rfl)
@[simp] theorem sett_modCore (s : State) (i j : Nat) (f : Core → Core) : (s.modCore i f).sett j = s.sett j := (rfl)
@[simp] theorem sump_setCore (s : State) (i j : Nat) (x : Core) : (s.setCore i x).sump j = s.sump j := (rfl)
@[simp] theorem sump_modCore (s : State) (i j : Nat) (f : Core → Core) : (s.modCore i f).sump j = s.sump j := (rfl)
@[simp] theorem gal_setCore (s : State) (i j : Nat) (x : Core) : (s.setCore i x).gal j = s.gal j := (rfl)
@[simp] theorem gal_modCore (s : State) (i j : Nat) (f : Core → Core) : (s.modCore i f).gal j = s.gal j := (rfl)
@[simp] theorem core_setSett (s : State) (i j : Nat) (x : Sett) : (s.setSett i x).core j = s.core j := (rfl)
@[simp] theorem core_modSett (s : State) (i j : Nat) (f : Sett → Sett) : (s.modSett i f).core j = s.core j := (rfl)
@[simp] theorem sump_setSett (s : State) (i j : Nat) (x : Sett) : (s.setSett i x).sump j = s.sump j := (rfl)
@[simp] theorem sump_modSett (s : State) (i j : Nat) (f : Sett → Sett) : (s.modSett i f).sump j = s.sump j := (rfl)
@[simp] theorem gal_setSett (s : State) (i j : Nat) (x : Sett) : (s.setSett i x).gal j = s.gal j := (rfl)
@[simp] theorem gal_modSett (s : State) (i j : Nat) (f : Sett → Sett) : (s.modSett i f).gal j = s.gal j := (rfl)
@[simp] theorem core_setSump (s : State) (i j : Nat) (x : Sump) : (s.setSump i x).core j = s.core j := (rfl)
@[simp] theorem core_modSump (s : State) (i j : Nat) (f : Sump → Sump) : (s.modSump i f).core j = s.core j := (rfl)
@[simp] theorem sett_setSump (s : State) (i j : Nat) (x : Sump) : (s.setSump i x).sett j = s.sett j := (rfl)
@[simp] theorem sett_modSump (s : State) (i j : Nat) (f : Sump → Sump) : (s.modSump i f).sett j = s.sett j := (rfl)
@[simp] theorem gal_setSump (s : State) (i j : Nat) (x : Sump) : (s.setSump i x).gal j = s.gal j := (rfl)
@[simp] theorem gal_modSump (s : State) (i j : Nat) (f : Sump → Sump) : (s.modSump i f).gal j = s.gal j := (rfl)
@[simp] theorem core_setGal (s : State) (i j : Nat) (x : Gallery) : (s.setGal i x).core j = s.core j := (rfl)
@[simp] theorem core_modGal (s : State) (i j : Nat) (f : Gallery → Gallery) : (s.modGal i f).core j = s.core j := (rfl)
@[simp] theorem sett_setGal (s : State) (i j : Nat) (x : Gallery) : (s.setGal i x).sett j = s.sett j := (rfl)
@[simp] theorem sett_modGal (s : State) (i j : Nat) (f : Gallery → Gallery) : (s.modGal i f).sett j = s.sett j := (rfl)
@[simp] theorem sump_setGal (s : State) (i j : Nat) (x : Gallery) : (s.setGal i x).sump j = s.sump j := (rfl)
@[simp] theorem sump_modGal (s : State) (i j : Nat) (f : Gallery → Gallery) : (s.modGal i f).sump j = s.sump j := (rfl)
@[simp] theorem core_edge (s : State) (g n j : Nat) : (s.edge g n).core j = s.core j := (rfl)
@[simp] theorem sett_edge (s : State) (g n j : Nat) : (s.edge g n).sett j = s.sett j := (rfl)
@[simp] theorem sump_edge (s : State) (g n j : Nat) : (s.edge g n).sump j = s.sump j := (rfl)
@[simp] theorem core_pass (s : State) (dt j : Nat) : (s.pass dt).core j = s.core j := (rfl)
@[simp] theorem core_take (s : State) (k : Packet) (j : Nat) : (s.take k).core j = s.core j := (rfl)
@[simp] theorem sett_pass (s : State) (dt j : Nat) : (s.pass dt).sett j = s.sett j := (rfl)
@[simp] theorem sett_take (s : State) (k : Packet) (j : Nat) : (s.take k).sett j = s.sett j := (rfl)
@[simp] theorem sump_pass (s : State) (dt j : Nat) : (s.pass dt).sump j = s.sump j := (rfl)
@[simp] theorem sump_take (s : State) (k : Packet) (j : Nat) : (s.take k).sump j = s.sump j := (rfl)
@[simp] theorem gal_pass (s : State) (dt j : Nat) : (s.pass dt).gal j = s.gal j := (rfl)
@[simp] theorem gal_take (s : State) (k : Packet) (j : Nat) : (s.take k).gal j = s.gal j := (rfl)
@[simp] theorem island_pass (s : State) (dt : Nat) (n : Node) : (s.pass dt).island n = s.island n := (rfl)
@[simp] theorem router_pass (s : State) (dt : Nat) (n : Node) : (s.pass dt).router n = s.router n := (rfl)
@[simp] theorem core_modIsland (s : State) (n : Node) (f : Island → Island) (j : Nat) : (s.modIsland n f).core j = s.core j := by
  cases n <;> exact (rfl)
@[simp] theorem core_modRouter (s : State) (n : Node) (f : Router → Router) (j : Nat) : (s.modRouter n f).core j = s.core j := by
  cases n <;> exact (rfl)
@[simp] theorem island_modIsland (s : State) (n : Node) (f : Island → Island) : (s.modIsland n f).island n = f (s.island n) := by
  cases n <;> simp [State.island, State.modIsland]
@[simp] theorem router_modRouter (s : State) (n : Node) (f : Router → Router) : (s.modRouter n f).router n = f (s.router n) := by
  cases n <;> simp [State.router, State.modRouter]
@[simp] theorem router_modIsland (s : State) (n m : Node) (f : Island → Island) : (s.modIsland n f).router m = s.router m := by
  cases n <;> cases m <;> simp [State.router, State.modIsland] <;> split <;> simp_all
@[simp] theorem island_modRouter (s : State) (n m : Node) (f : Router → Router) : (s.modRouter n f).island m = s.island m := by
  cases n <;> cases m <;> simp [State.island, State.modRouter] <;> split <;> simp_all

end Sys2Proof.Machine
end

