-- ==== Sys2Proof/WellFormed.lean ====
section
/-! DEFINITION. Which commands are well formed: the data they carry has the lengths and ranges that the spec gives it. The meanings are total,
so they answer on ill-formed commands too. -/

namespace Sys2Proof

/-- Payload bytes of a packet: LEN for an opcode that carries a payload, none for the others (R247, R249). -/
def Packet.payload (k : Packet) : Nat := if [2, 3, 5, 12, 13, 14, 15].contains k.opc.toNat then k.len.toNat else 0

/-- A packet carries the payload its header says, and a multicast extension exactly where its opcode has one (R249); an MCW travels as a copy
without one once it has left its trees. -/
def Packet.wellFormed (k : Packet) : Bool :=
  k.data.length = k.payload && k.payload ≤ 4096 && (k.mcx.isNone || [5, 11, 12, 15].contains k.opc.toNat)

/-- A host read brings back at most 4,096 bytes unless it fails (R300). -/
def HostRead.wellFormed (limit : Nat) : HostRead → Bool
  | .ok data => data.length ≤ limit
  | .fail st => st ≠ 0

/-- A command descriptor has an extension exactly where its EXT bit is set (R319). -/
def Cmd.wellFormed (c : Cmd) : Bool := c.desc.ext.isSome = c.desc.w0.getLsbD 48

/-- Word indexes of errors lie in a memory of so many 8-byte words. -/
def upsetsIn (words : Nat) (us : List Upset) : Bool := us.all fun u => u.word < words

/-- A span record of members 0 to 63 has a lead among them, and a roster names each member once (R449, R450). -/
def RosterFrame.wellFormed (f : RosterFrame) : Bool := (f.members.map (·.1)).Nodup

/-- Whether a command is well formed. -/
def Instr.wellFormed : Instr → Bool
  | .nop .. | .pdone .. | .brk .. | .seqFence .. | .aluR .. | .aluI .. | .lil .. | .lih .. | .ext .. | .dep .. | .ld .. | .st ..
  | .rdreg .. | .wrreg .. | .rdtime .. | .rdlaunch .. | .movu .. | .rdid .. | .j .. | .jal .. | .jr .. | .bcmp .. | .pset ..
  | .bsum .. | .psum .. | .plog .. | .mmaOs .. | .mmaWs .. | .wload .. | .accLoad .. | .drain .. | .arrayOpComplete .. | .vchain ..
  | .chainStart .. | .chainComplete .. | .summaryWrite .. | .fill .. | .copy .. | .fillCopyComplete .. | .frd .. | .fwr .. | .mcw ..
  | .hint .. | .msend .. | .dwait .. | .twait .. | .cwait .. | .tsend .. | .cret .. | .wopen .. | .wclose .. | .cbcfg .. | .cbpush ..
  | .cbpop .. | .cbaddr .. | .waitt .. | .timeRelease .. | .runAheadStart .. | .watchdogFire .. | .probe .. | .resume .. | .step ..
  | .halt .. | .coreNumSeedWrite .. | .winCfgWrite .. | .bankPowerUp .. | .bankZeroFillDone .. | .spRowRepair .. => true
  | .transferComplete _ tid => tid < 65536
  | .transferTimeout _ tid _ => tid < 65536
  | .scrubTick _ us => upsetsIn 0x64000 us
  | .rdReq k | .rdRsp k | .wr k | .ack _ k | .mcwPkt k | .token k | .credit k | .retract k | .hintPkt k | .done k | .event k => k.wellFormed
  | .routePacket _ _ k | .fwchunk _ k | .data _ _ k => k.wellFormed
  | .hintLineLapse _ stripe _ => stripe < 16777216
  | .abortEvent .. | .stop .. | .stopAck .. | .quiesceLimit .. | .passRecordPost | .launch .. | .timedStart .. | .standaloneFlip ..
  | .schedulerPick | .passTimeLimit .. | .nextPassFill | .mapChange | .loadStart | .load .. | .loadComplete | .hintFill | .pinLapse ..
  | .meshMessageLand .. | .hopQueueFlush .. | .meshLaneReplay .. | .meshLaneDead .. | .flitReplay .. | .ringLinkDead ..
  | .linkLockLoss .. | .linkIdleTimeout .. | .combineTimeout .. | .drainStart .. | .drainLimit .. | .beacon .. | .beaconReceive ..
  | .syncLoss .. | .timeStep .. | .referenceLoss .. | .inputQualified .. | .vcoLockFail .. | .aclkStep .. | .clockViolation ..
  | .safeClear .. | .droop .. | .droopRecovery .. | .efuseTrip .. | .connectorOpen .. | .connectorEstimate .. | .capCompare ..
  | .panelClamp .. | .phaseFail .. | .ivrFail .. | .inrushGrant .. | .inrushReevaluate .. | .turnOnPhase .. | .meadowPowerDown
  | .coreGate .. | .rimPowerLoss | .coolantRead .. | .flowLow .. | .coolLostClear .. | .sensorSample .. | .guardRelease ..
  | .sensorDisagree .. | .stackReadout .. | .stackFailed .. | .regionZeroFillDone .. | .panelResetPin .. | .rimPowerGood
  | .bringupPhase .. | .benchStep .. | .hbmTraining .. | .mcWatchdogExpiry .. | .settControllerProbe .. | .repairRoundEnd ..
  | .flashWriteDone .. | .holdBegin .. | .activation .. | .icuClaim .. | .icuComplete .. | .icuSgi .. | .gdis .. => true
  | .hostSegmentFetch _ _ r => r.wellFormed 10485760
  | .allocationTick power _ planes _ => (power.map (·.1)).Nodup && (planes.map (·.1)).Nodup
  | .thermalTick fc _ => (fc.map (·.site)).Nodup
  | .thermtrip _ source => source.toNat < 272
  | .refresh _ _ bank => bank < 2048
  | .patrolScrub _ us _ => upsetsIn (2 ^ 33) us
  | .hbmRowRepair .. => true
  | .go image => image.wellFormed 16777216
  | .interruptEdge _ n => n.val ≤ 600
  | .sqDoorbell .. | .cqDoorbell .. | .cqPost .. | .msixCoalesceTimeout .. | .msixUnmask .. | .aqEnable .. | .perst .. | .flr ..
  | .dStateChange .. | .portLinkDown .. | .apertureAccess .. => true
  | .sqFetch _ _ _ r => r.wellFormed 128
  | .mctpMessage _ body => body.length ≤ 65536
  | .ctxOpen c | .ctxClose c | .ctxAttach c | .ctxDetach c | .ctxSet c | .qpCreate c | .qpDelete c | .vfQuota c | .regionCreate c
  | .regionRemove c | .placeRegister c | .placeUnregister c | .resLoad c | .resRelease c | .resHint c | .resPin c | .passLaunch c
  | .abort c | .drainCmd c | .fence c | .unfence c | .stateCopy c | .shadow c | .meadowPower c | .panelReset c | .query c => c.wellFormed
  | .resLoadHost c page => c.wellFormed && page.wellFormed 4096
  | .memCopy c src => c.wellFormed && src.wellFormed 4096
  | .fwUpdate c image => c.wellFormed && image.wellFormed 16777216
  | .stateCopyPairTimeout .. | .sourceLost .. | .new | .unlockFull | .provision | .claim | .keyAdd | .keyRevoke | .svnCommit
  | .retire | .listsClear | .secDbgCtrlWrite .. | .getVersion | .getCapabilities | .negotiateAlgorithms | .getDigests
  | .getCertificate .. | .challenge .. | .getMeasurements .. | .bypass | .idcode | .secAccess .. | .extest => true
  | .tapDebugAccess write _ bytes bs => bytes.toNat ≤ 4096 && (!write || bs.length = bytes.toNat)
  | .penletLinkTrain .. | .penletLinkLoss .. | .ident .. | .spanRecordRead .. | .timeFrameSend .. | .time .. | .tsyncLoss ..
  | .heartbeatSend .. | .heartbeat .. | .unresponsive .. | .handoff | .registerWrite .. | .idleProbe .. | .coreReady ..
  | .completionTimeout .. | .handoffTimeout .. | .penletFrameReplay .. | .restartComplete .. | .vfEnable .. | .tapReset => true
  | .roster _ f => f.wellFormed
  | .hostCompletion _ _ o => match o with
    | .success bs => bs.length ≤ 4096
    | .unsupported | .completerAbort | .poisoned => true
  | .retentionSoak _ rows => rows.Nodup

end Sys2Proof
end

