-- ==== Sys2Proof/Tests/Slice0.lean ====
section
/-! SUPPORT. Tests of the model: ill-formed commands, worked examples of the spec, and for each statement with premises a concrete state and
operands that meet them. -/

namespace Sys2Proof.Tests

open Sys2Proof.Machine

/-! ### Ill-formed commands -/

/-- A descriptor with an opcode in w0 and no extension. -/
def descOf (w0 w2 : BitVec 64) : Desc := { w0 := w0, w1 := 0, w2 := w2, w3 := 0, w4 := 0, w5 := 0, w6 := 0, w7 := 0, ext := none }

/-- A management command over MCTP. -/
def cmdOf (w0 w2 : BitVec 64) : Cmd := { src := .mctp, desc := descOf w0 w2 }

/-- A WR whose LEN is 8 carries 8 bytes (R247). -/
theorem test_ill_formed_payload : Instr.wellFormed (.wr { Packet.empty with opc := 3, len := 8 }) = false := by decide
/-- An ACK carries no payload (R249). -/
theorem test_ill_formed_ack : Instr.wellFormed (.ack none { Packet.empty with opc := 4, data := [0] }) = false := by decide
/-- A TOKEN has no multicast extension (R249). -/
theorem test_ill_formed_extension :
    Instr.wellFormed (.token { Packet.empty with opc := 6, mcx := some { sites := 1, root := 0, sctl := false, cores := 0 } }) = false := by decide
/-- A failed host read has a bad status (R300). -/
theorem test_ill_formed_host_read : Instr.wellFormed (.sqFetch 0 0 0 (.fail 0)) = false := by decide
/-- An SQ fetch brings at most an entry and its extension (R319). -/
theorem test_ill_formed_fetch : Instr.wellFormed (.sqFetch 0 0 0 (.ok (List.replicate 129 0))) = false := by decide +kernel
/-- EXT without the extension (R319). -/
theorem test_ill_formed_command : Instr.wellFormed (.ctxOpen (cmdOf (2 ^ 48) 0)) = false := by decide
/-- A word beyond the scratchpad and the accumulator store (R149). -/
theorem test_ill_formed_upset : Instr.wellFormed (.scrubTick 0 [{ word := 0x64000, double := false }]) = false := by decide
/-- A word beyond a stack (R283). -/
theorem test_ill_formed_hbm_upset : Instr.wellFormed (.patrolScrub 0 [{ word := 2 ^ 33, double := false }] 0) = false := by decide
/-- A roster names a member once (R450). -/
theorem test_ill_formed_roster : Instr.wellFormed (.roster 0 { lead := 0, members := [(1, 0), (1, 0)], jobs := [] }) = false := by decide
/-- Transfers are numbered below 65,536. -/
theorem test_ill_formed_transfer : Instr.wellFormed (.transferComplete 0 65536) = false := by decide
/-- The same for a timeout. -/
theorem test_ill_formed_timeout : Instr.wellFormed (.transferTimeout 0 65536 0) = false := by decide
/-- A stack has 2^24 stripes (R271). -/
theorem test_ill_formed_stripe : Instr.wellFormed (.hintLineLapse 0 16777216 0) = false := by decide
/-- A tick measures a site once (R371). -/
theorem test_ill_formed_allocation : Instr.wellFormed (.allocationTick [(3, 1), (3, 2)] 0 [] 0) = false := by decide
/-- A tick forecasts a site once (R386). -/
theorem test_ill_formed_forecast : Instr.wellFormed (.thermalTick [{ site := 3, temp := 0, maxStep := 0, crosses := false },
    { site := 3, temp := 0, maxStep := 0, crosses := true }] 0) = false := by decide
/-- There are 272 sites (R394). -/
theorem test_ill_formed_thermtrip : Instr.wellFormed (.thermtrip false 272) = false := by decide
/-- A stack has 2,048 banks to refresh (R281). -/
theorem test_ill_formed_refresh : Instr.wellFormed (.refresh 0 false 2048) = false := by decide
/-- An interrupt source above 600 does not exist (R424). -/
theorem test_ill_formed_interrupt : Instr.wellFormed (.interruptEdge 0 601) = false := by decide
/-- A recovery image has at most 16 MiB (R418). -/
theorem test_ill_formed_image (l : List Byte) (h : 16777216 < l.length) : Instr.wellFormed (.go (.ok l)) = false := by
  simp [Instr.wellFormed, HostRead.wellFormed, h]
/-- An MCTP message has at most 64 KiB (R317). -/
theorem test_ill_formed_mctp (l : List Byte) (h : 65536 < l.length) : Instr.wellFormed (.mctpMessage 5 l) = false := by
  simp [Instr.wellFormed, h]
/-- A TAP write carries the bytes that it names (R438). -/
theorem test_ill_formed_tap : Instr.wellFormed (.tapDebugAccess true 0 2 [0]) = false := by decide
/-- A completion brings at most 4,096 bytes (R300). -/
theorem test_ill_formed_completion (l : List Byte) (h : 4096 < l.length) : Instr.wellFormed (.hostCompletion 0 0 (.success l)) = false := by
  simp [Instr.wellFormed, h]
/-- A soak names a row once (R402). -/
theorem test_ill_formed_soak : Instr.wellFormed (.retentionSoak 0 [1, 1]) = false := by decide

/-! ### Worked examples of the spec -/

/-- Chapter 08: LIL s10, 0 is 0x0C00_5000_0000_0000. -/
theorem test_lil_word : seqWord 0x03 { gn := false, gp := 0 } (10 * 2 ^ 43) = 0x0C00500000000000 := by decide
/-- Chapter 03: 300 in E4M3 under round to nearest even is 0x79. -/
theorem test_e4m3_300 : (encodeVal .e4m3 false .rne (.fin false 300 0)).1 = 0x79 := by decide
/-- Chapter 03: 2.4 in E4M3 is 0x42. -/
theorem test_e4m3_2_4 : (encodeVal .e4m3 false .rne (.fin false 0x99999A (-22))).1 = 0x42 := by decide
/-- Chapter 12: the region entry of context 18. -/
theorem test_region_entry : regionEntry true true false 18 0x900 0x10FF = 0xE0120010FF000900 := by decide
/-- Chapter 06: CORE_CB_CFG_4 reads as enabled, BASE 0x28_0000, entries of 4 KiB. -/
theorem test_cb_config : cbDepth 0xD000001FCE588D11 = 8 ∧ cbEntry 0xD000001FCE588D11 = 4096 ∧ fld (0xD000001FCE588D11 : BitVec 64) 62 41 = 0x280000 := by
  decide
/-- No row of the table gives bits, so no word spells a command. -/
theorem test_no_word : decodeTableWord 64 0x0C00500000000000 = none := by decide

/-! ### Premises that states and operands meet: cores -/

/-- The unconditional guard: p0, not negated. -/
def g0 : Guard := { gn := false, gp := 0 }

/-- A guard that reads false: p0 negated. -/
def gF : Guard := { gn := true, gp := 0 }

/-- A running core at PC 16 with all banks in its front slot and a few scalar registers: s1 = 0x1000, s2 = 0x2000, s3 = 64. -/
def runCore : Core :=
  { Core.reset with
    seq := { CoreSeq.reset with mode := .run, pc := 16, sregs := [(1, 0x1000), (2, 0x2000), (3, 64)] }
    sp := { CoreSp.reset with slot0 := 0xFFF, on := 0xFFF, ready := 0xFFF } }

/-- The panel after reset with core 0 as given. -/
def coreState (c : Core) : State := State.reset.setCore 0 c

/-- The same at a panel whose row 0 is published with 16 columns, so that its cores have logical addresses. -/
def mapState (c : Core) : State :=
  { coreState c with map := { State.reset.map with rowShape := [(0, 0x90010000)], published := true } }

/-- The running core is plain. -/
theorem witness_plain : ((coreState runCore).core 0).plain ∧ ((coreState runCore).core 0).guarded g0 := by
  unfold Core.plain Core.guarded; decide
theorem witness_StepRunsFrontCommand : ∃ (c : Instr) (q : List Instr) (s : State), s.pending = c :: q :=
  ⟨.schedulerPick, [.loadStart], { State.reset with pending := [.schedulerPick, .loadStart] }, rfl⟩
theorem witness_IdleStepAdvancesOneCycle : State.reset.pending = [] := rfl
theorem witness_FalseGuardOnlyAdvances : seqParts (.brk 0 gF 0) = some (0, gF) ∧ ((coreState runCore).core 0).plain
    ∧ ¬ ((coreState runCore).core 0).guarded gF := by
  unfold Core.plain Core.guarded; decide
/-- ADD s3 = s1 + s2; ADDI at the largest immediate; EXT of the top bit and beyond it. -/
theorem witness_ScalarAluResults :
    (∃ b : BitVec 54, fld b 32 0 = 0 ∧ aluFn (fld b 53 48) (runCore.sreg (fld b 42 38)) (runCore.sreg (fld b 37 33)) = some 0x3000)
    ∧ (∃ b : BitVec 54, fld b 37 32 = 0 ∧ aluFn (fld b 53 48) (runCore.sreg (fld b 42 38)) ((b.extractLsb' 0 32).signExtend 64) = some 0xFFF)
    ∧ (∃ b : BitVec 48, fld b 42 32 = 0 ∧ fld b 31 0 = 0xFFFFFFFF)
    ∧ (∃ b : BitVec 48, fld b 25 0 = 0 ∧ fld b 37 32 + (fld b 31 26 + 1) = 64)
    ∧ (∃ b : BitVec 48, 64 < fld b 37 32 + (fld b 31 26 + 1) ∧ bit runCore.seq.trap 63 = false) :=
  ⟨⟨(3 : BitVec 54) <<< 43 ||| 1 <<< 38 ||| 2 <<< 33, by decide⟩, ⟨(3 : BitVec 54) <<< 43 ||| 1 <<< 38 ||| 0xFFFFFFFF, by decide⟩,
    ⟨0xFFFFFFFF, by decide⟩, ⟨63 <<< 32, by decide⟩, ⟨(63 : BitVec 48) <<< 32 ||| 1 <<< 26, by decide⟩⟩
/-- RDREG of CORE_NUM_CTRL, WRREG of each of its three registers, RDID of a core with an address, MOVU of a register without a chain. -/
theorem witness_CoreStateRows :
    (∃ b : BitVec 50, fld b 25 0 = 0 ∧ fld b 44 42 = 0 ∧ fld b 41 26 = 0xC00 ∧ ∃ w v d, runCore.readReg false (fld b 41 26) = some (w, v, d))
    ∧ (runCore.units.arrQ = [] ∧ runCore.units.vecQ = []) ∧ (mapState runCore).logicalOf 0 = some 0 ∧ runCore.uPending 7 = false :=
  ⟨⟨0xC00 <<< 26, by decide, by decide, by decide, 32, 0, runCore, by decide⟩, by decide, by decide, by decide⟩
/-- An 8-byte load and store at the top of the scratchpad, one beyond it, one outside the banks of the front slot, and a misaligned one. -/
theorem witness_ScalarMemoryAccess :
    (0x2FFFF8 + 8 ≤ 0x300000 ∧ runCore.ownOk 0x2FFFF8 8 = true ∧ 0x2FFFF8 % 8 = 0 ∧ runCore.sp.errs = []
      ∧ hazard runCore.units.sb 0x2FFFF8 (0x2FFFF8 + 8 - 1) true = false)
    ∧ (∃ b : BitVec 54, fld b 18 0 = 0 ∧ 2 ^ fld b 43 42 = 8 ∧ ((runCore.sreg (fld b 48 44)).toNat + fld b 40 19) % 2 ^ 64 = 0x2FFFF8 ∧ bit b 41 = false)
    ∧ (0x300000 < 0x2FFFF9 + 8 ∧ Core.reset.ownOk 0 8 = false ∧ runCore.ownOk 4 8 = true ∧ 4 % 8 ≠ 0 ∧ bit runCore.seq.trap 63 = false) :=
  ⟨by decide, ⟨(1 : BitVec 54) <<< 44 ||| 3 <<< 42 ||| 0x2FEFF8 <<< 19, by decide⟩, by decide⟩
/-- Jumps to the last PC and one beyond it, a taken and an untaken compare, a summary compare, and each kind of predicate row. -/
theorem witness_BranchResults :
    (∃ b : BitVec 48, (4095 : Int) = runCore.seq.pc.toNat + sgn 16 (fld b 15 0) ∧ fld b 36 16 = 0 ∧ fld b 47 38 = 0)
    ∧ (∃ b : BitVec 48, (4096 : Int) = runCore.seq.pc.toNat + sgn 16 (fld b 15 0) ∧ fld b 36 16 = 0 ∧ fld b 47 38 = 0)
    ∧ (∃ b : BitVec 48, (runCore.sreg (fld b 42 38)).toNat = 64 ∧ fld b 36 0 = 0 ∧ fld b 47 43 = 0)
    ∧ (∃ b : BitVec 54, fld b 18 16 = 0 ∧ runCore.condScalar b.toNat = some true)
    ∧ (∃ b : BitVec 54, fld b 18 16 = 0 ∧ runCore.condScalar b.toNat = some false)
    ∧ (∃ b : BitVec 54, ∃ r, fld b 19 16 = 0 ∧ runCore.uPending (fld b 53 51) = false
        ∧ condSummary (runCore.ureg (fld b 53 51)) (fld b 50 47) (bit b 41) (fld b 46 42) (fld b 39 20) runCore.sreg = some r)
    ∧ (∃ b : BitVec 54, ∃ r, fld b 40 0 = 0 ∧ fld b 49 47 ≠ 0
        ∧ plogFn (fld b 53 50) (runCore.pred (fld b 46 44)) (runCore.pred (fld b 43 41)) = some r) :=
  ⟨⟨4079, by decide⟩, ⟨4080, by decide⟩, ⟨3 <<< 38, by decide⟩, ⟨(1 : BitVec 54) <<< 46 ||| 1 <<< 41, by decide⟩,
    ⟨(1 : BitVec 54) <<< 46 ||| 2 <<< 41, by decide⟩, ⟨1 <<< 41, true, by decide⟩, ⟨(1 : BitVec 54) <<< 47, true, by decide⟩⟩
/-- PDONE of an idle core with an address, BREAK at both levels, FENCE of the array, the vector engine, the fill unit and the groups. -/
theorem witness_SystemRows :
    ((mapState runCore).logicalOf 0 = some 0 ∧ runCore.units.arrQ = [] ∧ runCore.units.vecQ = [] ∧ runCore.units.fcQ = [] ∧ runCore.units.busy = false
      ∧ runCore.units.held = [] ∧ runCore.seq.doneSent = false)
    ∧ State.reset.sec.level ≠ 2 ∧ ({ State.reset with sec := { State.reset.sec with level := 2 } } : State).sec.level = 2
    ∧ (∃ b : BitVec 48, fld b 39 0 = 0 ∧ fld b 47 44 = 0 ∧ fld b 47 40 = 15) ∧ ∀ k < 8, fld (Tab.get 0 runCore.units.grps k) 4 0 = 0 :=
  ⟨by decide, by decide, rfl, ⟨15 <<< 40, by decide⟩, by decide⟩
/-- TWAIT and CWAIT of 1 and of 65,535 with none and with enough, WAITT of a time that has come, DWAIT of all groups. -/
theorem witness_CountingAndTimeWaits :
    (∃ b : BitVec 54, fld b 26 0 = 0 ∧ runCore.kField b = 1 ∧ kEncoded b ∧ runCore.tokCount (fld b 53 49) < 1 ∧ runCore.crdCount (fld b 53 49) < 1)
    ∧ (∃ b : BitVec 54, fld b 26 0 = 0 ∧ runCore.kField b = 65535 ∧ kEncoded b
        ∧ 65535 ≤ ((runCore.setTok (fld b 53 49) 65535).tokCount (fld b 53 49)) ∧ 65535 ≤ ((runCore.setCrd (fld b 53 49) 65535).crdCount (fld b 53 49)))
    ∧ (∃ b : BitVec 54, fld b 15 0 = 0 ∧ runCore.sreg (fld b 53 49) + BitVec.ofNat 64 (fld b 47 16) ≤ (coreState runCore).coreTime 0)
    ∧ (∃ b : BitVec 54, fld b 41 0 = 0 ∧ fld b 53 46 = 255 ∧ ∀ k ∈ bitsOf 8 (fld b 53 46), fld (Tab.get 0 runCore.units.grps k) 4 0 = 0) := by
  unfold kEncoded
  exact ⟨⟨1 <<< 27, by decide⟩, ⟨0xFFFF <<< 27, by decide⟩, ⟨0, by decide⟩, ⟨255 <<< 46, by decide⟩⟩
/-- A core whose registers hold what window and buffer rows need: s4 a pair 0x1000 to 0x2000, s5 a filter, s6 the configuration of chapter 06. -/
def winCore : Core :=
  { runCore with
    seq := { runCore.seq with sregs := [(4, 0x2000 * 2 ^ 22 + 0x1000), (5, 0x0000000100003FFF), (6, 0xD000001FCE508D11)] }
    sp := { runCore.sp with cbCfg := [(4, 0xD000001FCE508D11)] } }
theorem witness_WindowAndBufferRows :
    (∃ b : BitVec 54, fld b 39 0 = 0 ∧ winCore.sreg (fld b 49 45) = BitVec.ofNat 64 (0x2000 * 2 ^ 22 + 0x1000) ∧ winCore.ownOk 0x1000 (0x2000 - 0x1000) = true
      ∧ fld (winCore.sreg (fld b 44 40)) 63 37 = 0 ∧ fld (winCore.sreg (fld b 44 40)) 31 28 = 0)
    ∧ (∃ b : BitVec 54, fld b 37 0 = 0 ∧ fld b 53 38 ≠ 0)
    ∧ (∃ b : BitVec 54, fld b 43 0 = 0 ∧ bit b 44 = true ∧ bit (winCore.sreg (fld b 49 45)) 63 = true ∧ fld (winCore.sreg (fld b 49 45)) 29 26 ≤ 12
      ∧ fld (winCore.sreg (fld b 49 45)) 62 41 % 32 = 0
      ∧ winCore.ownOk (fld (winCore.sreg (fld b 49 45)) 62 41) (cbDepth (winCore.sreg (fld b 49 45)) * cbEntry (winCore.sreg (fld b 49 45))) = true)
    ∧ (bit (winCore.cb 4) 63 = true ∧ bit (winCore.cb 4) 19 = false ∧ winCore.cbCount 4 < cbDepth (winCore.cb 4))
    ∧ (∃ b : BitVec 54, fld b 30 0 = 0 ∧ fld b 53 50 = 4 ∧ fld b 43 31 = 1 ∧ fld b 48 44 = 0 ∧ bit b 49 = false)
    ∧ (∃ b : BitVec 54, fld b 31 0 = 0 ∧ fld b 53 50 = 4) :=
  ⟨⟨(4 : BitVec 54) <<< 45 ||| 5 <<< 40, by decide⟩, ⟨1 <<< 38, by decide⟩, ⟨(6 : BitVec 54) <<< 45 ||| 1 <<< 44, by decide⟩, by decide,
    ⟨(4 : BitVec 54) <<< 50 ||| 1 <<< 31, by decide⟩, ⟨4 <<< 50, by decide⟩⟩
theorem witness_CountingSends :
    (∃ b : BitVec 54, fld b 3 0 = 0 ∧ runCore.kField b = 1 ∧ kEncoded b ∧ bit b 26 = false ∧ fld b 20 7 = 1 ∧ fld b 25 21 = 0)
    ∧ runCore.units.held = [] ∧ runCore.units.dmaRoom = true ∧ (mapState runCore).coreAt 1 = some 1 ∧ ((mapState runCore).core 1).fenced = false
    ∧ runCore.units.writesOut = [] ∧ runCore.units.readsOut = [] := by
  unfold kEncoded
  exact ⟨⟨(1 : BitVec 54) <<< 27 ||| 1 <<< 7, by decide⟩, by decide⟩
/-! ### Premises: units, passes, loads -/

/-- Registers for array, vector, fill, copy and fabric rows: s1 a BF16 stream at 0x1000, s2 one at 0x2000, s3 a pair (0x4000, 256), s4 = 0x8000,
s5 = 64, s6 an HBM address. -/
def opCore : Core :=
  { runCore with seq := { runCore.seq with sregs := [(1, 0x1000000001000 + 0x100 * 2 ^ 22), (2, 0x1000000002000), (3, 0x100 * 2 ^ 22 + 0x4000),
      (4, 0x8000), (5, 64), (6, 0x12345000)] } }
/-- Each array row with a legal operation, and fill and copy rows. The ranges are those that `arrRanges` gives. -/
theorem witness_UnitIssueRows :
    (∃ (x y : StreamWord) (rs : List (List (Nat × Nat) × Bool)), streamOf 0x0000100000001000 = some x ∧ streamOf 0x0000100000002000 = some y
      ∧ opCore.takesArr none (.mmaOs 0 1 x y 0 0 0 true false false) rs)
    ∧ (∃ (x : StreamWord) (rs : List (List (Nat × Nat) × Bool)), streamOf 0x0000100000001000 = some x
      ∧ opCore.takesArr (some { tb := 1, sparse := false, halfk := false }) (.mmaWs 0 8 false x 0 true false) rs)
    ∧ (∃ (x : StreamWord) (rs : List (List (Nat × Nat) × Bool)), streamOf 0x0000100000001000 = some x
      ∧ opCore.takesArr none (.wload true x 0 0 false false) rs)
    ∧ (∃ rs, pairOf (opCore.sreg 3) = some (0x4000, 0x100) ∧ opCore.takesArr none (.accLoad 0 2 0x4000 0x100) rs)
    ∧ (∃ rs, opCore.takesArr none (.drain 0 2 0x4000 0x100 0 0 false false false false false 0 0) rs)
    ∧ (opCore.fcOk 0x8000 64 = true ∧ opCore.fcOk 0x4000 64 = true ∧ opCore.units.fcQ.length < 5
      ∧ sbReady opCore.units.sb [(0x4000, 0x4000 + 64 - 1, false), (0x8000, 0x8000 + 64 - 1, true)] = true) := by
  unfold Core.takesArr
  refine ⟨⟨_, _, _, rfl, rfl, rfl, by decide⟩, ⟨_, _, rfl, rfl, by decide⟩, ⟨_, _, rfl, rfl, by decide⟩, ⟨_, by decide, rfl, by decide⟩, ⟨_, rfl, by decide⟩, by decide⟩
/-- The descriptor of one tile: every stream off, one PASS stage of K0. -/
def zeroDesc : List Byte := List.replicate 134 0 ++ 0x60 :: List.replicate 57 0
theorem witness_vchain : (vDesc zeroDesc).ok = true := by decide +kernel
/-- A hint, a read and a write of 64 bytes of HBM. -/
theorem witness_FabricIssueRows :
    (opCore.sreg 6).toNat % 8 = 0 ∧ opCore.localOk 8 0x8000 64 = true ∧ opCore.ownOk 0x8000 64 = true ∧ opCore.units.dmaRoom = true
    ∧ sbReady opCore.units.sb [(0x8000, 0x8000 + 64 - 1, true)] = true ∧ opCore.sp.errs = [] ∧ inHbm 0x12345000 64 = true
    ∧ inHbm 0x400000000000 64 = false ∧ (opCore.sreg 4).toNat = 0x8000 ∧ (opCore.sreg 5).toNat = 64 := by decide
theorem witness_TransferPiecesCover : partsOf 0xFFF 0 2 = [{ addr := 0xFFF, len := 1, off := 0 }, { addr := 0x1000, len := 1, off := 1 }] := by decide
/-- An MCW to all cores of sett 0, and a valid flow to another core. -/
theorem witness_MulticastAndMeshIssue :
    (opCore.localOk 32 0x8000 64 = true ∧ opCore.ownOk 0x8000 64 = true ∧ opCore.ownOk 0x9000 48 = true ∧ 0x9000 % 64 = 0
      ∧ hazard opCore.units.sb 0x9000 (0x9000 + 47) false = false ∧ (mapState opCore).siteMask 1 = (1, 0))
    ∧ (bit (0x8002000000000000 : BitVec 64) 63 = true ∧ fld (0x8002000000000000 : BitVec 64) 62 49 ≠ ((mapState opCore).logicalOf 0).getD 0) := by decide
/-- A core with a fill in its unit, one with an ACC.LOAD of one tile in its array. -/
theorem witness_UnitsComplete :
    (∃ c : Core, c.units.fcQ = [{ id := 0, copy := false, dest := 0, src := 0, len := 32, pattern := 5, spec := false }] ∧ c.seq.blocked = none
      ∧ c.units.held = [] ∧ c.sp.errs = [])
    ∧ (∃ (c : Core) (o : ArrOp) (d : Core), c.units.arrQ = [o] ∧ o.kind = .accLoad 0 1 0 0x100
      ∧ Core.runArr { c with units := { c.units with arrQ := [], arrStalls := c.units.arrStalls + (State.reset.fresh).1.setWidth 64 } } o = .ok d) :=
  ⟨⟨{ opCore with units := { opCore.units with fcQ := [_] } }, rfl, rfl, rfl, rfl⟩,
    ⟨{ opCore with units := { opCore.units with arrQ := [{ id := 0, kind := .accLoad 0 1 0 0x100, numCtrl := 0 }] } }, _, _, rfl, rfl, rfl⟩⟩
/-- A chain of that descriptor that waits, and one that runs. -/
theorem witness_VectorChainRows :
    ({ opCore.units with vecQ := [{ id := 0, desc := zeroDesc, numCtrl := 0, started := false, sumDone := false }] } : CoreUnits).vecQ
      = [] ++ { id := 0, desc := zeroDesc, numCtrl := 0, started := false, sumDone := false } :: []
    ∧ (vDesc zeroDesc).sumk = 0 ∧ (vDesc (List.replicate 3 0 ++ 0x10 :: List.replicate 188 0)).sumk = 1 := by decide +kernel
/-- A transfer with nothing left, and one with a piece outstanding, 200 µs after its issue. -/
theorem witness_TransfersComplete :
    (∃ x : Xfer, x.left = [] ∧ x.spec = false ∧ x.cancelled = false ∧ x.kind ≠ .hint ∧ x.kind = .frd)
    ∧ (∃ x : Xfer, x.left ≠ [] ∧ x.spec = false ∧ x.cancelled = false ∧ x.kind = .fwr
      ∧ x.issued + max 1 (fld opCore.units.dmaCfg 15 0) * 1000 ≤ State.reset.tclk + 200000) :=
  ⟨⟨Xfer.fresh 0 .frd 0 0, by decide⟩, ⟨{ Xfer.fresh 0 .fwr 0 0 with left := [{ node := 0, stream := 0, seq := 0, bytes := 0 }] }, by decide⟩⟩
/-- A halted core at FULL whose PC names a NOP. -/
theorem witness_DebugControlRows :
    Core.reset.seq.mode ≠ .run ∧ State.reset.sec.level ≠ 2
    ∧ (∃ (s : State) (c : Core), s.sec.level = 2 ∧ c.seq.dbgHalted = true ∧ c.seq.ra = none ∧ c.seq.pc.toNat < 4095 ∧ c.fetch c.seq.pc.toNat = 0) :=
  ⟨by decide, by decide, { State.reset with sec := { State.reset.sec with level := 2 } },
    { runCore with seq := { runCore.seq with mode := .trapped, dbgHalted := true } }, by decide⟩
/-- A core that waits on TOK3 with one firing, and one with eight. -/
def waitCore (fires : Nat) : Core :=
  { runCore with seq := { runCore.seq with mode := .waitTok, blocked := some { word := BitVec.ofNat 64 (seqWord 0x28 g0 (3 * 2 ^ 49 + 2 ^ 27)), since := 0, count := 0, fires := fires } } }
theorem witness_WatchdogAndProbeRows :
    (∃ b, (waitCore 1).seq.blocked = some b ∧ (waitCore 1).seq.mode = .waitTok ∧ nfld b.word.toNat 63 58 = 0x28 ∧ bit (waitCore 1).seq.wdogCfg 31 = true
      ∧ b.since + max 1 (fld (waitCore 1).seq.wdogCfg 15 0) * 1000 ≤ 50000 ∧ b.fires ≠ 0 ∧ b.fires < 8)
    ∧ (mapState (waitCore 1)).coreAt (fld (waitCore 1).seq.wdogStat 13 0) = some 0 ∧ (∃ b, (waitCore 8).seq.blocked = some b ∧ 8 ≤ b.fires)
    ∧ State.reset.ledger.state = .idle := ⟨⟨_, rfl, by decide⟩, by decide, ⟨_, rfl, by decide⟩, by decide⟩
/-- Values that open a window, that trap, and that close it. -/
theorem witness_CoreRegisterWriteRows :
    (∃ v : BitVec 64, bit v 63 = true ∧ runCore.winOk (fld v 62 41) (fld v 40 19) = true)
    ∧ (∃ v : BitVec 64, bit v 63 = true ∧ runCore.winOk (fld v 62 41) (fld v 40 19) = false) ∧ runCore.seq.ra = none ∧ bit runCore.seq.trap 63 = false :=
  ⟨⟨(1 : BitVec 64) <<< 63 ||| 0x2FFFE0 <<< 41 ||| 0x300000 <<< 19, by decide⟩, ⟨1 <<< 63, by decide⟩, by decide⟩
/-- A bank being zero-filled, a scrub that meets a single-bit error in its line, a spall-listed row. -/
theorem witness_ScratchpadCareRows :
    bit (setBit (0 : BitVec 12) 11 true) 11 = true ∧ bit runCore.sp.scrub 31 = true ∧ bit runCore.sp.ready (0x5FFFF / 0x8000) = true
    ∧ 0x5FFFF % 0x8000 / 16 = 2047 ∧ Tab.get 0 runCore.sp.rowErrs (0x5FFFF / 128) < 15 ∧ 0x5FFFF < 0x60000
    ∧ Tab.get 0 runCore.sp.spares 11 < 4 ∧ runCore.sp.retired.length ≤ 8 ∧ 11 * 256 + 255 ∈ [11 * 256 + 255] := by decide
/-- A core that waits with run-ahead enabled, and a WAITT whose time has come. -/
theorem witness_RunAheadAndTimeRelease :
    ((waitCore 0).seq.ra = none ∧ bit (waitCore 0).seq.raCfg 31 = true ∧ (waitCore 0).seq.pc.toNat < 4095)
    ∧ (∃ (b : Blocked) (f : BitVec 54), b.word.toNat = seqWord 0x38 g0 f.toNat ∧ fld f 15 0 = 0
      ∧ runCore.sreg (fld f 53 49) + BitVec.ofNat 64 (fld f 47 16) ≤ State.coreTime State.reset 0) :=
  ⟨by decide, { word := BitVec.ofNat 64 (seqWord 0x38 g0 0), since := 0, count := 0, fires := 0 }, 0, by decide⟩
/-- A running pass with two cores of which one is done. -/
def passState : State :=
  { mapState runCore with ledger := { Ledger.reset with state := .running, passNum := 1, expect := 2, doneSet := [0], parts := [0, 1], limitMs := 1 } }
theorem witness_DoneAndAbortDecideTheOutcome :
    passState.ledger.doneSet.contains ((1 : BitVec 15).toNat % 0x4000) = false ∧ passState.ledger.expect.toNat ≤ passState.ledger.doneSet.length + 1
    ∧ ({ Ledger.reset with state := .running, expect := 3 } : Ledger).expect.toNat > 1
    ∧ (∃ p ∈ passState.ledger.parts, passState.ledger.acked.contains p = false ∧ passState.ledger.lost.contains p = false ∧ passState.stopPruned p = false) :=
  ⟨by decide, by decide, by decide, 0, by decide⟩
theorem witness_StopOfAnAbortedPass :
    ({ passState with ledger := { passState.ledger with state := .quiescing } } : State).ledger.state = .quiescing ∧ 0 ∈ passState.ledger.parts
    ∧ runCore.fenced = false ∧ runCore.seq.stopping = false ∧ runCore.units.sb = []
    ∧ passState.tclk + 500000 ≥ passState.ledger.abortAt + 500000 ∧ 1 ∉ passState.ledger.acked := by decide
theorem witness_PassRecordPosted : ({ Ledger.reset with state := .ended } : Ledger).state = .ended := rfl
theorem witness_LaunchRows :
    ({ passState.ledger with state := .launching } : Ledger).state = .launching ∧ 0 ∈ passState.ledger.parts ∧ runCore.seq.passNum ≠ passState.ledger.passNum
    ∧ passState.ledger.flip = false ∧ passState.ledger.timed = false ∧ passState.ledger.pass = none
    ∧ (State.coreTime passState 0).toNat < ({ passState.ledger with timed := true, tLaunch := 2000 } : Ledger).tLaunch.toNat := by decide
/-- A queued pass of placement 5 and a registered placement 5 with core 0, which that core holds in its front slot. -/
def onePass : QPass :=
  { cmd := cmdOf 0x20 0, ctx := 0, handle := 5, timed := false, flip := false, chain := false, tAuto := false, t := 0, params := 0 }
def pickCore : Core := { runCore with res0 := { ResSlot.reset with state := .ready, handle := 5 } }
def pickState : State :=
  { mapState pickCore with
    dir := [(5, { DirEntry.reset with valid := true, ncores := 1, setts := 1, banks := 0xFFF, cores := [0], param := 0xFFFFFFFF })]
    ctxs := [(0, some { closing := false, home := 0, bound := [0], weight := 16, limitMs := 100, deficit := 0, jobId := 0, cookie := 0, evq := none, events := [],
                        reserve := [], regions := [], hint := none, pin := some 5, pinAt := 0, invalid := false, digest := 0, slots := 0, shadowOn := false,
                        launched := 0, rrLast := none, closers := [], handoff := false })]
    sched := { State.reset.sched with picked := some { pass := onePass, pickedT := 0, flipT := none, flipAt := 0 } } }
/-- The running pass at a panel whose G0 has its clock. -/
def liveState : State := passState.modGal 0 fun g => { g with clk := { g.clk with status := 0x20000000 } }
theorem witness_PickingAndFilling :
    passState.ledger.state = .running ∧ passState.ledger.tLaunch.toNat + passState.ledger.limitMs.toNat * 1000000
      ≤ (State.g0Time { liveState with tclk := 1000000 }).toNat
    ∧ (State.g0Time passState).toNat < passState.ledger.tLaunch.toNat + passState.ledger.limitMs.toNat * 1000000
    ∧ pickState.ledger.state = .idle ∧ pickState.launchHeld = false ∧ pickState.refusal onePass = none ∧ pickState.isStale 5 = false
    ∧ pickState.resident 5 = true ∧ pickState.physOf (pickState.entry 5).cores = [0] ∧ pickState.inBack 5 = false
    ∧ pickState.openCtxs = [0] ∧ pickState.fill.queue = [] ∧ pickState.fill.running = none := by decide +kernel
theorem witness_MapChangeRows :
    State.reset.map.published = false ∧ State.reset.power.jobs = [] ∧ (mapState runCore).map.published = true ∧ State.reset.sched.picked = none
    ∧ bit (State.reset.sett 0).gate (State.reset.gateBit 0) = true
    ∧ bit ((State.reset.setSett 0 { State.reset.sett 0 with gate := 0 }).sett 0).gate 0 = false := by decide
/-! ### Premises: packets, loads, routers -/

/-- A panel of one row with site 0 powered and stack 21 READY, whose sump admits context 18 to its region of chapter 12. -/
def fabState (c : Core) : State :=
  ((mapState c).modSump 21 fun x => { x with status := 0x20000000, regions := [(0, 0xE0120010FF000900)] }).modSett 0 fun x =>
    { x with pwrStat := setFld x.pwrStat 23 20 2 }
/-- A read of 64 bytes of the region, a write of 8 bytes to it, a hint, a retract. -/
def rdPkt : Packet := { Packet.empty with opc := 1, tc := 1, sclass := 1, daddr := 0x12345000, ctx := 18, len := 64, didx := 277 }
def wrPkt : Packet := { Packet.empty with opc := 3, tc := 2, sclass := 1, daddr := 0x12345000, ctx := 18, len := 8, didx := 277, data := [1, 2, 3, 4, 5, 6, 7, 8] }
def hintPkt : Packet := { Packet.empty with opc := 9, tc := 1, sclass := 1, daddr := 0x12345000, ctx := 18, didx := 277, aux := 4096 }
def retrPkt : Packet := { Packet.empty with opc := 8, tc := 0, sclass := 1, daddr := 0x12345000, ctx := 18, didx := 277, aux := 1 }
theorem witness_PacketsAtStacks :
    ((fabState runCore).sump 21).ready = true ∧ decodeAddr rdPkt.daddr.toNat = .hbm 21 0x91A000
    ∧ isPacket rdPkt 1 ∧ ((fabState runCore).sump 21).admits 18 0x91A000 64 false = true ∧ ((fabState runCore).sump 21).admits 17 0x91A000 64 false = false
    ∧ isPacket wrPkt 3 ∧ ((fabState runCore).sump 21).admits 18 0x91A000 (payloadOf wrPkt).length true = true
    ∧ isPacket hintPkt 9 ∧ (∀ e ∈ hintStripes hintPkt 21, ((fabState runCore).sump 21).admits 18 e.1 e.2 false = true) ∧ hintStripes hintPkt 21 ≠ []
    ∧ isPacket retrPkt 8 ∧ (fabState runCore).flight = [] := by
  unfold isPacket; decide
theorem witness_clean : ((fabState runCore).sump 21).clean := by unfold Sump.clean; decide
/-- Packets to core 0: a read of its scratchpad, a write that no window admits, a token, a credit. -/
def padRd : Packet := { Packet.empty with opc := 1, tc := 1, sclass := 1, daddr := padAddr 0 0x1000, len := 64 }
def padWr : Packet := { Packet.empty with opc := 3, tc := 2, sclass := 1, daddr := padAddr 0 0x1000, len := 8, data := [1, 2, 3, 4, 5, 6, 7, 8] }
def tokPkt : Packet := { Packet.empty with opc := 6, sclass := 1, daddr := padAddr 0 0, aux := 5 * 65536 + 3 }
def crdPkt : Packet := { Packet.empty with opc := 7, sclass := 1, daddr := padAddr 0 0, aux := 5 * 65536 + 3 }
theorem witness_PacketsAtCores :
    (fabState runCore).liveCore 0 = some 0 ∧ decodeAddr padRd.daddr.toNat = .pad 0 0x1000 ∧ isPacket padRd 1 ∧ isPacket padWr 3 ∧ isPacket tokPkt 6
    ∧ isPacket crdPkt 7 ∧ runCore.ownOk 0x1000 64 = true ∧ (runCore.remoteWrite 1 0 0x1000 padWr.data).2 = stWindow
    ∧ ((runCore.openWin 2 (winImage 0x1000 0x2000) 0x1F00000000).remoteWrite 1 0 0x1000 padWr.data).2 = stOk
    ∧ runCore.cbForTok 5 = none ∧ runCore.tokCount 5 + 3 ≤ 65535
    ∧ runCore.crdCount 5 + 3 ≤ ({ runCore with seq := { runCore.seq with crd := [(5, 16 * 65536)] } } : Core).crdLimit 5 := by
  unfold isPacket; decide
/-- An answer to a read of one piece, and an acknowledgement of a write of one piece. -/
theorem witness_answers :
    (∃ (k : Packet) (e : Piece), isPacket k 2 ∧ e.hits k = true ∧ k.status = stOk ∧ k.data ≠ [] ∧ e.bytes ≤ k.data.length
      ∧ ¬ (k.stream = streamTap ∧ k.src.toNat / 0x1000 = 5) ∧ decodeAddr k.daddr.toNat = .pad 0 0x1000)
    ∧ (∃ (k : Packet) (e : Piece), isPacket k 4 ∧ e.hits k = true ∧ nfld k.aux.toNat 47 32 = 1) := by
  unfold isPacket
  exact ⟨⟨{ Packet.empty with opc := 2, tc := 2, sclass := 3, daddr := padAddr 0 0x1000, len := 8, data := [1, 2, 3, 4, 5, 6, 7, 8] },
      { node := 0, stream := 0, seq := 0, bytes := 8 }, by decide⟩,
    ⟨{ Packet.empty with opc := 4, sclass := 3, aux := 2 ^ 32 }, { node := 0, stream := 0, seq := 0, bytes := 0 }, by decide⟩⟩
/-- A load at the head of the queue whose entry is absent, one whose entry is invalid, a link that is down and one that is up. -/
theorem witness_ResidencyLoadRows :
    (State.reset.entry 7).valid = false ∧ (pickState.entry 5).valid = true ∧ pickState.entryValid (pickState.entry 5) = true
    ∧ pickState.displacesFlip 5 = false ∧ pickState.fill.running = none ∧ pickState.sched.held = false
    ∧ (State.reset.gal 0).linkUp = false ∧ ((State.reset.modGal 0 fun g => { g with linkUp := true }).gal 0).linkUp = true := by decide
/-- A message of another pass, one whose core has no valid flow, an idle and a running ledger, a lane with 16 failed replays. -/
theorem witness_MeshRows :
    (∃ m : MeshMsg, m.tag ≠ passState.ledger.passNum.setWidth 4) ∧ (∃ m : MeshMsg, m.tag = passState.ledger.passNum.setWidth 4)
    ∧ State.reset.ledger.state = .idle ∧ passState.ledger.state ≠ .ended ∧ passState.ledger.state ≠ .idle
    ∧ 16 ≤ Tab.get 0 ((State.reset.modSett 0 fun x => { x with laneFails := [(9, 16)] }).sett 0).laneFails 9 :=
  ⟨⟨{ id := 0, src := 0, tid := 0, grp := 0, flow := 0, dest := 1, off := 0, tag := 2, data := [] }, by decide⟩,
    ⟨{ id := 0, src := 0, tid := 0, grp := 0, flow := 0, dest := 1, off := 0, tag := 1, data := [] }, by decide⟩, by decide⟩
/-- A router whose entry for node 277 delivers from the ring, and sends on by port 1 when injected; a packet in flight. -/
theorem witness_RouterRows :
    rdPkt ∈ ({ State.reset with flight := [rdPkt] } : State).flight ∧ packetOk rdPkt = true ∧ packetOk Packet.empty = false
    ∧ bit ((State.reset.router (.sett 0)).entryFor rdPkt) 31 = false ∧ expectsReply 1 = true ∧ expectsReply 4 = false
    ∧ (∃ e : BitVec 32, bit e 31 = true ∧ entryField e .injected = 0) ∧ (∃ e : BitVec 32, bit e 31 = true ∧ entryField e .injected = 1)
    ∧ (portRing (.sett 0) 1).isSome = true ∧ Router.reset.folded 1 = false ∧ (Router.reset.foldHw 1).folded 1 = true
    ∧ Tab.get 0 (State.reset.router (.sett 0)).fails 1 < 16 :=
  ⟨by decide, by decide, by decide, by decide, by decide, by decide, ⟨0x80000000, by decide⟩, ⟨0x91111111, by decide⟩, by decide⟩
/-- A drain that is not busy, one that drains at its limit, a beacon due at a live G0, a broken and a sound beacon frame. -/
theorem witness_DrainAndBeaconRows :
    State.reset.drain.busy = false ∧ bit (BitVec.ofNat 64 (2 ^ 42)) 42 = true ∧ State.reset.drain.state = 0
    ∧ ({ State.reset.drain with reg := setFld State.reset.drain.reg 63 61 2 } : Drain).state = 2
    ∧ 0 + fld (setFld State.reset.drain.reg 63 61 2) 31 0 * 1000 ≤ 1000000
    ∧ (liveState.island (.gal 0)).live = true ∧ (State.g0Time { liveState with tclk := 1024 }).toNat % 1024 = 0
    ∧ (State.g0Time { liveState with tclk := 1023 }).toNat % 1024 ≠ 0
    ∧ beaconOk 1 = false ∧ (State.reset.island (.gal 0)).live = false := by decide
/-! ### Premises: clocks, power, thermal, stacks, bring-up, firmware, interrupts -/

/-- A sett whose island is LOCKED to input 1 at 800 MHz with target 64, all phases up. -/
def liveSett : Sett :=
  { Sett.reset 0 with clk := { Island.reset 0x404020207F084000 with status := 0x21000000 + 800 }, pwrStat := setFld (setFld 0 47 40 255) 23 20 2 }
/-- The panel with this sett at site 0. -/
def settState : State := (mapState runCore).setSett 0 liveSett
theorem witness_ClockRows :
    fld ((settState.island (.sett 0)).status) 31 28 = 2 ∧ fld ((settState.island (.sett 0)).status) 27 24 = 1 ∧ refList (settState.refCfg (.sett 0)) ≠ []
    ∧ liveSett.clk.live = true ∧ liveSett.clk.safe = false ∧ fld liveSett.clk.status 10 0 < 25 * fld liveSett.clk.aclk 62 56
    ∧ ({ liveSett.clk with status := setBit liveSett.clk.status 23 true } : Island).safe = true
    ∧ passed none 5 1000 = true ∧ passed (some 5) 1004 1000 = false ∧ passed (some 5) 1005 1000 = true ∧ fld liveSett.clk.aclk 30 24 = 127
    ∧ fld (0x404020207E084000 : BitVec 64) 30 24 ≠ 127 := by decide
/-- Meadow 0 ON with its connectors carrying load; connector 1 open or with a baseline; the last phase of a site. -/
def onState : State := { settState with power := { settState.power with meadow := [(0, 0x3000000000000000)] } }
theorem witness_PowerFailureRows :
    onState.meadowState 0 = 3 ∧ 1 ≤ (1 : BitVec 4).toNat ∧ (6 : BitVec 4).toNat ≤ 6 ∧ 6 < (7 : BitVec 4).toNat
    ∧ Tab.get 0 ({ onState.power with shortAt := [(0, 1)] } : Power).shortAt 0 = 0 + 1
    ∧ bit (onState.feed 1) 61 = false ∧ ((feedsOf 0).filter fun k => k ≠ 1 && !bit (onState.feed k) 61).length = 3
    ∧ bit ((onState.modFeed 1 fun x => setBit x 61 true).feed 1) 61 = true
    ∧ fld ((onState.modFeed 1 fun x => setFld x 31 16 300).feed 1) 31 16 = 300 ∧ 2000 < (2001 : BitVec 16).toNat
    ∧ bit liveSett.pwrStat 47 = true ∧ ({ liveSett with pwrStat := setBit liveSett.pwrStat 47 false } : Sett).phases = 7
    ∧ bit liveSett.pwrStat 39 = false := by decide
theorem witness_PowerSharingRows :
    0 ∈ onState.liveSites ∧ phaseMax liveSett.phases = 1100 ∧ 100 * State.reset.capPanel < 270001
    ∧ onState.inrushAllowed = true ∧ 4000 ≤ onState.grantFor 1000 ∧ onState.grantFor 270000 < 4000
    ∧ (∃ q : InrushReq, q.cmd = none ∧ q.deferred = true) ∧ ({ onState.power with meadow := [(0, 0x2000000000000000)], phase := [(0, 3)] } : Power).phase = [(0, 3)]
    ∧ onState.drain.busy = false ∧ onState.ledger.state = .idle ∧ (∀ e ∈ onState.cores, e.2.meshBusy = false) :=
  ⟨by decide, by decide, by decide, by decide, by decide, by decide, ⟨{ meadow := 0, cmd := none, deferred := true, since := 0 }, by decide⟩, rfl, by decide,
    by decide, by decide⟩
theorem witness_ThermalRows :
    State.reset.thermal.rises 0 = false ∧ State.reset.thermal.stopFlow 0 = true ∧ ({ State.reset.thermal with lowRun := 5 } : Thermal).lowRun = 5
    ∧ ({ State.reset.thermal with outlets := [0] } : Thermal).rises 2000 = true ∧ bit State.reset.thermal.status 62 = false
    ∧ State.reset.thermal.badRun ≠ 4 ∧ (onState.sett 0).powered = true ∧ (State.reset.sett 0).powered = false ∧ State.reset.pins.rimGood = true
    ∧ bit State.reset.thermal.status 63 = false ∧ -640 ≤ (2400 : BitVec 16).toInt ∧ (2400 : BitVec 16).toInt ≤ 2400 := by decide
/-- Chapter 12: address 0x0000_1234_5000 lies in stack 21 at offset 0x91_A000. -/
theorem witness_InterleaveIsABijection : hbmStack 0x12345000 = 21 ∧ hbmOff 0x12345000 = 0x91A000 ∧ hbmAddr 31 0xFFFFFFFFF < 0x20000000000 := by decide
/-- A stack in training, one that is READY with a listed row, one with a region to fill. -/
theorem witness_StackRows :
    ({ Sump.reset with status := 0x10000000 } : Sump).state = 1 ∧ fld ({ State.reset.boot with status := 0x3000000000000000 } : Boot).status 63 60 = 3
    ∧ ({ Sump.reset with status := 0x20000000 } : Sump).ready = true ∧ Sump.reset.paused 0 = false ∧ ({ Sump.reset with ref := 1 } : Sump).paused 0 = true
    ∧ bit Sump.reset.scrub 31 = true ∧ Sump.reset.retiredAt 0 128 = false ∧ ({ Sump.reset with spall := [5] } : Sump).spall.contains 5 = true
    ∧ Sump.reset.told = false ∧ Sump.reset.fills = [] ∧ State.reset.host.inProg = [] := by decide
/-- The first phases of bring-up from reset, a bench under way, the last soak, a recovery that waits. -/
theorem witness_BringUpRows :
    State.reset.boot.running = true ∧ State.reset.boot.recovery = false ∧ State.reset.boot.resetAt = none ∧ fld State.reset.boot.status 63 60 = 0
    ∧ State.reset.nv.part ≠ 3 ∧ State.reset.nv.imageOk = true ∧ (∀ k < 32, (State.reset.sump k).state ≠ 1)
    ∧ ({ State.reset with boot := { State.reset.boot with status := 0x4000000000000000 } } : State).bench = some 0
    ∧ ({ State.reset with boot := { State.reset.boot with soaking := true, soakDone := 7 } } : State).boot.soakDone / 2 = 3
    ∧ fld ({ State.reset.boot with recCtrl := 7 } : Boot).recCtrl 14 0 < 8 ∧ 16384 < fld ({ State.reset.boot with recCtrl := 16385 } : Boot).recCtrl 14 0
    ∧ fld ({ State.reset.boot with recCtrl := 8 } : Boot).recCtrl 30 28 = 0 := by decide
/-- A running and a restarting management core, a powered site with two missed probes, an announcement, an update under way. -/
theorem witness_FirmwareRows :
    ((State.reset.modGal 1 fun x => { x with mcStat := [(2, 0x10000000)] }).mcState 1 2) = 1
    ∧ ((State.reset.modGal 1 fun x => { x with mcStat := [(2, 0x30000000)] }).mcState 1 2) = 3 ∧ State.reset.mcState 1 2 = 0
    ∧ (onState.sett 0).powered = true ∧ onState.siteGone 0 = false ∧ (onState.sett 0).missed < 2 ∧ 2 ≤ ({ liveSett with missed := 2 } : Sett).missed
    ∧ (∃ k : Packet, k.sclass = 4 ∧ k.opc = 15 ∧ k.aux.toNat < 2) ∧ bit State.reset.fw.state 57 = false ∧ State.reset.fw.phase = 0
    ∧ ({ State.reset.fw with state := 0x4200000000000000 } : Fw).phase = 4 ∧ bit ({ State.reset.fw with state := 0x4200000000000000 } : Fw).state 57 = true
    ∧ State.reset.fw.tAct = none ∧ State.reset.fw.tries < 2 :=
  ⟨by decide, by decide, by decide, by decide, by decide, by decide, by decide, ⟨{ Packet.empty with opc := 15, sclass := 4 }, by decide⟩, by decide⟩
/-- A gallery with source 258 enabled, pending and targeted at core 1. -/
def icuGal : Gallery := { Gallery.reset with icuCtrl := 0, icuSrc := [(258, 0x88000001 + 2 ^ 24)] }
theorem witness_InterruptRows :
    hasSource 0 256 = true ∧ (∀ b < 4, ∀ n < 8, (State.reset.gal 0).claimable b n = false)
    ∧ Tab.get 0 ({ icuGal with claims := [(258, 2)] } : Gallery).claims 258 = (1 : Fin 4).val + 1 ∧ levelSource 258 = true ∧ levelSource 256 = false := by decide
/-- Core 1 may claim source 258 of icuGal and no other. -/
theorem witness_claim : icuGal.claimable 1 258 = true ∧ ∀ m, icuGal.claimable 1 m = true → m = 258 := by
  refine ⟨by decide, fun m h => ?_⟩
  by_contra hm
  have e : icuGal.icu m = icuReset m := by
    have : ¬ 258 = m := fun e => hm e.symm
    simp [icuGal, Gallery.icu, Tab.get, this]
  have z : (icuReset m).toNat % 2 = 0 := by
    simp only [icuReset, BitVec.toNat_ofNat]
    split <;> split <;> omega
  simp [Gallery.claimable, e, bit] at h
  omega
/-! ### Premises: hosts, security, commands, spans -/

/-- An open context homed on function 0. -/
def oneCtx : Ctx :=
  { closing := false, home := 0, bound := [0], weight := 16, limitMs := 100, deficit := 0, jobId := 9, cookie := 7, evq := none, events := [], reserve := [],
    regions := [], hint := none, pin := none, pinAt := 0, invalid := false, digest := 0, slots := 0, shadowOn := false, launched := 0, rrLast := none,
    closers := [], handoff := false }
/-- A command of the admin queue of PF0 of port 0 for context 3 (R318: the opcode is bits 63 to 56 of word 0, the context bits 47 to 38). -/
def adminCmd (op w2 : BitVec 64) : Cmd := { src := .queue 0 0 0, desc := { w0 := op <<< 56 ||| 3 <<< 38, w1 := 0, w2 := w2, w3 := 0, w4 := 0, w5 := 0, w6 := 0, w7 := 0, ext := none } }
/-- The panel READY with link 0 up, context 3 open, admin queue of PF0 of port 0 with one entry to fetch and one record due, and a command whose turn has
come. -/
def hostState (c : Cmd) : State :=
  { (mapState runCore).modGal 0 (fun g => { g with linkUp := true }) with
    boot := { State.reset.boot with status := 0x6000000000000000, running := false }
    ctxs := [(3, some oneCtx)]
    host := { State.reset.host with
      toDo := [c], inProg := [c]
      qps := [(qpKey 0 0, some { ctx := 0, sqBase := 0, cqBase := 0, sqDepth := 8, cqDepth := 8, sqHead := 0, sqTail := 2, cqHead := 0, cqTail := 0, phase := true,
                                 vector := 0, ien := true, thresh := 0, time := 1, unsig := 1, unsigAt := 0, error := false, reserved := 0, deleting := false,
                                 due := [cmdAnswer c 0], deleter := [] })] } }
/-- The state in which the command is carried out. -/
def carried (c : Cmd) : State := { hostState c with host := { (hostState c).host with toDo := [] } }
theorem witness_HostInterfaceRows :
    (hostState (adminCmd 1 0)).fnExists 0 0 = true ∧ ((hostState (adminCmd 1 0)).qp (qpKey 0 0)).isSome = true ∧ (hostState (adminCmd 1 0)).qp (qpKey 0 1) = none
    ∧ (∃ q, (hostState (adminCmd 1 0)).qp (qpKey 0 0) = some q ∧ (hostState (adminCmd 1 0)).mayFetch (qpKey 0 0) q = true ∧ 2 ≤ ringUsed q.sqDepth q.sqHead q.sqTail
        ∧ q.due ≠ [] ∧ q.unsig ≠ 0 ∧ q.time ≠ 0 ∧ q.unsigAt + 100 * q.time.toNat ≤ 100 ∧ (7 : Nat) < q.sqDepth ∧ q.sqDepth ≤ (8 : Nat))
    ∧ (hostState (adminCmd 1 0)).fnLive 0 = true ∧ 1 ∈ opcodes ∧ 0 ∉ opcodes ∧ (hostState (adminCmd 1 0)).permitted (adminCmd 1 0) = true
    ∧ (State.reset.gal 0).linkUp = false ∧ (State.reset.gal 0).failed = false ∧ (State.reset.gal 0).vfsOn = false
    ∧ ({ Fn.reset with aqCfg := 0x00070007 } : Fn).aqCfg ≠ 0 ∧ fld ({ Fn.reset with aqCfg := 0x00070007 } : Fn).aqCfg 27 16 = 7 :=
  ⟨by decide, by decide, by decide, ⟨_, rfl, by decide⟩, by decide⟩
/-- An access that no block answers, one of GAL_SHAPE_GEN of G0, and a TAP at each level. -/
theorem witness_AccessRows :
    (hostState (adminCmd 1 0)).blockStatus 2 0x700000000000 ≠ 0 ∧ (hostState (adminCmd 1 0)).served = true ∧ State.reset.pins.rimGood = true
    ∧ (hostState (adminCmd 1 0)).fnExists 0 0 = true ∧ State.reset.sec.level ≠ 2 ∧ State.reset.served = false
    ∧ ({ State.reset.pins with rimGood := false } : Pins).rimGood = false ∧ ({ State.reset.boot with recovery := true } : Boot).recovery = true
    ∧ State.reset.resolve true 0x700000000000 = .error stUnmapped := by decide
theorem witness_SpdmRows :
    State.reset.mctpUp = false ∧ (hostState (adminCmd 1 0)).mctpUp = true ∧ (hostState (adminCmd 1 0)).fw.restarting = false
    ∧ (hostState (adminCmd 1 0)).applying = false ∧ (hostState (adminCmd 1 0)).nv.lifecycle ≠ 0 ∧ (hostState (adminCmd 1 0)).nv.lifecycle ≠ 3 := by decide
/-- SEC_AUTH READY with an operation that the lifecycle allows, one that it does not; a signature is a free value, so both of its verdicts stand as
premises. -/
theorem witness_AuthRows :
    (∃ s : State, s.sec.state = 1 ∧ s.authBusy = false ∧ opAllowed 3 s.nv.lifecycle = true ∧ opAllowed 2 s.nv.lifecycle = false ∧ s.ctxs = []
      ∧ s.tclk ≤ s.sec.nonceAt + 600000000000 ∧ (s.authSigned 3 = true ∨ s.authSigned 3 = false))
    ∧ (∃ s : State, s.sec.state = 3 ∧ fld s.sec.authCtrl 7 0 = 7) ∧ State.reset.sec.level ≠ 2 :=
  ⟨⟨{ State.reset with sec := { State.reset.sec with authCtrl := setFld 0 29 27 1 } }, by decide, by decide, by decide, by decide, by decide, by decide,
      by cases State.authSigned _ 3 <;> simp⟩,
    ⟨{ State.reset with sec := { State.reset.sec with authCtrl := setFld (setFld 0 29 27 3) 7 0 7 } }, by decide⟩, by decide⟩
/-- The turn of a command has come, and no check stops it. -/
theorem witness_turn : (hostState (adminCmd 5 0)).turn (adminCmd 5 0) 5 (carried (adminCmd 5 0)) := by
  unfold State.turn; exact ⟨by decide, by decide, by decide, by decide, by decide, by decide, rfl⟩
/-- A command whose turn has not come, one whose context is gone. -/
theorem witness_CommandTurns :
    (adminCmd 5 0).op ≠ 4 ∧ State.reset.host.toDo.find? (fun d => d.src = (adminCmd 5 0).src) ≠ some (adminCmd 5 0)
    ∧ (adminCmd 5 0).op = 5 ∧ ({ hostState (adminCmd 5 0) with ctxs := [] } : State).ctxOk (adminCmd 5 0) = false := by decide
theorem witness_ContextCommands :
    (hostState (adminCmd 1 0)).turn (adminCmd 1 0) 1 (carried (adminCmd 1 0)) ∧ (hostState (adminCmd 1 0)).ctx 0 = none
    ∧ (hostState (adminCmd 5 0)).ctx (adminCmd 5 0).ctx = some oneCtx ∧ (adminCmd 3 7).desc.w2 = oneCtx.cookie ∧ 0 ∈ oneCtx.bound
    ∧ (hostState (adminCmd 6 0)).qp (qpKey 0 1) = none ∧ ((hostState (adminCmd 1 0)).fn 0).maxCtx = 0 := by
  unfold State.turn
  exact ⟨⟨by decide, by decide, by decide, by decide, by decide, by decide, rfl⟩, by decide, by decide, by decide, by decide, by decide, by decide⟩
/-- A context that owns a placement, and one that does not. -/
theorem witness_PlacementCommands :
    (hostState (adminCmd 0x19 5)).turn (adminCmd 0x19 5) 0x19 (carried (adminCmd 0x19 5)) ∧ (hostState (adminCmd 0x19 5)).owns 3 5 = false
    ∧ ({ hostState (adminCmd 0x19 5) with dir := [(5, { DirEntry.reset with valid := true, ctx := 3 })] } : State).owns 3 5 = true
    ∧ ({ hostState (adminCmd 0x19 5) with dir := [(5, { DirEntry.reset with valid := true, ctx := 3 })] } : State).needed 5 = false
    ∧ ({ hostState (adminCmd 0x19 5) with dir := [(5, { DirEntry.reset with valid := true, ctx := 3 })] } : State).passNames 5 = false := by
  unfold State.turn
  exact ⟨⟨by decide, by decide, by decide, by decide, by decide, by decide, rfl⟩, by decide⟩
/-- A DRAIN over MCTP, a panel reset over both paths, and the event packet of a thermal alarm. -/
theorem witness_ManagementCommands :
    (hostState (cmdOf (0x30 <<< 56) 0)).turn (cmdOf (0x30 <<< 56) 0) 0x30 (carried (cmdOf (0x30 <<< 56) 0)) ∧ (hostState (cmdOf (0x30 <<< 56) 0)).drain.busy = false
    ∧ (hostState (cmdOf (0x36 <<< 56) 0)).turn (cmdOf (0x36 <<< 56) 0) 0x36 (carried (cmdOf (0x36 <<< 56) 0)) ∧ (adminCmd 0x36 0).src ≠ .mctp
    ∧ (∃ k : Packet, isPacket k 13 ∧ 288 ≤ k.didx.toNat ∧ k.didx.toNat < 292 ∧ 0x83 ≤ k.aux.toNat ∧ k.aux.toNat ≤ 0x88)
    ∧ (hostState (cmdOf (0x30 <<< 56) 0)).fw.cmd = none ∧ (hostState (cmdOf (0x30 <<< 56) 0)).applying = false ∧ (hostState (cmdOf (0x30 <<< 56) 0)).span.panelEpoch.epoch.toNat < 1 := by
  unfold State.turn isPacket
  exact ⟨⟨by decide, by decide, by decide, by decide, by decide, by decide, rfl⟩, by decide, ⟨by decide, by decide, by decide, by decide, by decide, by decide, rfl⟩,
    by decide, ⟨{ Packet.empty with opc := 13, sclass := 4, didx := 288, aux := 0x86 }, by decide⟩, by decide⟩
/-- A member of a span with engine 0 UP, and the lead of one. -/
def spanState (lead : Bool) : State :=
  { liveState with span := { State.reset.span with record := { spanId := 7, index := 2, lead := lead }, joined := true } }
theorem witness_SpanRows :
    (spanState false).inSpan = true ∧ State.reset.inSpan = false ∧ (spanState false).isLead = false ∧ (spanState true).isLead = true
    ∧ ((spanState false).gal 0).failed = false ∧ (spanState false).pins.rimGood = true ∧ (spanState false).penState 0 = 0
    ∧ (((spanState false).modGal 0 fun g => { g with penLink := [(0, setFld 0 63 60 2)] }).penState 0) = 2
    ∧ (((spanState false).modGal 0 fun g => { g with penLink := [(0, setFld 0 63 60 2)] }).engineUp 0) = true
    ∧ (spanState true).span.timeAt + 8192 ≤ ({ spanState true with tclk := 8192 } : State).tclk ∧ (spanState false).span.waiting = none
    ∧ ((spanState true).island (.gal 0)).live = true := by decide
theorem witness_SpanDataRows :
    (spanState false).span.due = [] ∧ (spanState false).span.handoffs = [] ∧ (∃ f : Prefix, f.jobId = 0 ∧ f.mc = false ∧ f.dstPanel.val ≠ (spanState false).ownIndex ∧ 2 ≤ f.ttl.toNat)
    ∧ (∃ f : Prefix, f.jobId = 0 ∧ f.mc = false ∧ f.dstPanel.val = (spanState false).ownIndex ∧ f.mask = 0)
    ∧ (∃ j : CopyJob, j.paired = false ∧ j.since + 10000000000 ≤ ({ spanState false with tclk := 10000000000 } : State).tclk) :=
  ⟨rfl, rfl, ⟨{ srcPanel := 1, dstPanel := 3, mc := false, ttl := 2, jobId := 0, epoch := 0, mask := 0 }, by decide⟩,
    ⟨{ srcPanel := 1, dstPanel := 2, mc := false, ttl := 2, jobId := 0, epoch := 0, mask := 0 }, by decide⟩,
    ⟨{ cmd := cmdOf (0x33 <<< 56) 0, ctx := 0, recv := true, peer := 1, session := 0, paired := false, regions := [], off := 0, moved := 0, unacked := [], since := 0,
       sent := false }, by decide⟩⟩
/-- A step that answers, from a legal vault. -/
theorem witness_NoCommandTurnsSecurityBack : (∃ t, Machine.step State.reset = .next t) ∧ State.reset.nv.vault.ok := by
  refine ⟨⟨_, rfl⟩, ?_⟩
  unfold Vault.ok; decide
theorem witness_CommandsLeaveTheQueue : ∃ t, Machine.exec .idcode State.reset = .next t := ⟨_, rfl⟩
theorem witness_LogicalPlacesAreUnique :
    (mapState runCore).siteOfSett 0 = some 0 ∧ (mapState runCore).settAt 0 = some 0 ∧ (mapState runCore).coreAt 1023 = some (72 * 15 + 9 * 7 + 7) := by decide

end Sys2Proof.Tests
end

section
/-! SUPPORT. The rows of the sequencer: what each is at its core, and what a false guard leaves of it. -/

namespace Sys2Proof.Machine

/-- Every sequencer row is the issue, at its core and under its guard, of a word whose FN code and operands fit the 54 bits below the guard (R180).
The rows differ in how those bits are shared: an FN code above 48 bits, one above 50 bits, or operands alone. -/
theorem exec_seqRow {i : Instr} {p : PCore} {g : Guard} (h : seqParts i = some (p, g)) :
    ∃ (op b : Nat) (body : Body), b < 2 ^ 54 ∧ ∀ s : State, exec i s = .next (s.issue p.val op g b body) := by
  cases i with
  | nop _ _ b | pdone _ _ b | brk _ _ b | seqFence _ _ b | lil _ _ b | lih _ _ b | ext _ _ b | dep _ _ b | j _ _ b | jal _ _ b | jr _ _ b =>
    cases h
    have hb : b.toNat < 2 ^ 48 := b.isLt
    exact ⟨_, _, _, by omega, fun _ => rfl⟩
  | rdreg _ _ b | wrreg _ _ b | rdtime _ _ b | rdlaunch _ _ b | movu _ _ b | rdid _ _ b =>
    cases h
    have hb : b.toNat < 2 ^ 50 := b.isLt
    exact ⟨_, _, _, by omega, fun _ => rfl⟩
  | aluR _ _ b | aluI _ _ b | ld _ _ b | st _ _ b | bcmp _ _ b | pset _ _ b | bsum _ _ b | psum _ _ b | plog _ _ b
  | mmaOs _ _ b | mmaWs _ _ b | wload _ _ b | accLoad _ _ b | drain _ _ b | vchain _ _ b | fill _ _ b | copy _ _ b
  | frd _ _ b | fwr _ _ b | mcw _ _ b | hint _ _ b | msend _ _ b | dwait _ _ b | twait _ _ b | cwait _ _ b | tsend _ _ b | cret _ _ b
  | wopen _ _ b | wclose _ _ b | cbcfg _ _ b | cbpush _ _ b | cbpop _ _ b | cbaddr _ _ b | waitt _ _ b =>
    cases h
    exact ⟨_, _, _, b.isLt, fun _ => rfl⟩
  | _ => cases h

/-- Settles O3: each sequencer row is an issue under its guard, and an issue whose guard reads false only moves the PC on (`issue_false`). -/
theorem falseGuardOnlyAdvances : Obligations.FalseGuardOnlyAdvances := by
  intro i p g s hi hplain hfalse
  obtain ⟨op, b, body, hb, hexec⟩ := exec_seqRow hi
  rw [hexec s, issue_false hplain hb hfalse]

end Sys2Proof.Machine
end

section
/-! SUPPORT. The scalar ALU and the scalar memory rows: their bit fields, how they retire, and where they trap (R186 to R188). -/

namespace Sys2Proof

/-! ### Fields as bit vectors (R186, R187) -/

/-- A word is given by its bits. -/
theorem eq_of_bit {n : Nat} {x y : BitVec n} (h : ∀ i < n, bit x i = bit y i) : x = y := BitVec.eq_of_getLsbD_eq h

theorem bit_ofNat {n i : Nat} (v : Nat) : bit (BitVec.ofNat n v) i = (decide (i < n) && v.testBit i) := BitVec.getLsbD_ofNat n v i

theorem bit_and {n : Nat} (x y : BitVec n) (i : Nat) : bit (x &&& y) i = (bit x i && bit y i) := BitVec.getLsbD_and

theorem bit_ushiftRight {n : Nat} (x : BitVec n) (k i : Nat) : bit (x >>> k) i = bit x (k + i) := BitVec.getLsbD_ushiftRight x k i

theorem bit_append {n m : Nat} (x : BitVec n) (y : BitVec m) (i : Nat) : bit (x ++ y) i = if i < m then bit y i else bit x (i - m) := by
  refine BitVec.getLsbD_append.trans ?_
  split <;> rfl

theorem bit_extractLsb' {n : Nat} (x : BitVec n) (lo len i : Nat) : bit (x.extractLsb' lo len) i = (decide (i < len) && bit x (lo + i)) :=
  BitVec.getLsbD_extractLsb' lo len x i

/-- `sgn` reads the low n bits as two's complement, as `BitVec.toInt` does. -/
theorem sgn_eq_toInt {n : Nat} (hn : 0 < n) (v : Nat) : sgn n v = (BitVec.ofNat n v).toInt := by
  have h2 : 2 ^ n = 2 * 2 ^ (n - 1) := by rw [← Nat.pow_succ']; congr 1; omega
  rw [BitVec.toInt_eq_toNat_cond, BitVec.toNat_ofNat, sgn]
  by_cases h : v % 2 ^ n < 2 ^ (n - 1)
  · rw [if_pos h, if_pos (by omega)]
  · rw [if_neg h, if_neg (by omega)]; push_cast; rfl

/-- The low 32 bits of a word taken as a signed number are their sign extension (R186, R187). -/
theorem ofInt_sgn_fld {n : Nat} (b : BitVec n) : BitVec.ofInt 64 (sgn 32 (fld b 31 0)) = (b.extractLsb' 0 32).signExtend 64 := by
  have h : BitVec.ofNat 32 (fld b 31 0) = b.extractLsb' 0 32 := BitVec.eq_of_toNat_eq (by simp [fld])
  rw [sgn_eq_toInt (by decide), h, BitVec.signExtend]

/-- Writing the low 32 bits of a word to the upper half keeps the lower half (R187). -/
theorem setFld_upper {n : Nat} (x : BitVec 64) (b : BitVec n) :
    setFld x 63 32 (fld b 31 0) = b.extractLsb' 0 32 ++ x.extractLsb' 0 32 := by
  refine eq_of_bit fun i hi => ?_
  rw [bit_setFld (by decide) (by decide), bit_append, bit_extractLsb', bit_extractLsb', fld_testBit]
  by_cases h : i < 32
  · rw [if_neg (by omega), if_pos h, decide_eq_true h, Bool.true_and, Nat.zero_add]
  · rw [if_pos (by omega), if_neg h]

/-- A field of a word is the word shifted down and masked to the field's width (R187). -/
theorem ofNat_fld_eq_and (x : BitVec 64) (pos m : Nat) :
    BitVec.ofNat 64 (fld x (pos + m) pos) = (x >>> pos) &&& BitVec.ofNat 64 (2 ^ (m + 1) - 1) := by
  have hw : pos + m + 1 - pos = m + 1 := by omega
  refine eq_of_bit fun i hi => ?_
  rw [bit_and, bit_ushiftRight, bit_ofNat, bit_ofNat, fld_testBit, hw, Nat.testBit_two_pow_sub_one, decide_eq_true hi, Bool.true_and, Bool.true_and,
    Bool.and_comm]

end Sys2Proof

namespace Sys2Proof.Machine

/-- Beyond the table of R186 no function code is assigned. -/
theorem aluFn_unassigned {fn : Nat} {a b : BitVec 64} (h : 0x11 < fn) : aluFn fn a b = none := by
  obtain ⟨k, rfl⟩ : ∃ k, fn = k + 0x12 := ⟨fn - 0x12, by omega⟩
  rfl

/-! ### A row that writes one register, and a row that traps -/

section rows
variable {s : State} {p op b : Nat} {g : Guard} {body : Body}

/-- An instruction that writes a scalar register retires with that write. -/
theorem issue_setSreg {n : Nat} {v : BitVec 64} (hc : (s.core p).plain) (hb : b < 2 ^ 54) (hg : (s.core p).guarded g)
    (h : body s p (seqWord op g b) (s.core p) = ((s.core p).setSreg n v).retire) :
    s.issue p op g b body = s.setCore p ((s.core p).setSreg n v).wentOn :=
  issue_on hc hb hg h (setSreg_parts _ _ _)

/-- An instruction that traps for the first time, before it changes its core, changes the trap state alone (R177). -/
theorem issue_trapped {cause addr : Nat} (hc : (s.core p).plain) (hb : b < 2 ^ 54) (hg : (s.core p).guarded g)
    (ht : bit (s.core p).seq.trap 63 = false) (h : body s p (seqWord op g b) (s.core p) = .trap (s.core p) cause addr) :
    s.issue p op g b body = s.setCore p ((s.core p).trapped cause addr) := by
  rw [issue_trap hc hb hg h]
  obtain ⟨-, hra, -⟩ := hc
  rw [trap_plain hra ht, send_nil, Core.trapped]

end rows

/-! ### The scalar ALU (R186, R187) -/

/-- A 48-bit body with FN 0 lies below the guard. -/
theorem fn0_lt (b : BitVec 48) : b.toNat < 2 ^ 54 := b.isLt.trans (by decide)

/-- A 48-bit body with FN 1 lies below the guard. -/
theorem fn1_lt (b : BitVec 48) : 1 * 2 ^ 48 + b.toNat < 2 ^ 54 := above_lt (by decide) b.isLt (by decide) (by decide)

theorem aluDone_some (c : Core) (rd : Nat) (v : BitVec 64) : c.aluDone rd (some v) = (c.setSreg rd v).retire := rfl

section scalarRows
variable {s : State} {p : PCore} {g : Guard} (hc : (s.core p.val).plain) (hg : (s.core p.val).guarded g)
include hc hg

theorem aluR_retires {b : BitVec 54} {v : BitVec 64} (hz : fld b 32 0 = 0)
    (hv : aluFn (fld b 53 48) ((s.core p.val).sreg (fld b 42 38)) ((s.core p.val).sreg (fld b 37 33)) = some v) :
    exec (.aluR p g b) s = .next (s.setCore p.val ((s.core p.val).setSreg (fld b 47 43) v).wentOn) :=
  congrArg Host.Outcome.next (issue_setSreg hc b.isLt hg (by simp [bodyAluR, nfld_w54, hz, hv, aluDone_some]))

theorem aluI_retires {b : BitVec 54} {v : BitVec 64} (hz : fld b 37 32 = 0)
    (hv : aluFn (fld b 53 48) ((s.core p.val).sreg (fld b 42 38)) ((b.extractLsb' 0 32).signExtend 64) = some v) :
    exec (.aluI p g b) s = .next (s.setCore p.val ((s.core p.val).setSreg (fld b 47 43) v).wentOn) :=
  congrArg Host.Outcome.next (issue_setSreg hc b.isLt hg (by simp [bodyAluI, nfld_w54, hz, ofInt_sgn_fld, hv, aluDone_some]))

theorem lil_retires {b : BitVec 48} (hz : fld b 42 32 = 0) :
    exec (.lil p g b) s = .next (s.setCore p.val ((s.core p.val).setSreg (fld b 47 43) ((b.extractLsb' 0 32).signExtend 64)).wentOn) :=
  congrArg Host.Outcome.next (issue_setSreg hc (fn0_lt b) hg (by simp [bodyLil, nfld_w48z, hz, ofInt_sgn_fld]))

theorem lih_retires {b : BitVec 48} (hz : fld b 42 32 = 0) :
    exec (.lih p g b) s = .next (s.setCore p.val ((s.core p.val).setSreg (fld b 47 43)
      (b.extractLsb' 0 32 ++ ((s.core p.val).sreg (fld b 47 43)).extractLsb' 0 32)).wentOn) :=
  congrArg Host.Outcome.next (issue_setSreg hc (fn1_lt b) hg (by simp [bodyLih, nfld_w48, hz, setFld_upper]))

theorem ext_retires {b : BitVec 48} (hz : fld b 25 0 = 0) (hw : fld b 37 32 + (fld b 31 26 + 1) ≤ 64) :
    exec (.ext p g b) s = .next (s.setCore p.val ((s.core p.val).setSreg (fld b 47 43)
      (((s.core p.val).sreg (fld b 42 38) >>> fld b 37 32) &&& BitVec.ofNat 64 (2 ^ (fld b 31 26 + 1) - 1))).wentOn) :=
  congrArg Host.Outcome.next (issue_setSreg hc (fn0_lt b) hg (by
    rw [← ofNat_fld_eq_and]
    simp [bodyExt, nfld_w48z, hz, Nat.not_lt.mpr hw]))

theorem dep_retires {b : BitVec 48} (hz : fld b 25 0 = 0) (hw : fld b 37 32 + (fld b 31 26 + 1) ≤ 64) :
    exec (.dep p g b) s = .next (s.setCore p.val ((s.core p.val).setSreg (fld b 47 43)
      (setFld ((s.core p.val).sreg (fld b 47 43)) (fld b 37 32 + fld b 31 26) (fld b 37 32) ((s.core p.val).sreg (fld b 42 38)).toNat)).wentOn) :=
  congrArg Host.Outcome.next (issue_setSreg hc (fn1_lt b) hg (by simp [bodyDep, nfld_w48, hz, Nat.not_lt.mpr hw]))

/-- A field that reaches beyond bit 63 is an unassigned encoding of EXT and DEP, whatever the reserved bits hold (R181, R187). -/
theorem ext_dep_trap {b : BitVec 48} (hw : 64 < fld b 37 32 + (fld b 31 26 + 1)) (ht : bit (s.core p.val).seq.trap 63 = false) :
    exec (.ext p g b) s = .next (s.setCore p.val ((s.core p.val).trapped 1 0))
      ∧ exec (.dep p g b) s = .next (s.setCore p.val ((s.core p.val).trapped 1 0)) :=
  ⟨congrArg Host.Outcome.next (issue_trapped hc (fn0_lt b) hg ht (by simp [bodyExt, nfld_w48z, hw, Core.illegal, trIllegal])),
   congrArg Host.Outcome.next (issue_trapped hc (fn1_lt b) hg ht (by simp [bodyDep, nfld_w48, hw, Core.illegal, trIllegal]))⟩

end scalarRows

/-- Settles O4: the functions by the table's rows, each instruction row by what its word comes to. -/
theorem scalarAluResults : Obligations.ScalarAluResults := by
  unfold Obligations.ScalarAluResults
  refine ⟨fun a b => ?_, fun s p g hc hg => ⟨fun b v => aluR_retires hc hg, fun b v => aluI_retires hc hg, fun b => lil_retires hc hg,
    fun b => lih_retires hc hg, fun b => ext_retires hc hg, fun b => dep_retires hc hg, fun b => ext_dep_trap hc hg⟩⟩
  simp only [← BitVec.slt_iff_toInt_lt, ← BitVec.ult_iff_toNat_lt]
  exact ⟨rfl, rfl, rfl, rfl, rfl, rfl, rfl, rfl, rfl, rfl, rfl, rfl, rfl, rfl, rfl, rfl, rfl, rfl, fun fn => aluFn_unassigned⟩

/-! ### Scalar memory (R188) -/

section scalarAt
variable {c : Core} {a n : Nat} {write : Bool} {k : Core → Res}

/-- An access that passes the checks of R188 and meets no hazard is carried out. -/
theorem scalarAt_ok (hpad : a + n ≤ 0x300000) (hown : c.ownOk a n = true) (hal : a % n = 0) (hsb : hazard c.units.sb a (a + n - 1) write = false) :
    c.scalarAt a n write k = k c := by
  simp [Core.scalarAt, Nat.not_lt.mpr hpad, hown, hal, hsb]

theorem scalarAt_beyond (hpad : 0x300000 < a + n) : c.scalarAt a n write k = .trap c 1 0 := by
  simp [Core.scalarAt, hpad, Core.illegal, trIllegal]

theorem scalarAt_foreign (hpad : a + n ≤ 0x300000) (hown : c.ownOk a n = false) : c.scalarAt a n write k = .trap c 2 a := by
  simp [Core.scalarAt, Nat.not_lt.mpr hpad, hown, trBank]

theorem scalarAt_misaligned (hpad : a + n ≤ 0x300000) (hown : c.ownOk a n = true) (hal : a % n ≠ 0) : c.scalarAt a n write k = .trap c 9 a := by
  simp [Core.scalarAt, Nat.not_lt.mpr hpad, hown, hal, trMisaligned]

end scalarAt

section memoryRows
variable {s : State} {p : PCore} {g : Guard} {b : BitVec 54} {n a : Nat} (hc : (s.core p.val).plain) (hg : (s.core p.val).guarded g)
  (hz : fld b 18 0 = 0) (hn : n = 2 ^ fld b 43 42) (ha : a = (s.core p.val).effective (fld b 48 44) (fld b 40 19))
include hc hg hz hn ha

theorem ld_retires (hpad : a + n ≤ 0x300000) (hown : (s.core p.val).ownOk a n = true) (hal : a % n = 0)
    (herr : (s.core p.val).sp.errs = []) (hsb : hazard (s.core p.val).units.sb a (a + n - 1) false = false) :
    exec (.ld p g b) s = .next (s.setCore p.val ((s.core p.val).setSreg (fld b 53 49)
      (if bit b 41 then BitVec.ofInt 64 (sgn (8 * n) (leNat (Memory.read (s.core p.val).sp.mem a n)))
       else BitVec.ofNat 64 (leNat (Memory.read (s.core p.val).sp.mem a n)))).wentOn) :=
  congrArg Host.Outcome.next (issue_setSreg hc b.isLt hg (by
    simp [bodyLd, nfld_w54, testBit_w54, hz, ← hn, ← ha, scalarAt_ok hpad hown hal hsb, check_nil _ _ herr]))

theorem st_retires (hx : bit b 41 = false) (hpad : a + n ≤ 0x300000) (hown : (s.core p.val).ownOk a n = true) (hal : a % n = 0)
    (herr : (s.core p.val).sp.errs = []) (hsb : hazard (s.core p.val).units.sb a (a + n - 1) true = false) :
    exec (.st p g b) s = .next (s.setCore p.val ({ s.core p.val with sp := { (s.core p.val).sp with
      mem := Memory.write (s.core p.val).sp.mem a (leBytes n ((s.core p.val).sreg (fld b 53 49)).toNat) } } : Core).wentOn) :=
  congrArg Host.Outcome.next (issue_on hc b.isLt hg (by
    simp [bodySt, nfld_w54, testBit_w54, hz, hx, ← hn, ← ha, scalarAt_ok hpad hown hal hsb, store_plain herr]) (seq_parts rfl))

/-- LD and ST trap alike where the checks of R188 trap, whether the access is a read or a write. -/
theorem ld_st_trap {row : Instr} {cause addr : Nat} (hrow : row = .ld p g b ∨ (row = .st p g b ∧ bit b 41 = false))
    (ht : bit (s.core p.val).seq.trap 63 = false)
    (htrap : ∀ write k, (s.core p.val).scalarAt a n write k = .trap (s.core p.val) cause addr) :
    exec row s = .next (s.setCore p.val ((s.core p.val).trapped cause addr)) := by
  obtain rfl | ⟨rfl, hx⟩ := hrow
  · exact congrArg Host.Outcome.next (issue_trapped hc b.isLt hg ht (by simp [bodyLd, nfld_w54, hz, ← hn, ← ha, htrap]))
  · exact congrArg Host.Outcome.next (issue_trapped hc b.isLt hg ht (by simp [bodySt, nfld_w54, testBit_w54, hz, hx, ← hn, ← ha, htrap]))

end memoryRows

/-- Settles O6: LD and ST are the access that `scalarAt` checks, carried out or trapped. -/
theorem scalarMemoryAccess : Obligations.ScalarMemoryAccess := by
  unfold Obligations.ScalarMemoryAccess
  intro s p g b n a hc hg hz hn ha
  refine ⟨fun hpad hown hal herr => ⟨ld_retires hc hg hz hn ha hpad hown hal herr, fun hx => st_retires hc hg hz hn ha hx hpad hown hal herr⟩,
    fun row hrow ht => ⟨fun hpad => ?_, fun hpad hown => ?_, fun hpad hown hal => ?_⟩⟩
  · exact ld_st_trap hc hg hz hn ha hrow ht fun _ _ => scalarAt_beyond hpad
  · exact ld_st_trap hc hg hz hn ha hrow ht fun _ _ => scalarAt_foreign hpad hown
  · exact ld_st_trap hc hg hz hn ha hrow ht fun _ _ => scalarAt_misaligned hpad hown hal

end Sys2Proof.Machine
end

section
/-! SUPPORT. The HBM interleave: stack and offset of an interleaved address, the address of a pair, and the two views (R272, R273). -/

namespace Sys2Proof.Machine

/-- XOR with a hash keeps a position of a group, and a stack number, below 32. -/
theorem xor_hashGroup_lt {i : Nat} (hi : i < 32) (g : Nat) : i ^^^ hashGroup g < 32 :=
  Nat.xor_lt_two_pow (n := 5) hi (Nat.mod_lt _ (by decide))

theorem hashGroup_eq (g : Nat) : hashGroup g = (g ^^^ g / 2 ^ 5 ^^^ g / 2 ^ 10 ^^^ g / 2 ^ 15 ^^^ g / 2 ^ 20) % 32 := by
  simp only [hashGroup, Nat.shiftRight_eq_div_pow]

theorem hbmStack_eq (a : Nat) : hbmStack a = (a / 4096 % 32) ^^^ hashGroup (a / 4096 / 32) := by
  simp [hbmStack, Nat.shiftRight_eq_div_pow, Nat.div_div_eq_div_mul]

theorem hbmOff_eq (a : Nat) : hbmOff a = a / 4096 / 32 * 4096 + a % 4096 := by
  simp [hbmOff, Nat.shiftRight_eq_div_pow, Nat.shiftLeft_eq, Nat.div_div_eq_div_mul]

theorem hbmAddr_eq (k off : Nat) : hbmAddr k off = (off / 4096 * 32 + (k ^^^ hashGroup (off / 4096))) * 4096 + off % 4096 := by
  simp [hbmAddr, Nat.shiftRight_eq_div_pow, Nat.shiftLeft_eq]

theorem hbmStack_lt (a : Nat) : hbmStack a < 32 :=
  hbmStack_eq a ▸ xor_hashGroup_lt (Nat.mod_lt _ (by decide)) _

theorem hbmOff_lt {a : Nat} (ha : a < 0x20000000000) : hbmOff a < 0x1000000000 := by
  rw [hbmOff_eq]; omega

/-- The group number stands above the byte of the stripe in the stack offset. -/
theorem hbmOff_div (a : Nat) : hbmOff a / 4096 = a / 4096 / 32 := by
  rw [hbmOff_eq]; omega

theorem hbmOff_mod (a : Nat) : hbmOff a % 4096 = a % 4096 := by
  rw [hbmOff_eq]; omega

/-- XOR with the hash of the group undoes itself: from the stack it gives the stripe's position in the group. -/
theorem hbmStack_xor_hash (a : Nat) : hbmStack a ^^^ hashGroup (a / 4096 / 32) = a / 4096 % 32 := by
  rw [hbmStack_eq, Nat.xor_xor_cancel_right]

theorem hbmAddr_hbmStack_hbmOff (a : Nat) : hbmAddr (hbmStack a) (hbmOff a) = a := by
  rw [hbmAddr_eq, hbmOff_div, hbmOff_mod, hbmStack_xor_hash]; omega

theorem decodeAddr_interleaved {a : Nat} (ha : a < 0x20000000000) : decodeAddr a = .hbm (hbmStack a) (hbmOff a) := if_pos ha

section pair
variable {k off : Nat} (hk : k < 32)
include hk

theorem hbmAddr_lt (hoff : off < 0x1000000000) : hbmAddr k off < 0x20000000000 := by
  have hpos := xor_hashGroup_lt hk (off / 4096)
  rw [hbmAddr_eq]; omega

/-- The group of a pair's address is the offset's. -/
theorem hbmAddr_div : hbmAddr k off / 4096 / 32 = off / 4096 := by
  have hpos := xor_hashGroup_lt hk (off / 4096)
  rw [hbmAddr_eq]; omega

/-- The position in its group of a pair's address is the stack as the hash moves it. -/
theorem hbmAddr_div_mod : hbmAddr k off / 4096 % 32 = k ^^^ hashGroup (off / 4096) := by
  have hpos := xor_hashGroup_lt hk (off / 4096)
  rw [hbmAddr_eq]; omega

theorem hbmStack_hbmAddr : hbmStack (hbmAddr k off) = k := by
  rw [hbmStack_eq, hbmAddr_div hk, hbmAddr_div_mod hk, Nat.xor_xor_cancel_right]

theorem hbmOff_hbmAddr : hbmOff (hbmAddr k off) = off := by
  have hbyte : hbmAddr k off % 4096 = off % 4096 := by rw [hbmAddr_eq]; omega
  rw [hbmOff_eq, hbmAddr_div hk, hbyte]; omega

/-- A stack-local address holds the stack in bits 40 to 36 and the offset below. -/
theorem decodeAddr_stackLocal (hoff : off < 0x1000000000) : decodeAddr (0x200000000000 + k * 2 ^ 36 + off) = .hbm k off := by
  have hstack : nfld (0x200000000000 + k * 2 ^ 36 + off) 40 36 = k := by simp only [nfld, Nat.shiftRight_eq_div_pow]; omega
  have hlow : nfld (0x200000000000 + k * 2 ^ 36 + off) 35 0 = off := by simp only [nfld, Nat.shiftRight_zero]; omega
  have hrange : (decide (0x200000000000 ≤ 0x200000000000 + k * 2 ^ 36 + off) && decide (0x200000000000 + k * 2 ^ 36 + off < 0x220000000000)) = true := by
    simp only [Bool.and_eq_true, decide_eq_true_eq]; omega
  rw [decodeAddr, if_neg (by omega), if_pos hrange, hstack, hlow]

end pair

/-- Settles O40: within a group the hash is a fixed XOR of the position, which undoes itself, and group and byte pass through unchanged. -/
theorem interleaveIsABijection : Obligations.InterleaveIsABijection := by
  unfold Obligations.InterleaveIsABijection
  refine ⟨?_, fun k off hk hoff => ⟨hbmAddr_lt hk hoff, hbmStack_hbmAddr hk, hbmOff_hbmAddr hk⟩⟩
  rintro a g h ha rfl rfl
  exact ⟨hashGroup_eq _ ▸ hbmStack_eq a, hbmOff_eq a, hbmStack_lt a, hbmOff_lt ha, hbmAddr_hbmStack_hbmOff a, decodeAddr_interleaved ha,
    decodeAddr_stackLocal (hbmStack_lt a) (hbmOff_lt ha)⟩

end Sys2Proof.Machine
end

section
/-! SUPPORT. What every command leaves: the waiting commands, the security vault, and how a step follows from it (R429 to R433). -/

namespace Sys2Proof.Machine

/-- No command touches the commands that wait, and a legal vault stays legal and moves only forward: one fact per row of the table. -/
theorem exec_onward (i : Instr) (s : State) : onwards s (exec i s) := by
  cases i with
  | nop => exact (execNop_kept _ _ _ _).onwards
  | pdone => exact (execPdone_kept _ _ _ _).onwards
  | brk => exact (execBrk_kept _ _ _ _).onwards
  | seqFence => exact (execSeqFence_kept _ _ _ _).onwards
  | aluR => exact (execAluR_kept _ _ _ _).onwards
  | aluI => exact (execAluI_kept _ _ _ _).onwards
  | lil => exact (execLil_kept _ _ _ _).onwards
  | lih => exact (execLih_kept _ _ _ _).onwards
  | ext => exact (execExt_kept _ _ _ _).onwards
  | dep => exact (execDep_kept _ _ _ _).onwards
  | ld => exact (execLd_kept _ _ _ _).onwards
  | st => exact (execSt_kept _ _ _ _).onwards
  | rdreg => exact (execRdreg_kept _ _ _ _).onwards
  | wrreg => exact (execWrreg_kept _ _ _ _).onwards
  | rdtime => exact (execRdtime_kept _ _ _ _).onwards
  | rdlaunch => exact (execRdlaunch_kept _ _ _ _).onwards
  | movu => exact (execMovu_kept _ _ _ _).onwards
  | rdid => exact (execRdid_kept _ _ _ _).onwards
  | j => exact (execJ_kept _ _ _ _).onwards
  | jal => exact (execJal_kept _ _ _ _).onwards
  | jr => exact (execJr_kept _ _ _ _).onwards
  | bcmp => exact (execBcmp_kept _ _ _ _).onwards
  | pset => exact (execPset_kept _ _ _ _).onwards
  | bsum => exact (execBsum_kept _ _ _ _).onwards
  | psum => exact (execPsum_kept _ _ _ _).onwards
  | plog => exact (execPlog_kept _ _ _ _).onwards
  | mmaOs => exact (execMmaOs_kept _ _ _ _).onwards
  | mmaWs => exact (execMmaWs_kept _ _ _ _).onwards
  | wload => exact (execWload_kept _ _ _ _).onwards
  | accLoad => exact (execAccLoad_kept _ _ _ _).onwards
  | drain => exact (execDrain_kept _ _ _ _).onwards
  | arrayOpComplete => exact (execArrayOpComplete_kept _ _).onwards
  | vchain => exact (execVchain_kept _ _ _ _).onwards
  | chainStart => exact (execChainStart_kept _ _).onwards
  | chainComplete => exact (execChainComplete_kept _ _).onwards
  | summaryWrite => exact (execSummaryWrite_kept _ _).onwards
  | fill => exact (execFill_kept _ _ _ _).onwards
  | copy => exact (execCopy_kept _ _ _ _).onwards
  | fillCopyComplete => exact (execFillCopyComplete_kept _ _).onwards
  | frd => exact (execFrd_kept _ _ _ _).onwards
  | fwr => exact (execFwr_kept _ _ _ _).onwards
  | mcw => exact (execMcw_kept _ _ _ _).onwards
  | hint => exact (execHint_kept _ _ _ _).onwards
  | msend => exact (execMsend_kept _ _ _ _).onwards
  | dwait => exact (execDwait_kept _ _ _ _).onwards
  | transferComplete => exact (execTransferComplete_kept _ _ _).onwards
  | transferTimeout => exact (execTransferTimeout_kept _ _ _ _).onwards
  | twait => exact (execTwait_kept _ _ _ _).onwards
  | cwait => exact (execCwait_kept _ _ _ _).onwards
  | tsend => exact (execTsend_kept _ _ _ _).onwards
  | cret => exact (execCret_kept _ _ _ _).onwards
  | wopen => exact (execWopen_kept _ _ _ _).onwards
  | wclose => exact (execWclose_kept _ _ _ _).onwards
  | cbcfg => exact (execCbcfg_kept _ _ _ _).onwards
  | cbpush => exact (execCbpush_kept _ _ _ _).onwards
  | cbpop => exact (execCbpop_kept _ _ _ _).onwards
  | cbaddr => exact (execCbaddr_kept _ _ _ _).onwards
  | waitt => exact (execWaitt_kept _ _ _ _).onwards
  | timeRelease => exact (execTimeRelease_kept _ _ _).onwards
  | runAheadStart => exact (execRunAheadStart_kept _ _).onwards
  | watchdogFire => exact (execWatchdogFire_kept _ _ _).onwards
  | probe => exact (execProbe_kept _ _ _).onwards
  | resume => exact (execResume_kept _ _).onwards
  | step => exact (execStep_kept _ _).onwards
  | halt => exact (execHalt_kept _ _).onwards
  | coreNumSeedWrite => exact (execCoreNumSeedWrite_kept _ _ _).onwards
  | winCfgWrite => exact (execWinCfgWrite_kept _ _ _ _).onwards
  | bankPowerUp => exact (execBankPowerUp_kept _ _ _).onwards
  | bankZeroFillDone => exact (execBankZeroFillDone_kept _ _ _).onwards
  | scrubTick => exact (execScrubTick_kept _ _ _).onwards
  | spRowRepair => exact (execSpRowRepair_kept _ _ _ _).onwards
  | rdReq => exact (execRdReq_kept _ _).onwards
  | rdRsp => exact (execRdRsp_kept _ _).onwards
  | wr => exact execWr_onward _ _
  | ack => exact (execAck_kept _ _ _).onwards
  | mcwPkt => exact (execMcwPkt_kept _ _).onwards
  | token => exact (execToken_kept _ _).onwards
  | credit => exact (execCredit_kept _ _).onwards
  | retract => exact (execRetract_kept _ _).onwards
  | hintPkt => exact (execHintPkt_kept _ _).onwards
  | hintLineLapse => exact (execHintLineLapse_kept _ _ _ _).onwards
  | done => exact (execDone_kept _ _).onwards
  | abortEvent => exact (execAbortEvent_kept _ _ _).onwards
  | stop => exact (execStop_kept _ _).onwards
  | stopAck => exact (execStopAck_kept _ _).onwards
  | quiesceLimit => exact (execQuiesceLimit_kept _ _).onwards
  | passRecordPost => exact (execPassRecordPost_kept _).onwards
  | launch => exact (execLaunch_kept _ _ _).onwards
  | timedStart => exact (execTimedStart_kept _ _).onwards
  | standaloneFlip => exact (execStandaloneFlip_kept _ _).onwards
  | schedulerPick => exact (execSchedulerPick_kept _).onwards
  | passTimeLimit => exact (execPassTimeLimit_kept _ _).onwards
  | nextPassFill => exact (execNextPassFill_kept _).onwards
  | mapChange => exact (execMapChange_kept _).onwards
  | loadStart => exact (execLoadStart_kept _).onwards
  | load => exact (execLoad_kept _ _).onwards
  | loadComplete => exact (execLoadComplete_kept _).onwards
  | hostSegmentFetch => exact (execHostSegmentFetch_kept _ _ _ _).onwards
  | hintFill => exact (execHintFill_kept _).onwards
  | pinLapse => exact (execPinLapse_kept _ _ _).onwards
  | meshMessageLand => exact (execMeshMessageLand_kept _ _).onwards
  | hopQueueFlush => exact (execHopQueueFlush_kept _ _).onwards
  | meshLaneReplay => exact (execMeshLaneReplay_kept _ _ _).onwards
  | meshLaneDead => exact (execMeshLaneDead_kept _ _ _).onwards
  | routePacket => exact (execRoutePacket_kept _ _ _ _).onwards
  | flitReplay => exact (execFlitReplay_kept _ _ _).onwards
  | ringLinkDead => exact (execRingLinkDead_kept _ _ _).onwards
  | linkLockLoss => exact (execLinkLockLoss_kept _ _ _).onwards
  | linkIdleTimeout => exact (execLinkIdleTimeout_kept _ _ _).onwards
  | combineTimeout => exact (execCombineTimeout_kept _ _ _).onwards
  | drainStart => exact (execDrainStart_kept _ _).onwards
  | drainLimit => exact (execDrainLimit_kept _ _).onwards
  | beacon => exact (execBeacon_kept _ _).onwards
  | beaconReceive => exact (execBeaconReceive_kept _ _ _).onwards
  | syncLoss => exact (execSyncLoss_kept _ _).onwards
  | timeStep => exact (execTimeStep_kept _ _).onwards
  | referenceLoss => exact (execReferenceLoss_kept _ _ _).onwards
  | inputQualified => exact (execInputQualified_kept _ _ _).onwards
  | vcoLockFail => exact (execVcoLockFail_kept _ _).onwards
  | aclkStep => exact (execAclkStep_kept _ _).onwards
  | clockViolation => exact (execClockViolation_kept _ _ _).onwards
  | safeClear => exact (execSafeClear_kept _ _).onwards
  | droop _ row => exact (execDroop_kept _ row _).onwards
  | droopRecovery => exact (execDroopRecovery_kept _ _ _).onwards
  | efuseTrip => exact (execEfuseTrip_kept _ _ _).onwards
  | connectorOpen => exact (execConnectorOpen_kept _ _).onwards
  | connectorEstimate => exact (execConnectorEstimate_kept _ _ _ _ _).onwards
  | allocationTick => exact (execAllocationTick_kept _ _ _ _ _).onwards
  | capCompare => exact (execCapCompare_kept _ _ _ _).onwards
  | panelClamp => exact (execPanelClamp_kept _ _).onwards
  | phaseFail => exact (execPhaseFail_kept _ _ _).onwards
  | ivrFail => exact (execIvrFail_kept _ _ _ _).onwards
  | inrushGrant => exact (execInrushGrant_kept _ _).onwards
  | inrushReevaluate => exact (execInrushReevaluate_kept _ _ _).onwards
  | turnOnPhase => exact (execTurnOnPhase_kept _ _).onwards
  | meadowPowerDown => exact (execMeadowPowerDown_kept _).onwards
  | coreGate => exact (execCoreGate_kept _ _ _).onwards
  | rimPowerLoss => exact (execRimPowerLoss_kept _).onwards
  | coolantRead => exact (execCoolantRead_kept _ _ _).onwards
  | flowLow => exact (execFlowLow_kept _ _).onwards
  | coolLostClear => exact (execCoolLostClear_kept _ _).onwards
  | sensorSample => exact (execSensorSample_kept _ _ _ _).onwards
  | guardRelease => exact (execGuardRelease_kept _ _ _).onwards
  | sensorDisagree => exact (execSensorDisagree_kept _ _ _ _).onwards
  | thermalTick => exact (execThermalTick_kept _ _ _).onwards
  | stackReadout => exact (execStackReadout_kept _ _ _).onwards
  | thermtrip => exact (execThermtrip_kept _ _ _).onwards
  | refresh _ rfm => exact (execRefresh_kept _ rfm _ _).onwards
  | patrolScrub => exact (execPatrolScrub_kept _ _ _ _).onwards
  | hbmRowRepair => exact (execHbmRowRepair_kept _ _ _ _).onwards
  | stackFailed => exact (execStackFailed_kept _ _).onwards
  | regionZeroFillDone => exact (execRegionZeroFillDone_kept _ _).onwards
  | panelResetPin => exact (execPanelResetPin_kept _ _).onwards
  | rimPowerGood => exact (execRimPowerGood_kept _).onwards
  | bringupPhase => exact (execBringupPhase_kept _ _ _).onwards
  | benchStep => exact (execBenchStep_kept _ _ _).onwards
  | hbmTraining => exact (execHbmTraining_kept _ _ _ _).onwards
  | go => exact (execGo_kept _ _).onwards
  | mcWatchdogExpiry => exact (execMcWatchdogExpiry_kept _ _ _ _).onwards
  | settControllerProbe => exact (execSettControllerProbe_kept _ _ _).onwards
  | fwchunk => exact (execFwchunk_kept _ _ _).onwards
  | repairRoundEnd => exact (execRepairRoundEnd_kept _ _).onwards
  | flashWriteDone => exact (execFlashWriteDone_kept _ _).onwards
  | holdBegin => exact (execHoldBegin_kept _ _).onwards
  | activation => exact (execActivation_kept _ _).onwards
  | icuClaim => exact (execIcuClaim_kept _ _ _).onwards
  | icuComplete => exact (execIcuComplete_kept _ _ _ _).onwards
  | icuSgi => exact (execIcuSgi_kept _ _ _).onwards
  | gdis => exact (execGdis_kept _ _ _).onwards
  | interruptEdge => exact (execInterruptEdge_kept _ _ _).onwards
  | sqDoorbell => exact (execSqDoorbell_kept _ _ _ _ _).onwards
  | cqDoorbell => exact (execCqDoorbell_kept _ _ _ _ _).onwards
  | sqFetch => exact (execSqFetch_kept _ _ _ _ _).onwards
  | cqPost => exact (execCqPost_kept _ _ _ _ _).onwards
  | msixCoalesceTimeout => exact (execMsixCoalesceTimeout_kept _ _ _ _ _).onwards
  | msixUnmask => exact (execMsixUnmask_kept _ _ _ _).onwards
  | aqEnable => exact (execAqEnable_kept _ _ _).onwards
  | perst => exact (execPerst_kept _ _ _).onwards
  | flr => exact (execFlr_kept _ _ _).onwards
  | dStateChange => exact (execDStateChange_kept _ _ _ _).onwards
  | portLinkDown => exact (execPortLinkDown_kept _ _ _).onwards
  | apertureAccess => exact execApertureAccess_onward _ _ _ _ _
  | mctpMessage => exact (execMctpMessage_kept _ _ _).onwards
  | ctxOpen => exact (execCtxOpen_kept _ _).onwards
  | ctxClose => exact (execCtxClose_kept _ _).onwards
  | ctxAttach => exact (execCtxAttach_kept _ _).onwards
  | ctxDetach => exact (execCtxDetach_kept _ _).onwards
  | ctxSet => exact (execCtxSet_kept _ _).onwards
  | qpCreate => exact (execQpCreate_kept _ _).onwards
  | qpDelete => exact (execQpDelete_kept _ _).onwards
  | vfQuota => exact (execVfQuota_kept _ _).onwards
  | regionCreate => exact (execRegionCreate_kept _ _).onwards
  | regionRemove => exact (execRegionRemove_kept _ _).onwards
  | placeRegister => exact (execPlaceRegister_kept _ _).onwards
  | placeUnregister => exact (execPlaceUnregister_kept _ _).onwards
  | resLoad => exact (execResLoad_kept _ _).onwards
  | resLoadHost => exact (execResLoadHost_kept _ _ _).onwards
  | resRelease => exact (execResRelease_kept _ _).onwards
  | resHint => exact (execResHint_kept _ _).onwards
  | resPin => exact (execResPin_kept _ _).onwards
  | passLaunch => exact (execPassLaunch_kept _ _).onwards
  | abort => exact (execAbort_kept _ _).onwards
  | memCopy => exact (execMemCopy_kept _ _ _).onwards
  | drainCmd => exact (execDrainCmd_kept _ _).onwards
  | fence => exact (execFence_kept _ _).onwards
  | unfence => exact (execUnfence_kept _ _).onwards
  | stateCopy => exact (execStateCopy_kept _ _).onwards
  | stateCopyPairTimeout => exact (execStateCopyPairTimeout_kept _ _ _).onwards
  | sourceLost => exact (execSourceLost_kept _ _).onwards
  | shadow => exact (execShadow_kept _ _).onwards
  | meadowPower => exact (execMeadowPower_kept _ _).onwards
  | panelReset => exact (execPanelReset_kept _ _).onwards
  | query => exact (execQuery_kept _ _).onwards
  | fwUpdate => exact (execFwUpdate_kept _ _ _).onwards
  | event => exact (execEvent_kept _ _).onwards
  | new => exact (execNew_kept _).onwards
  | unlockFull => exact execUnlockFull_onward _
  | provision => exact execProvision_onward _
  | claim => exact execClaim_onward _
  | keyAdd => exact execKeyAdd_onward _
  | keyRevoke => exact execKeyRevoke_onward _
  | svnCommit => exact execSvnCommit_onward _
  | retire => exact execRetire_onward _
  | listsClear => exact execListsClear_onward _
  | secDbgCtrlWrite => exact (execSecDbgCtrlWrite_kept _ _).onwards
  | getVersion => exact (execGetVersion_kept _).onwards
  | getCapabilities => exact (execGetCapabilities_kept _).onwards
  | negotiateAlgorithms => exact (execNegotiateAlgorithms_kept _).onwards
  | getDigests => exact (execGetDigests_kept _).onwards
  | getCertificate => exact (execGetCertificate_kept _ _ _).onwards
  | challenge => exact (execChallenge_kept _ _).onwards
  | getMeasurements => exact (execGetMeasurements_kept _ _ _).onwards
  | bypass => exact (execBypass_kept _).onwards
  | idcode => exact (execIdcode_kept _).onwards
  | secAccess => exact execSecAccess_onward _ _ _ _ _
  | extest => exact (execExtest_kept _).onwards
  | tapDebugAccess => exact execTapDebugAccess_onward _ _ _ _ _
  | penletLinkTrain => exact (execPenletLinkTrain_kept _ _ _).onwards
  | penletLinkLoss => exact (execPenletLinkLoss_kept _ _ _).onwards
  | ident => exact (execIdent_kept _ _ _).onwards
  | roster => exact (execRoster_kept _ _ _).onwards
  | spanRecordRead => exact (execSpanRecordRead_kept _ _).onwards
  | timeFrameSend => exact (execTimeFrameSend_kept _ _).onwards
  | time => exact (execTime_kept _ _ _ _).onwards
  | tsyncLoss => exact (execTsyncLoss_kept _ _).onwards
  | heartbeatSend => exact (execHeartbeatSend_kept _ _).onwards
  | heartbeat => exact (execHeartbeat_kept _ _ _).onwards
  | unresponsive => exact (execUnresponsive_kept _ _ _).onwards
  | data => exact (execData_kept _ _ _ _).onwards
  | handoff => exact (execHandoff_kept _).onwards
  | registerWrite => exact execRegisterWrite_onward _ _ _ _
  | idleProbe => exact (execIdleProbe_kept _ _ _).onwards
  | coreReady => exact (execCoreReady_kept _ _).onwards
  | hostCompletion => exact (execHostCompletion_kept _ _ _ _).onwards
  | completionTimeout => exact (execCompletionTimeout_kept _ _ _).onwards
  | handoffTimeout => exact (execHandoffTimeout_kept _ _ _).onwards
  | penletFrameReplay e => exact (execPenletFrameReplay_kept e _).onwards
  | retentionSoak => exact (execRetentionSoak_kept _ _ _).onwards
  | restartComplete => exact (execRestartComplete_kept _ _ _).onwards
  | vfEnable => exact (execVfEnable_kept _ _ _).onwards
  | tapReset => exact (execTapReset_kept _).onwards

/-- A step carries out the front command on the queue's rest (the model's own queue, log entry 1). -/
theorem step_cons {c : Instr} {q : List Instr} {s : State} (h : s.pending = c :: q) : step s = exec c { s with pending := q } := by
  rw [step, h]

/-- With nothing waiting a step is one idle TCLK cycle (log entry 2). -/
theorem step_nil {s : State} (h : s.pending = []) : step s = .next { s with tclk := s.tclk + 1 } := by
  unfold step
  split
  · rfl
  · simp_all

/-- Settles O1: `step_cons`, for every command, queue and state. -/
theorem stepRunsFrontCommand : Obligations.StepRunsFrontCommand := fun _ _ _ => step_cons

/-- Settles O2: `step_nil`. -/
theorem idleStepAdvancesOneCycle : Obligations.IdleStepAdvancesOneCycle := fun _ => step_nil

/-- Settles O56: no row's effect reaches the queue (`exec_onward`). -/
theorem commandsLeaveTheQueue : Obligations.CommandsLeaveTheQueue := fun c s t h => (exec_onward c s t h).1

/-- Settles O55: an idle step leaves the vault as it is, and every command moves it only forward (`exec_onward`). -/
theorem noCommandTurnsSecurityBack : Obligations.NoCommandTurnsSecurityBack := by
  intro s t hstep hok
  cases hq : s.pending with
  | nil =>
    rw [step_nil hq] at hstep
    cases hstep
    exact ⟨hok, .refl _⟩
  | cons c q =>
    rw [step_cons hq] at hstep
    exact (exec_onward c _ t hstep).2 hok

end Sys2Proof.Machine
end

section
/-! SUPPORT. What a reset leaves, and a row shape that gives two setts one logical id (R15, R16). -/

namespace Sys2Proof.Machine

/-! ### Reset -/

/-- Before anything changes a unit, it reads as its reset image. -/
theorem reset_core (p : Nat) : State.reset.core p = Core.reset := rfl

theorem reset_sett (i : Nat) : State.reset.sett i = Sett.reset 0 := rfl

theorem reset_sump (k : Nat) : State.reset.sump k = Sump.reset := rfl

theorem reset_gal (g : Nat) : State.reset.gal g = Gallery.reset := rfl

theorem reset_router (n : Node) : State.reset.router n = Router.reset := by cases n <;> rfl

/-- The shipped vault is legal: no fleet slot is used or revoked, and MIN_SVN is 0. -/
theorem reset_vault_ok : State.reset.nv.vault.ok := ⟨fun _ => ⟨rfl, rfl⟩, by decide⟩

/-- Settles O58: every unit reads as its reset image, and the rest are the reset values themselves. -/
theorem resetLeavesTheResetValues : Obligations.ResetLeavesTheResetValues := by
  unfold Obligations.ResetLeavesTheResetValues
  exact ⟨rfl, reset_vault_ok, rfl, rfl, rfl, rfl, reset_core, rfl, rfl, rfl, rfl, rfl, rfl, rfl,
    fun i => reset_sett i ▸ ⟨rfl, rfl, rfl⟩, fun k => reset_sump k ▸ ⟨rfl, rfl, rfl⟩, fun n => reset_router n ▸ ⟨rfl, rfl⟩,
    fun g => reset_gal g ▸ ⟨rfl, rfl⟩, rfl, rfl, rfl, rfl, rfl, rfl, rfl, rfl, rfl, by decide⟩

/-! ### Logical places (R15, R16) -/

/-- A panel whose row 0 publishes LCOLS 17 and an empty unused mask: its seventeenth column takes index 16, which is the first logical id
of row 1. -/
def wideRow : State :=
  { State.reset with map := { State.reset.map with rowShape := [(0, 0x91000000)] } }

theorem wideRow_settAt : wideRow.settAt 16 = some 16 := by decide

theorem wideRow_siteOfSett : wideRow.siteOfSett 16 = none := by decide

/-- Refutes O57: the statement ranges over every state, and in `wideRow` the sett at site 16 has logical id 16, which names no site, for no
premise keeps LCOLS at most 16. -/
theorem not_logicalPlacesAreUnique : ¬ Obligations.LogicalPlacesAreUnique := by
  unfold Obligations.LogicalPlacesAreUnique
  rintro ⟨hplace, -⟩
  have h := (hplace wideRow 16 16 (by decide)).2 ⟨by decide, wideRow_settAt⟩
  rw [wideRow_siteOfSett] at h
  cases h

end Sys2Proof.Machine
end

section
/-! SUPPORT. The rows that read core state, and the system rows (R41, R178, R189, R211, R212, R356). -/

namespace Sys2Proof.Machine

/-! ### Reading a core register (R189) -/

/-- Two cores whose sequencers stand at the same place: run-ahead, debug request and PC agree. -/
structure SameIssue (c d : Core) : Prop where
  ra      : d.seq.ra = c.seq.ra
  haltReq : d.seq.haltReq = c.seq.haltReq
  pc      : d.seq.pc = c.seq.pc

theorem sameIssue_refl (c : Core) : SameIssue c c := ⟨rfl, rfl, rfl⟩

theorem sameIssue_units (c : Core) (x : CoreUnits) : SameIssue c { c with units := x } := ⟨rfl, rfl, rfl⟩

theorem sameIssue_sp (c : Core) (x : CoreSp) : SameIssue c { c with sp := x } := ⟨rfl, rfl, rfl⟩

theorem sameIssue_mesh (c : Core) (x : CoreMesh) : SameIssue c { c with mesh := x } := ⟨rfl, rfl, rfl⟩

theorem sameIssue_wdogStat (c : Core) (v : BitVec 32) : SameIssue c { c with seq := { c.seq with wdogStat := v } } := ⟨rfl, rfl, rfl⟩

theorem sameIssue_raStat (c : Core) (v : BitVec 64) : SameIssue c { c with seq := { c.seq with raStat := v } } := ⟨rfl, rfl, rfl⟩

/-- A read of a core register may clear fields, but leaves where the sequencer stands. -/
def KeepsIssue (c : Core) (r : Option (Nat × BitVec 64 × Core)) : Prop := ∀ w v d, r = some (w, v, d) → SameIssue c d

theorem keepsIssue_none (c : Core) : KeepsIssue c none := fun _ _ _ h => nomatch h

theorem keepsIssue_r32 {c d : Core} (v : BitVec 32) (h : SameIssue c d) : KeepsIssue c (r32 v d) := by
  rintro _ _ _ ⟨⟩; exact h

theorem keepsIssue_r64 {c d : Core} (v : BitVec 64) (h : SameIssue c d) : KeepsIssue c (r64 v d) := by
  rintro _ _ _ ⟨⟩; exact h

theorem keepsIssue_ite {c : Core} {q : Prop} [Decidable q] {a b : Option (Nat × BitVec 64 × Core)} (ha : KeepsIssue c a) (hb : KeepsIssue c b) :
    KeepsIssue c (if q then a else b) := by
  split
  · exact ha
  · exact hb

theorem readOne_keepsIssue (c : Core) (full : Bool) (off : Nat) : KeepsIssue c (c.readOne full off) := by
  unfold Core.readOne
  repeat' refine keepsIssue_ite ?_ ?_
  all_goals first | exact keepsIssue_none c | refine keepsIssue_r32 _ ?_ | refine keepsIssue_r64 _ ?_
  all_goals first
    | exact sameIssue_units c _ | exact sameIssue_sp c _ | exact sameIssue_mesh c _ | exact sameIssue_wdogStat c _ | exact sameIssue_raStat c _

theorem readIdx_keepsIssue (c : Core) (full : Bool) (off : Nat) : KeepsIssue c (c.readIdx full off) := by
  unfold Core.readIdx
  repeat' split
  all_goals first | exact keepsIssue_none c | refine keepsIssue_r32 _ ?_ | refine keepsIssue_r64 _ ?_
  all_goals exact sameIssue_refl c

theorem readReg_keepsIssue (c : Core) (full : Bool) (off : Nat) : KeepsIssue c (c.readReg full off) := by
  unfold Core.readReg
  split
  · next h => exact h ▸ readOne_keepsIssue c full off
  · exact readIdx_keepsIssue c full off

/-- A 50-bit body under its FN code lies below the guard. -/
theorem fn50_lt (b : BitVec 50) {k : Nat} (hk : k < 16) : k * 2 ^ 50 + b.toNat < 2 ^ 54 := by
  have := b.isLt; omega

section csrRows
variable {s : State} {p : PCore} {g : Guard} {b : BitVec 50} (hc : (s.core p.val).plain) (hg : (s.core p.val).guarded g)
include hc hg

theorem rdreg_retires {w : Nat} {v : BitVec 64} {d : Core} (hz : fld b 25 0 = 0) (hz' : fld b 44 42 = 0)
    (hr : (s.core p.val).readReg s.full (fld b 41 26) = some (w, v, d)) :
    exec (.rdreg p g b) s = .next (s.setCore p.val (d.setSreg (fld b 49 45) v).wentOn) := by
  have hfull : s.full = decide (s.sec.level = 2) := rfl
  rw [hfull] at hr
  simp only [BitVec.ofNat_eq_ofNat] at hr
  obtain ⟨hra, hhalt, hpc⟩ := readReg_keepsIssue _ _ _ _ _ _ hr
  refine congrArg Host.Outcome.next (issue_on hc (b := b.toNat) (b.isLt.trans (by decide)) hg ?_ ?_)
  · simp [bodyRdreg, nfld_w50z, hz, hz', hr]
  · simp [hra, hhalt, hpc]

section wrreg
variable (hz : fld b 25 0 = 0) (hz' : fld b 44 42 = 0) (ha : (s.core p.val).units.arrQ = []) (hv : (s.core p.val).units.vecQ = [])
include hz hz' ha hv

theorem wrreg_ctrl (hoff : fld b 41 26 = 0xC00) : exec (.wrreg p g b) s = .next (s.setCore p.val
    ({ s.core p.val with num := { (s.core p.val).num with ctrl := ((s.core p.val).sreg (fld b 49 45)).setWidth 32 &&& 0xF } } : Core).wentOn) :=
  congrArg Host.Outcome.next (issue_on hc (fn50_lt b (by decide)) hg (by simp [bodyWrreg, nfld_w50, hz, hz', hoff, ha, hv]) (seq_parts rfl))

theorem wrreg_status (hoff : fld b 41 26 = 0xC04) : exec (.wrreg p g b) s = .next (s.setCore p.val
    ({ s.core p.val with num := { (s.core p.val).num with
        status := (s.core p.val).num.status &&& ~~~((s.core p.val).sreg (fld b 49 45)).setWidth 32 } } : Core).wentOn) :=
  congrArg Host.Outcome.next (issue_on hc (fn50_lt b (by decide)) hg (by simp [bodyWrreg, nfld_w50, hz, hz', hoff, ha, hv]) (seq_parts rfl))

theorem wrreg_seed (hoff : fld b 41 26 = 0xC08) : exec (.wrreg p g b) s = .next (s.setCore p.val
    ({ s.core p.val with num := { (s.core p.val).num with
        seed := ((s.core p.val).sreg (fld b 49 45)).setWidth 32, gens := [] } } : Core).wentOn) :=
  congrArg Host.Outcome.next (issue_on hc (fn50_lt b (by decide)) hg (by simp [bodyWrreg, nfld_w50, hz, hz', hoff, ha, hv, Core.seedWrite])
    (seq_parts rfl))

end wrreg

section readRows
variable (hz : fld b 41 0 = 0)
include hz

theorem rdtime_retires (hz' : fld b 44 42 = 0) :
    exec (.rdtime p g b) s = .next (s.setCore p.val ((s.core p.val).setSreg (fld b 49 45) (s.coreTime p.val)).wentOn) :=
  congrArg Host.Outcome.next (issue_setSreg hc (fn50_lt b (by decide)) hg (by simp [bodyRdtime, nfld_w50, hz, hz']))

theorem rdlaunch_retires (hz' : fld b 44 42 = 0) :
    exec (.rdlaunch p g b) s = .next (s.setCore p.val ((s.core p.val).setSreg (fld b 49 45) (s.core p.val).seq.launchT).wentOn) :=
  congrArg Host.Outcome.next (issue_setSreg hc (fn50_lt b (by decide)) hg (by simp [bodyRdlaunch, nfld_w50, hz, hz']))

theorem rdid_retires (hz' : fld b 44 42 = 0) {l : Nat} (hl : s.logicalOf p.val = some l) :
    exec (.rdid p g b) s = .next (s.setCore p.val ((s.core p.val).setSreg (fld b 49 45)
      (BitVec.ofNat 64 ((s.core p.val).seq.passNum.toNat * 2 ^ 32 + l))).wentOn) :=
  congrArg Host.Outcome.next (issue_setSreg hc (fn50_lt b (by decide)) hg (by simp [bodyRdid, nfld_w50, hz, hz', hl]))

theorem movu_retires (hu : (s.core p.val).uPending (fld b 44 42) = false) :
    exec (.movu p g b) s = .next (s.setCore p.val ((s.core p.val).setSreg (fld b 49 45) ((s.core p.val).ureg (fld b 44 42))).wentOn) :=
  congrArg Host.Outcome.next (issue_setSreg hc (fn50_lt b (by decide)) hg (by simp [bodyMovu, nfld_w50, hz, hu]))

end readRows
end csrRows

/-- Settles O5: each row by what its word comes to; a register read leaves where the sequencer stands (`readReg_keepsIssue`). -/
theorem coreStateRows : Obligations.CoreStateRows := by
  unfold Obligations.CoreStateRows
  intro s p g b hc hg
  refine ⟨fun w v d hz hz' hr => rdreg_retires hc hg hz hz' hr,
    fun hz hz' ha hv => ⟨wrreg_ctrl hc hg hz hz' ha hv, wrreg_status hc hg hz hz' ha hv, wrreg_seed hc hg hz hz' ha hv⟩,
    fun hz hz' => ⟨rdtime_retires hc hg hz hz', rdlaunch_retires hc hg hz hz', fun l => rdid_retires hc hg hz hz'⟩,
    fun hz hu => movu_retires hc hg hz hu⟩

/-! ### System rows (R41, R178, R211, R212) -/

/-- An instruction that stops its sequencer leaves it as the instruction has set it, when it neither waits nor is asked to halt. -/
theorem issue_halts {s : State} {p op b : Nat} {g : Guard} {body : Body} {d : Core} {out : List Packet}
    (hc : (s.core p).plain) (hb : b < 2 ^ 54) (hg : (s.core p).guarded g) (h : body s p (seqWord op g b) (s.core p) = .halt d out)
    (hd : d.seq.ra = (s.core p).seq.ra ∧ d.seq.haltReq = (s.core p).seq.haltReq ∧ d.seq.blocked = (s.core p).seq.blocked) :
    s.issue p op g b body = (s.setCore p d).send out := by
  obtain ⟨hra, hhalt, hblk⟩ := hd
  rw [issue_halt hc hb hg h (hra.trans hc.2.1)]
  obtain ⟨-, -, hhalt0, hblk0, -⟩ := hc
  have hd : { d with seq := { d.seq with blocked := none, haltReq := false } } = d := by rw [← hhalt.trans hhalt0, ← hblk.trans hblk0]
  rw [hd]

/-- The word of BREAK with all operand bits 0. -/
theorem break_zero (g : Guard) : nfld (seqWord 0 g (2 * 2 ^ 48 + (0 : BitVec 48).toNat)) 47 0 = 0 := by
  rw [nfld_w48 _ (by decide) (by decide) (by decide)]; rfl

section sysRows
variable {s : State} {p : PCore} {g : Guard} (hc : (s.core p.val).plain) (hg : (s.core p.val).guarded g)
include hc hg

theorem nop_retires : exec (.nop p g 0) s = .next (s.setCore p.val (s.core p.val).wentOn) := by
  have hz : nfld (seqWord 0 g (0 : BitVec 48).toNat) 47 0 = 0 := by rw [nfld_w48z _ (by decide)]; rfl
  exact congrArg Host.Outcome.next (issue_on hc (fn0_lt 0) hg (by simp only [bodyNop, hz]; rfl) (seq_parts rfl))

theorem pdone_halts {l : Nat} (hl : s.logicalOf p.val = some l) (ha : (s.core p.val).units.arrQ = []) (hv : (s.core p.val).units.vecQ = [])
    (hf : (s.core p.val).units.fcQ = []) (hbusy : (s.core p.val).units.busy = false) (hheld : (s.core p.val).units.held = [])
    (hdone : (s.core p.val).seq.doneSent = false) :
    exec (.pdone p g 0) s = .next ((s.setCore p.val ({ s.core p.val with seq := { (s.core p.val).seq with mode := .halted, doneSent := true } } : Core)).send
      [donePacket l (s.core p.val).seq.passNum]) := by
  have hz : nfld (seqWord 0 g (1 * 2 ^ 48 + (0 : BitVec 48).toNat)) 47 0 = 0 := by
    rw [nfld_w48 _ (by decide) (by decide) (by decide)]; rfl
  exact congrArg Host.Outcome.next (issue_halts hc (fn1_lt 0) hg (by simp only [bodyPdone, hz, ha, hv, hf, hbusy, hheld, hdone, hl]; rfl)
    ⟨rfl, rfl, rfl⟩)

omit hc hg in
theorem brk_lt : 2 * 2 ^ 48 + (0 : BitVec 48).toNat < 2 ^ 54 := by decide

theorem break_full (hl : s.sec.level = 2) :
    exec (.brk p g 0) s = .next (s.setCore p.val ({ s.core p.val with seq := { (s.core p.val).seq with
      mode := .trapped, dbgHalted := true, trap := (s.core p.val).trapImage 10 0, pc := (s.core p.val).seq.pc + 1 } } : Core)) := by
  have hgo : ¬(nfld (seqWord 0 g (2 * 2 ^ 48 + (0 : BitVec 48).toNat)) 47 0 ≠ 0 || s.sec.level ≠ 2) = true := by
    rw [break_zero, hl]; decide
  exact congrArg Host.Outcome.next ((issue_halts (body := bodyBreak) hc brk_lt hg (if_neg hgo) ⟨rfl, rfl, rfl⟩).trans (send_nil _))

theorem break_below (hl : s.sec.level ≠ 2) (ht : bit (s.core p.val).seq.trap 63 = false) :
    exec (.brk p g 0) s = .next (s.setCore p.val ((s.core p.val).trapped 1 0)) :=
  congrArg Host.Outcome.next (issue_trapped hc brk_lt hg ht (if_pos (by rw [decide_eq_true hl, Bool.or_true])))

/-- FENCE of units that are idle retires (R211). -/
theorem fence_retires {b : BitVec 48} (hz : fld b 39 0 = 0) (hz' : fld b 47 44 = 0) (hu : fld b 47 40 ≠ 0)
    (ha : bit b 40 = true → (s.core p.val).units.arrQ = []) (hv : bit b 41 = true → (s.core p.val).units.vecQ = [])
    (hf : bit b 42 = true → (s.core p.val).units.fcQ = [])
    (hgrp : bit b 43 = true → ∀ k < 8, fld (Tab.get 0 (s.core p.val).units.grps k) 4 0 = 0) :
    exec (.seqFence p g b) s = .next (s.setCore p.val (s.core p.val).wentOn) := by
  have hk : 3 * 2 ^ 48 + b.toNat < 2 ^ 54 := by have := b.isLt; omega
  refine congrArg Host.Outcome.next (issue_on hc hk hg ?_ (seq_parts rfl))
  have hbusy : ¬((bit b 40 && !(s.core p.val).units.arrQ.isEmpty) || (bit b 41 && !(s.core p.val).units.vecQ.isEmpty)
      || (bit b 42 && !(s.core p.val).units.fcQ.isEmpty)
      || (bit b 43 && ((List.range 8).any fun k => fld (Tab.get 0 (s.core p.val).units.grps k) 4 0 ≠ 0))) = true := by
    simp only [Bool.or_eq_true, Bool.and_eq_true, Bool.not_eq_true', List.isEmpty_eq_false_iff, List.any_eq_true, List.mem_range, decide_eq_true_eq]
    rintro (((⟨h, he⟩ | ⟨h, he⟩) | ⟨h, he⟩) | ⟨h, k, hk, he⟩)
    exacts [he (ha h), he (hv h), he (hf h), he (hgrp h k hk)]
  simp (disch := decide) only [bodyFence, nfld_w48, testBit_w48]
  rw [if_neg (by simp [hz, hz', hu]), if_neg hbusy]

end sysRows

/-- Settles O8: each row by what its word comes to (`issue_on`, `issue_halts`, `issue_trapped`). -/
theorem systemRows : Obligations.SystemRows := by
  unfold Obligations.SystemRows
  intro s p g hc hg
  exact ⟨nop_retires hc hg, fun l hl ha hv hf hb hh hd => pdone_halts hc hg hl ha hv hf hb hh hd, break_full hc hg, break_below hc hg,
    fun b hz hz' hu ha hv hf hgrp => fence_retires hc hg hz hz' hu ha hv hf hgrp⟩

end Sys2Proof.Machine
end

section
/-! SUPPORT. The rows that count and wait: tokens, credits, time and completion groups (R160, R163, R203, R204, R210). -/

namespace Sys2Proof.Machine

/-! ### A row that waits -/

/-- An instruction that waits blocks its core with its word (R165). -/
theorem issue_waiting {s : State} {p op b count : Nat} {g : Guard} {body : Body} {m : SeqMode}
    (hc : (s.core p).plain) (hb : b < 2 ^ 54) (hg : (s.core p).guarded g) (h : body s p (seqWord op g b) (s.core p) = .wait m count) :
    s.issue p op g b body = s.setCore p ((s.core p).waiting m (seqWord op g b) s.tclk count) := by
  rw [issue_wait hc hb hg h]
  obtain ⟨-, -, -, hblk, -⟩ := hc
  rw [Core.block, hblk]
  rfl

/-! ### The count of a word (R204) -/

theorem kOf_word (c : Core) {op : Nat} {g : Guard} (b : BitVec 54) : c.kOf (seqWord op g b.toNat) = c.kField b := by
  simp only [Core.kOf, Core.countK, Core.kField, testBit_w54 b (show 48 < 54 by decide), nfld_w54 b (show 47 < 54 by decide),
    nfld_w54 b (show 42 < 54 by decide)]

theorem kOk_word {c : Core} {op : Nat} {g : Guard} {b : BitVec 54} {k : Nat} (hk : k = c.kField b) (he : kEncoded b) (h1 : 1 ≤ k)
    (h2 : k ≤ 65535) : c.kOk (seqWord op g b.toNat) = true := by
  subst hk
  unfold kEncoded at he
  simp only [Core.kField] at h1 h2
  simp only [Core.kOk, Core.countK, testBit_w54 b (show 48 < 54 by decide), nfld_w54 b (show 47 < 54 by decide),
    nfld_w54 b (show 42 < 54 by decide), Bool.and_eq_true, decide_eq_true_eq]
  refine ⟨⟨?_, h1⟩, h2⟩
  split at he <;> simp_all

section counting
variable {s : State} {p : PCore} {g : Guard} {b : BitVec 54} {n k : Nat} (hc : (s.core p.val).plain) (hg : (s.core p.val).guarded g)
  (hz : fld b 26 0 = 0) (hn : n = fld b 53 49) (hk : k = (s.core p.val).kField b) (he : kEncoded b) (h1 : 1 ≤ k) (h2 : k ≤ 65535)
include hc hg hz hn hk he h1 h2

theorem twait_takes (h : k ≤ (s.core p.val).tokCount n) :
    exec (.twait p g b) s = .next (s.setCore p.val ((s.core p.val).setTok n ((s.core p.val).tokCount n - k)).wentOn) :=
  congrArg Host.Outcome.next (issue_on hc b.isLt hg
    (by simp [bodyTwait, nfld_w54, hz, kOk_word hk he h1 h2, kOf_word, ← hn, ← hk, Nat.not_lt.mpr h]) (setTok_parts _ _ _))

theorem twait_waits (h : (s.core p.val).tokCount n < k) :
    exec (.twait p g b) s = .next (s.setCore p.val
      ((s.core p.val).waiting .waitTok (seqWord 0x28 g b.toNat) s.tclk ((s.core p.val).tokCount n))) :=
  congrArg Host.Outcome.next (issue_waiting hc b.isLt hg
    (by simp [bodyTwait, nfld_w54, hz, kOk_word hk he h1 h2, kOf_word, ← hn, ← hk, h]))

theorem cwait_takes (h : k ≤ (s.core p.val).crdCount n) :
    exec (.cwait p g b) s = .next (s.setCore p.val ((s.core p.val).setCrd n ((s.core p.val).crdCount n - k)).wentOn) :=
  congrArg Host.Outcome.next (issue_on hc b.isLt hg
    (by simp [bodyCwait, nfld_w54, hz, kOk_word hk he h1 h2, kOf_word, ← hn, ← hk, Nat.not_lt.mpr h]) (setCrd_parts _ _ _))

theorem cwait_waits (h : (s.core p.val).crdCount n < k) :
    exec (.cwait p g b) s = .next (s.setCore p.val
      ((s.core p.val).waiting .waitCrd (seqWord 0x29 g b.toNat) s.tclk ((s.core p.val).crdCount n))) :=
  congrArg Host.Outcome.next (issue_waiting hc b.isLt hg
    (by simp [bodyCwait, nfld_w54, hz, kOk_word hk he h1 h2, kOf_word, ← hn, ← hk, h]))

end counting

/-! ### Reading a counter back (R163) -/

theorem tokCount_setTok (c : Core) (n m : Nat) {v : Nat} (hv : v ≤ 65535) : (c.setTok n v).tokCount m = if m = n then v else c.tokCount m := by
  unfold Core.tokCount Core.setTok
  rw [get_mod]
  split
  · rw [fld_setFld (by decide) (by decide)]; exact Nat.mod_eq_of_lt (by omega)
  · rfl

theorem crdCount_setCrd (c : Core) (n m : Nat) {v : Nat} (hv : v ≤ 65535) : (c.setCrd n v).crdCount m = if m = n then v else c.crdCount m := by
  unfold Core.crdCount Core.setCrd
  rw [get_mod]
  split
  · rw [fld_setFld (by decide) (by decide)]; exact Nat.mod_eq_of_lt (by omega)
  · rfl

/-! ### Time (R210) -/

section time
variable {s : State} {p : PCore} {g : Guard} {b : BitVec 54} {t : BitVec 64} (hc : (s.core p.val).plain) (hg : (s.core p.val).guarded g)
  (hz : fld b 15 0 = 0)
  (ht : t = (s.core p.val).sreg (fld b 53 49) + BitVec.ofNat 64 (fld b 47 16) + (if bit b 48 then (s.core p.val).seq.launchT else 0))

theorem waitTarget_word {op : Nat} : (s.core p.val).waitTarget (seqWord op g b.toNat)
    = (s.core p.val).sreg (fld b 53 49) + BitVec.ofNat 64 (fld b 47 16) + (if bit b 48 then (s.core p.val).seq.launchT else 0) := by
  simp only [Core.waitTarget, nfld_w54 b (show 53 < 54 by decide), nfld_w54 b (show 47 < 54 by decide), testBit_w54 b (show 48 < 54 by decide)]

include hc hg hz ht

theorem waitt_retires (h : t ≤ s.coreTime p.val) : exec (.waitt p g b) s = .next (s.setCore p.val (s.core p.val).wentOn) :=
  congrArg Host.Outcome.next (issue_on hc b.isLt hg (by
    have hult : (s.coreTime p.val).ult t = false := (BitVec.ult_eq_decide ..).trans (decide_eq_false (Nat.not_lt.mpr (BitVec.le_def.mp h)))
    unfold bodyWaitt
    rw [waitTarget_word, ← ht, hult, nfld_w54 b (by decide), hz]
    rfl) (seq_parts rfl))

theorem waitt_waits (h : s.coreTime p.val < t) : exec (.waitt p g b) s = .next (s.setCore p.val
    ((s.core p.val).waiting .waitTime (seqWord 0x38 g b.toNat) s.tclk 0)) :=
  congrArg Host.Outcome.next (issue_waiting hc b.isLt hg (by
    have hult : (s.coreTime p.val).ult t = true := (BitVec.ult_eq_decide ..).trans (decide_eq_true (BitVec.lt_def.mp h))
    unfold bodyWaitt
    rw [waitTarget_word, ← ht, hult, nfld_w54 b (by decide), hz]
    rfl))

end time

/-! ### Completion groups (R203) -/

section groups
variable {s : State} {p : PCore} {g : Guard} {b : BitVec 54} (hc : (s.core p.val).plain) (hg : (s.core p.val).guarded g)
include hc hg

theorem dwait_retires (hz : fld b 41 0 = 0) (hm : fld b 53 46 ≠ 0)
    (hidle : ∀ k ∈ bitsOf 8 (fld b 53 46), fld (Tab.get 0 (s.core p.val).units.grps k) 4 0 = 0) {c : Core}
    (hd : c = (s.core p.val).setPred (fld b 44 42) ((bitsOf 8 (fld b 53 46)).all fun k => fld (Tab.get 0 (s.core p.val).units.grps k) 27 16 = 0)) :
    (bit b 45 = false → exec (.dwait p g b) s = .next (s.setCore p.val c.wentOn))
    ∧ (bit b 45 = true → exec (.dwait p g b) s = .next (s.setCore p.val (Core.wentOn { c with units := { c.units with
        grps := (bitsOf 8 (fld b 53 46)).foldl (fun t k => Tab.mod 0 t k fun x => setFld x 63 16 0) c.units.grps } }))) := by
  have hany : ((bitsOf 8 (fld b 53 46)).any fun k => decide (fld (Tab.get 0 (s.core p.val).units.grps k) 4 0 ≠ 0)) = false := by
    simp only [List.any_eq_false, decide_eq_true_eq, not_not]; exact hidle
  have hparts := setPred_parts (s.core p.val) (fld b 44 42) ((bitsOf 8 (fld b 53 46)).all fun k => fld (Tab.get 0 (s.core p.val).units.grps k) 27 16 = 0)
  subst hd
  constructor <;> intro hclr
  all_goals
    refine congrArg Host.Outcome.next (issue_on hc b.isLt hg ?_ hparts)
    simp (disch := decide) only [bodyDwait, grpsOf, nfld_w54, testBit_w54, hz, hm, hany, hclr]
    rfl

theorem dwait_waits (hz : fld b 41 0 = 0) (hm : fld b 53 46 ≠ 0)
    (hbusy : ∃ k ∈ bitsOf 8 (fld b 53 46), fld (Tab.get 0 (s.core p.val).units.grps k) 4 0 ≠ 0) :
    exec (.dwait p g b) s = .next (s.setCore p.val ((s.core p.val).waiting .waitOther (seqWord 0x25 g b.toNat) s.tclk 0)) := by
  have hany : ((bitsOf 8 (fld b 53 46)).any fun k => decide (fld (Tab.get 0 (s.core p.val).units.grps k) 4 0 ≠ 0)) = true := by
    simp only [List.any_eq_true, decide_eq_true_eq]; exact hbusy
  refine congrArg Host.Outcome.next (issue_waiting hc b.isLt hg ?_)
  simp (disch := decide) only [bodyDwait, grpsOf, nfld_w54, testBit_w54, hz, hm, hany]
  rfl

theorem dwait_empty (hm : fld b 53 46 = 0) (ht : bit (s.core p.val).seq.trap 63 = false) :
    exec (.dwait p g b) s = .next (s.setCore p.val ((s.core p.val).trapped 1 0)) :=
  congrArg Host.Outcome.next (issue_trapped hc b.isLt hg ht (by simp [bodyDwait, nfld_w54, hm, Core.illegal, trIllegal]))

end groups

/-- Settles O9: each wait either goes on or blocks, by what its word comes to; the counters by field and table laws. -/
theorem countingAndTimeWaits : Obligations.CountingAndTimeWaits := by
  unfold Obligations.CountingAndTimeWaits
  refine ⟨⟨fun s p g b n k hc hg hz hn hk he h1 h2 => ⟨twait_takes hc hg hz hn hk he h1 h2, twait_waits hc hg hz hn hk he h1 h2,
      cwait_takes hc hg hz hn hk he h1 h2, cwait_waits hc hg hz hn hk he h1 h2⟩,
    fun c n m v hv => ⟨tokCount_setTok c n m hv, crdCount_setCrd c n m hv, rfl, rfl⟩⟩,
    fun s p g b hc hg => ⟨fun t hz ht => ⟨waitt_retires hc hg hz ht, waitt_waits hc hg hz ht⟩,
      fun hz hm => ⟨fun hidle c hd => dwait_retires hc hg hz hm hidle hd, dwait_waits hc hg hz hm⟩, dwait_empty hc hg⟩⟩

end Sys2Proof.Machine
end

section
/-! SUPPORT. The rows of windows and circular buffers (R143 to R145, R205 to R209). -/

namespace Sys2Proof.Machine

/-- A field of a number that fits its word. -/
theorem fld_ofNat {n v : Nat} (hv : v < 2 ^ n) (hi lo : Nat) : fld (BitVec.ofNat n v) hi lo = v / 2 ^ lo % 2 ^ (hi + 1 - lo) := by
  rw [fld, BitVec.toNat_ofNat, Nat.mod_eq_of_lt hv, Nat.shiftRight_eq_div_pow]

/-- A pair word of two numbers of 22 bits gives them back (R183). -/
theorem pairOf_ofNat {lo hi : Nat} (hlo : lo < 2 ^ 22) (hhi : hi < 2 ^ 22) : pairOf (BitVec.ofNat 64 (hi * 2 ^ 22 + lo)) = some (lo, hi) := by
  have hv : hi * 2 ^ 22 + lo < 2 ^ 64 := by omega
  have hrest : fld (BitVec.ofNat 64 (hi * 2 ^ 22 + lo)) 63 44 = 0 := by rw [fld_ofNat hv]; omega
  have hfirst : fld (BitVec.ofNat 64 (hi * 2 ^ 22 + lo)) 21 0 = lo := by rw [fld_ofNat hv]; omega
  have hsecond : fld (BitVec.ofNat 64 (hi * 2 ^ 22 + lo)) 43 22 = hi := by rw [fld_ofNat hv]; omega
  rw [pairOf, if_neg (not_not.mpr hrest), hfirst, hsecond]

theorem pairOf_eq {x : BitVec 64} {lo hi : Nat} (hx : x = BitVec.ofNat 64 (hi * 2 ^ 22 + lo)) (hlt : lo < hi) (hle : hi ≤ 0x300000) :
    pairOf x = some (lo, hi) := by
  have hhi : hi < 2 ^ 22 := Nat.lt_of_le_of_lt hle (by decide)
  exact hx ▸ pairOf_ofNat (hlt.trans hhi) hhi

/-- A range that R143 allows may be opened as a window. -/
theorem winOk_of {c : Core} {lo hi : Nat} (hlo : lo % 32 = 0) (hhi : hi % 32 = 0) (hlt : lo < hi) (hle : hi ≤ 0x300000)
    (hown : c.ownOk lo (hi - lo) = true) : c.winOk lo hi = true := by
  simp [Core.winOk, hlo, hhi, hlt, hle, hown]

/-- The configuration of a buffer does not change which bytes the front slot owns. -/
theorem ownOk_cbCfg (c : Core) (t : Tab (BitVec 64)) (a k : Nat) : ({ c with sp := { c.sp with cbCfg := t } } : Core).ownOk a k = c.ownOk a k := rfl

theorem ownOk_setCb (c : Core) (n h t a k : Nat) : (c.setCb n h t).ownOk a k = c.ownOk a k := rfl

/-- A buffer that restarts at 0 holds nothing. -/
theorem cbCount_restart (c : Core) (n : Nat) : (c.setCb n 0 0).cbCount n = 0 := by
  simp [Core.cbCount, Core.cbTail, Core.cbHead, Core.setCb, get_set, fld]

/-- A buffer that restarts may be enabled when its depth and its place are allowed (R145, R207). -/
theorem cbOk_reset {c : Core} {x : BitVec 64} {n : Nat} (hd : fld x 29 26 ≤ 12) (ha : fld x 62 41 % 32 = 0)
    (hown : c.ownOk (fld x 62 41) (cbDepth x * cbEntry x) = true) : (c.setCb n 0 0).cbOk x n = true := by
  simp [Core.cbOk, ownOk_setCb, cbCount_restart, hd, ha, hown]

/-- A buffer restarted and configured, over whatever its configurations were before. -/
theorem restarted_configured (c : Core) (t : Tab (BitVec 64)) (n : Nat) (x : BitVec 64) {d : Core}
    (hd : d = ({ c with sp := { c.sp with cbCfg := t } } : Core).setCb n 0 0) :
    ({ d with sp := { d.sp with cbCfg := Tab.set 0 d.sp.cbCfg n x } } : Core)
      = { c with sp := { c.sp with cbPtr := Tab.erase c.sp.cbPtr n, cbCfg := Tab.set 0 t n x } } := by
  have hset : Tab.set 0 c.sp.cbPtr n (BitVec.ofNat 32 (0 % 65536 * 65536 + 0 % 65536)) = Tab.erase c.sp.cbPtr n := if_pos (by decide)
  subst hd
  simp only [Core.setCb, hset]

/-! ### What a word comes to, whatever its other bits -/

theorem bodyWopen_opens {s : State} {p w : Nat} {c : Core} {lo hi : Nat} (hz : nfld w 39 0 = 0)
    (hx : pairOf (c.sreg (nfld w 49 45)) = some (lo, hi)) (hok : c.winOk lo hi = true)
    (hf : fld (c.sreg (nfld w 44 40)) 63 37 = 0) (hf' : fld (c.sreg (nfld w 44 40)) 31 28 = 0) :
    bodyWopen s p w c = (c.openWin (nfld w 53 50) (winImage lo hi) (c.sreg (nfld w 44 40))).retire := by
  simp [bodyWopen, hz, hx, hok, hf, hf']

theorem bodyCbcfg_configures {s : State} {p w : Nat} {c : Core} {x : BitVec 64} {n : Nat} (hz : nfld w 43 0 = 0)
    (hx : x = c.sreg (nfld w 49 45)) (hn : n = nfld w 53 50) (hr : w.testBit 44 = true) (hen : bit x 63 = true) (hd : fld x 29 26 ≤ 12)
    (ha : fld x 62 41 % 32 = 0) (hown : c.ownOk (fld x 62 41) (cbDepth x * cbEntry x) = true) :
    bodyCbcfg s p w c = ({ c with sp := { c.sp with
      cbPtr := Tab.erase c.sp.cbPtr n,
      cbCfg := Tab.set 0 (Tab.mod 0 c.sp.cbCfg n fun y => setBit y 63 false) n x } } : Core).retire := by
  unfold bodyCbcfg
  simp only [hz, hr, ← hx, ← hn, hen, if_true]
  rw [if_neg (by decide), if_neg]
  · rw [restarted_configured c _ n x rfl]
  · rw [cbOk_reset hd ha ((ownOk_cbCfg _ _ _ _).trans hown)]; decide

section rows
variable {s : State} {p : PCore} {g : Guard} {b : BitVec 54} (hc : (s.core p.val).plain) (hg : (s.core p.val).guarded g)
include hc hg

theorem wopen_opens {lo hi : Nat} (hz : fld b 39 0 = 0) (hx : pairOf ((s.core p.val).sreg (fld b 49 45)) = some (lo, hi))
    (hok : (s.core p.val).winOk lo hi = true) (hf : fld ((s.core p.val).sreg (fld b 44 40)) 63 37 = 0)
    (hf' : fld ((s.core p.val).sreg (fld b 44 40)) 31 28 = 0) :
    exec (.wopen p g b) s = .next (s.setCore p.val
      ((s.core p.val).openWin (fld b 53 50) (winImage lo hi) ((s.core p.val).sreg (fld b 44 40))).wentOn) := by
  have hbody := bodyWopen_opens (s := s) (p := p.val) (w := seqWord 0x2C g b.toNat) (c := s.core p.val) (lo := lo) (hi := hi)
  simp only [nfld_w54 b (show 39 < 54 by decide), nfld_w54 b (show 49 < 54 by decide), nfld_w54 b (show 44 < 54 by decide),
    nfld_w54 b (show 53 < 54 by decide)] at hbody
  exact congrArg Host.Outcome.next (issue_on hc b.isLt hg (hbody hz hx hok hf hf') (seq_parts (openWin_seq _ _ _ _)))

theorem wclose_closes (hz : fld b 37 0 = 0) (hm : fld b 53 38 ≠ 0) :
    exec (.wclose p g b) s = .next (s.setCore p.val ((s.core p.val).closeWins (fld b 53 38)).wentOn) :=
  congrArg Host.Outcome.next (issue_on hc b.isLt hg (by simp [bodyWclose, nfld_w54, hz, hm]) (seq_parts (closeWins_seq _ _)))

/-! ### Circular buffers -/

/-- CBCFG with RST enables a buffer whose place and depth are allowed: HEAD and TAIL restart at 0 (R207). -/
theorem cbcfg_configures {x : BitVec 64} {n : Nat} (hz : fld b 43 0 = 0) (hx : x = (s.core p.val).sreg (fld b 49 45)) (hn : n = fld b 53 50)
    (hr : bit b 44 = true) (hen : bit x 63 = true) (hd : fld x 29 26 ≤ 12) (ha : fld x 62 41 % 32 = 0)
    (hown : (s.core p.val).ownOk (fld x 62 41) (cbDepth x * cbEntry x) = true) :
    exec (.cbcfg p g b) s = .next (s.setCore p.val (Core.wentOn { s.core p.val with sp := { (s.core p.val).sp with
      cbPtr := Tab.erase (s.core p.val).sp.cbPtr n,
      cbCfg := Tab.set 0 (Tab.mod 0 (s.core p.val).sp.cbCfg n fun y => setBit y 63 false) n x } })) := by
  have hbody := bodyCbcfg_configures (s := s) (p := p.val) (w := seqWord 0x30 g b.toNat) (c := s.core p.val) (x := x) (n := n)
  simp only [nfld_w54 b (show 43 < 54 by decide), nfld_w54 b (show 49 < 54 by decide), nfld_w54 b (show 53 < 54 by decide),
    testBit_w54 b (show 44 < 54 by decide)] at hbody
  exact congrArg Host.Outcome.next (issue_on hc b.isLt hg (hbody hz hx hn hr hen hd ha hown) (seq_parts (sp_seq _ _)))

section buffers
variable {n : Nat} (hn : n = fld b 53 50) (hen : bit ((s.core p.val).cb n) 63 = true)
include hn hen

theorem cbpush_pushes (hz : fld b 49 0 = 0) (h : (s.core p.val).cbCount n < cbDepth ((s.core p.val).cb n)) :
    exec (.cbpush p g b) s = .next (s.setCore p.val ((s.core p.val).setCb n ((s.core p.val).cbHead n) ((s.core p.val).cbTail n + 1)).wentOn) :=
  congrArg Host.Outcome.next (issue_on hc b.isLt hg (by simp [bodyCbpush, nfld_w54, hz, ← hn, hen, Nat.not_le.mpr h])
    (seq_parts (setCb_seq _ _ _ _)))

theorem cbpush_waits (hz : fld b 49 0 = 0) (h : cbDepth ((s.core p.val).cb n) ≤ (s.core p.val).cbCount n) :
    exec (.cbpush p g b) s = .next (s.setCore p.val
      ((s.core p.val).waiting .waitCb (seqWord 0x31 g b.toNat) s.tclk ((s.core p.val).cbCount n))) :=
  congrArg Host.Outcome.next (issue_waiting hc b.isLt hg (by simp [bodyCbpush, nfld_w54, hz, ← hn, hen, h]))

section pop
variable {k : Nat} (hz : fld b 30 0 = 0) (hcr : bit ((s.core p.val).cb n) 19 = false)
  (hk : k = (if bit b 49 then ((s.core p.val).sreg (fld b 48 44)).toNat else fld b 43 31))
  (he : if bit b 49 then fld b 43 31 = 0 else fld b 48 44 = 0) (h1 : 1 ≤ k) (h2 : k ≤ cbDepth ((s.core p.val).cb n))
include hz hcr hk he h1 h2

omit hc hg in
/-- A legal CBPOP without credit return compares its K with COUNT (R208). -/
theorem bodyCbpop_legal : bodyCbpop s p.val (seqWord 0x32 g b.toNat) (s.core p.val)
    = if (s.core p.val).cbCount n < k then .wait .waitCb ((s.core p.val).cbCount n)
      else ((s.core p.val).setCb n ((s.core p.val).cbHead n + k) ((s.core p.val).cbTail n)).retire := by
  have hcount : (s.core p.val).countK (bit b 49) (fld b 48 44) (fld b 43 31) = k := by rw [hk]; rfl
  have henc : (if bit b 49 = true then decide (fld b 43 31 ≠ 0) else decide (fld b 48 44 ≠ 0)) = false := by
    split at he <;> simp_all
  simp (disch := decide) only [bodyCbpop, nfld_w54, testBit_w54, hz, ← hn, hen, hcr, hcount]
  rw [if_neg]
  · rfl
  · rw [henc, decide_eq_false (Nat.not_lt.mpr h1), decide_eq_false (Nat.not_lt.mpr h2)]; decide

theorem cbpop_pops (h : k ≤ (s.core p.val).cbCount n) :
    exec (.cbpop p g b) s = .next (s.setCore p.val ((s.core p.val).setCb n ((s.core p.val).cbHead n + k) ((s.core p.val).cbTail n)).wentOn) :=
  congrArg Host.Outcome.next (issue_on hc b.isLt hg
    ((bodyCbpop_legal hn hen hz hcr hk he h1 h2).trans (if_neg (Nat.not_lt.mpr h))) (seq_parts (setCb_seq _ _ _ _)))

theorem cbpop_waits (h : (s.core p.val).cbCount n < k) :
    exec (.cbpop p g b) s = .next (s.setCore p.val
      ((s.core p.val).waiting .waitCb (seqWord 0x32 g b.toNat) s.tclk ((s.core p.val).cbCount n))) :=
  congrArg Host.Outcome.next (issue_waiting hc b.isLt hg ((bodyCbpop_legal hn hen hz hcr hk he h1 h2).trans (if_pos h)))

end pop

theorem cbaddr_tells (hz : fld b 31 0 = 0) :
    exec (.cbaddr p g b) s = .next (s.setCore p.val ((s.core p.val).setSreg (fld b 49 45) (BitVec.ofNat 64
      (fld ((s.core p.val).cb n) 62 41 + ((if bit b 44 then (s.core p.val).cbTail n else (s.core p.val).cbHead n) + fld b 43 32)
        % cbDepth ((s.core p.val).cb n) * cbEntry ((s.core p.val).cb n)))).wentOn) := by
  refine congrArg Host.Outcome.next (issue_setSreg hc b.isLt hg ?_)
  simp (disch := decide) only [bodyCbaddr, nfld_w54, testBit_w54, hz, ← hn, hen]
  rfl

end buffers
end rows

/-- Settles O10: each row by what its word comes to; the pair word of WOPEN gives back its two offsets (`pairOf_ofNat`). -/
theorem windowAndBufferRows : Obligations.WindowAndBufferRows := by
  unfold Obligations.WindowAndBufferRows
  intro s p g b hc hg
  exact ⟨fun lo hi hz hx hlo hhi hlt hle hown hf hf' => wopen_opens hc hg hz (pairOf_eq hx hlt hle) (winOk_of hlo hhi hlt hle hown) hf hf', wclose_closes hc hg,
    fun x n hz hx hn hr hen hd ha hown => cbcfg_configures hc hg hz hx hn hr hen hd ha hown,
    fun n hz hn hen => ⟨cbpush_pushes hc hg hn hen hz, cbpush_waits hc hg hn hen hz⟩,
    fun n k hz hn hen hcr hk he h1 h2 => ⟨cbpop_pops hc hg hn hen hz hcr hk he h1 h2, cbpop_waits hc hg hn hen hz hcr hk he h1 h2⟩,
    fun n hz hn hen => cbaddr_tells hc hg hn hen hz⟩

end Sys2Proof.Machine
end

section
/-! SUPPORT. TSEND and CRET (R161, R162, R200, R204). -/

namespace Sys2Proof.Machine

/-! ### Sends that wait at the core -/

/-- A held packet that waits for nothing leaves at once. -/
theorem flush_free {u : CoreUnits} {h : HeldSend} (hu : u.held = [h]) (hf : h.free u = true) : u.flush = ({ u with held := [] }, [h.packet]) := by
  simp [CoreUnits.flush, hu, hf]

/-- A token that waits for a transfer of its engine is not free (R161). -/
theorem free_of_write {h : HeldSend} {u : CoreUnits} {i : Nat} (hi : i ∈ h.writes) (hx : i ∈ u.xfers.map Xfer.id) : h.free u = false := by
  obtain ⟨x, hmem, rfl⟩ := List.mem_map.mp hx
  have : h.writes.all (fun i => u.xfers.all fun x => x.id ≠ i) = false := by
    rw [List.all_eq_false]
    exact ⟨x.id, hi, by simpa using ⟨x, hmem, rfl⟩⟩
  rw [HeldSend.free, this, Bool.false_and]

/-- A credit that waits for an operation with a READ entry is not free (R162). -/
theorem free_of_read {h : HeldSend} {u : CoreUnits} {e : SbEntry} (hi : e.owner ∈ h.reads) (he : e ∈ u.sb) (hr : e.write = false) :
    h.free u = false := by
  have : h.reads.all (fun i => u.sb.all fun e => e.owner ≠ i || e.write) = false := by
    rw [List.all_eq_false]
    exact ⟨e.owner, hi, by simpa using ⟨e, he, rfl, hr⟩⟩
  rw [HeldSend.free, this, Bool.and_false]

/-! ### The issue of a counting send -/

section send
variable {s : State} {p w : Nat} {c : Core} {dest grp k q : Nat} {token : Bool}

/-- What the units of a core are once a counting send has joined its group, before the packet's condition is looked at. -/
def CoreUnits.sent (u : CoreUnits) (x : Xfer) (dest grp : Nat) : CoreUnits :=
  { u with nextId := u.nextId + 1, seqNos := Tab.mod 0 u.seqNos ((srcCore dest).toNat * 256 + grp) (· + 1),
           xfers := u.xfers ++ [x], grps := Tab.mod 0 u.grps x.grp.toNat fun v => satFld v 4 0 1 }

/-- The transfer of a counting send: one piece, towards the destination core. -/
def countXfer (u : CoreUnits) (kind : XferKind) (dest grp now : Nat) : Xfer :=
  { Xfer.fresh u.nextId kind grp now with
      left := [{ node := srcCore dest, stream := BitVec.ofNat 8 grp, seq := Tab.get 0 u.seqNos ((srcCore dest).toNat * 256 + grp), bytes := 0 }] }

/-- The packet of a counting send, of opcode `opc`, with `k` for counter `n`. -/
def sendPacket (s : State) (p : Nat) (c : Core) (opc dest grp n k : Nat) : Packet :=
  { corePacket s p c with
      seq := Tab.get 0 c.units.seqNos ((srcCore dest).toNat * 256 + grp), stream := BitVec.ofNat 8 grp, didx := BitVec.ofNat 10 (dest / 64)
      opc := BitVec.ofNat 6 opc, daddr := padAddr dest 0, aux := BitVec.ofNat 48 (n * 65536 + k) }

/-- A counting send to a core that lives: its units, with the packet held, are flushed. -/
theorem sendCount_live (hz : nfld w 3 0 = 0) (hk : c.kOk w = true) (hkv : k = c.kOf w) (hgrp : grp = nfld w 6 4)
    (hdest : dest = (if w.testBit 26 then fld (c.sreg (nfld w 25 21)) 13 0 else nfld w 20 7))
    (henc : if w.testBit 26 then nfld w 20 7 = 0 else nfld w 25 21 = 0) (hroom : c.units.dmaRoom = true) (hq : s.coreAt dest = some q)
    (hf : (s.core q).fenced = false) (hheld : c.units.held = []) (u : CoreUnits × List Packet)
    (hu : u = ({ c.units.sent (countXfer c.units (if token then .tsend else .cret) dest grp s.tclk) dest grp with
      held := [{ packet := sendPacket s p c (if token then 6 else 7) dest grp (nfld w 53 49) k, tid := some c.units.nextId,
                                 writes := if token then c.units.writesOut else [], reads := if token then [] else c.units.readsOut }] }
        : CoreUnits).flush) :
    sendCount s p w c token = .done { c with units := u.1 } (c.seq.pc.toNat + 1) u.2 [] := by
  have henc' : (if w.testBit 26 = true then decide (nfld w 20 7 ≠ 0) else decide (nfld w 25 21 ≠ 0)) = false := by
    split at henc <;> simp_all
  have hsb : sbEnter c.units.sb c.units.nextId false [] = c.units.sb := by simp [sbEnter]
  subst hu
  cases token
  all_goals
    simp only [sendCount, hz, hk, ← hkv, ← hgrp, ← hdest, hroom, hq, hf]
    rw [if_neg (by rw [henc']; decide), if_neg (by decide), if_neg (by decide)]
    simp only [Core.enter, hsb, CoreUnits.nextSeq, CoreUnits.addXfer, CoreUnits.join, hheld]
    rfl

end send

/-! ### The rows -/

section rows
variable {s : State} {p : PCore} {g : Guard} {b : BitVec 54} {dest grp k q : Nat} {c : Core} (hc : (s.core p.val).plain)
  (hg : (s.core p.val).guarded g) (hz : fld b 3 0 = 0) (hcore : c = s.core p.val) (hheld : c.units.held = [])
  (hk : k = c.kField b) (he : kEncoded b) (h1 : 1 ≤ k) (h2 : k ≤ 65535) (hgrp : grp = fld b 6 4)
  (hdest : dest = (if bit b 26 then fld (c.sreg (fld b 25 21)) 13 0 else fld b 20 7))
  (henc : if bit b 26 then fld b 20 7 = 0 else fld b 25 21 = 0) (hroom : c.units.dmaRoom = true) (hq : s.coreAt dest = some q)
  (hf : (s.core q).fenced = false)

/-- The core of a counting send whose packet waits, or has left: its transfer has joined its group, and `held` is what it keeps back. -/
def Core.sentCount (c : Core) (kind : XferKind) (dest grp now : Nat) (held : List HeldSend) : Core :=
  { c with units := { c.units.sent (countXfer c.units kind dest grp now) dest grp with held := held } }

include hc hg hz hcore hheld hk he h1 h2 hgrp hdest henc hroom hq hf

/-- A counting send to a live core retires with its units flushed. -/
theorem sends {op : Nat} (token : Bool) (u : CoreUnits × List Packet)
    (hu : u = ({ c.units.sent (countXfer c.units (if token then .tsend else .cret) dest grp s.tclk) dest grp with
      held := [{ packet := sendPacket s p.val c (if token then 6 else 7) dest grp (fld b 53 49) k, tid := some c.units.nextId,
                 writes := if token then c.units.writesOut else [], reads := if token then [] else c.units.readsOut }] } : CoreUnits).flush) :
    s.issue p.val op g b.toNat (fun s p w c => sendCount s p w c token)
      = (s.setCore p.val (Core.wentOn { c with units := u.1 })).send u.2 := by
  have hbody := sendCount_live (s := s) (p := p.val) (w := seqWord op g b.toNat) (c := c) (dest := dest) (grp := grp) (k := k) (q := q) (token := token)
  simp only [nfld_w54 b (show 3 < 54 by decide), nfld_w54 b (show 6 < 54 by decide), nfld_w54 b (show 25 < 54 by decide),
    nfld_w54 b (show 20 < 54 by decide), nfld_w54 b (show 53 < 54 by decide), testBit_w54 b (show 26 < 54 by decide), kOk_word hk he h1 h2,
    kOf_word] at hbody
  subst hcore
  have hstay : (s.core p.val).seq.pc.toNat + 1 ≤ 4095 := by obtain ⟨-, -, -, -, hpc⟩ := hc; omega
  rw [issue_done (body := fun s p w c => sendCount s p w c token) hc b.isLt hg (hbody hz trivial hk hgrp hdest henc hroom hq hf hheld u hu) hc.2.1 hc.2.2.1 hstay,
    List.append_nil]
  rfl

theorem tsend_leaves (hw : c.units.writesOut = []) :
    exec (.tsend p g b) s = .next ((s.setCore p.val (c.sentCount .tsend dest grp s.tclk []).wentOn).send [sendPacket s p.val c 6 dest grp (fld b 53 49) k]) :=
  congrArg Host.Outcome.next (sends hc hg hz hcore hheld hk he h1 h2 hgrp hdest henc hroom hq hf true _
    (flush_free rfl (by simp [HeldSend.free, hw])).symm)

theorem tsend_held (hw : c.units.writesOut ≠ []) :
    exec (.tsend p g b) s = .next (s.setCore p.val (c.sentCount .tsend dest grp s.tclk
      [{ packet := sendPacket s p.val c 6 dest grp (fld b 53 49) k, tid := some c.units.nextId, writes := c.units.writesOut, reads := [] }]).wentOn) := by
  obtain ⟨i, hi⟩ := List.exists_mem_of_ne_nil _ hw
  obtain ⟨x, hx, hxi⟩ := List.mem_map.mp hi
  have hxs : i ∈ (c.units.sent (countXfer c.units .tsend dest grp s.tclk) dest grp).xfers.map Xfer.id :=
    List.mem_map.mpr ⟨x, List.mem_append_left _ (List.mem_of_mem_filter hx), hxi⟩
  have hflush := flush_held (u := (c.sentCount .tsend dest grp s.tclk [⟨sendPacket s p.val c 6 dest grp (fld b 53 49) k,
    some c.units.nextId, c.units.writesOut, []⟩]).units) rfl (free_of_write hi hxs)
  have hsent := sends (op := 0x2A) hc hg hz hcore hheld hk he h1 h2 hgrp hdest henc hroom hq hf true _ hflush.symm
  exact congrArg Host.Outcome.next (hsent.trans (send_nil _))

theorem cret_leaves (hr : c.units.readsOut = []) :
    exec (.cret p g b) s = .next ((s.setCore p.val (c.sentCount .cret dest grp s.tclk []).wentOn).send [sendPacket s p.val c 7 dest grp (fld b 53 49) k]) :=
  congrArg Host.Outcome.next (sends hc hg hz hcore hheld hk he h1 h2 hgrp hdest henc hroom hq hf false _
    (flush_free rfl (by simp [HeldSend.free, hr])).symm)

theorem cret_held (hr : c.units.readsOut ≠ []) :
    exec (.cret p g b) s = .next (s.setCore p.val (c.sentCount .cret dest grp s.tclk
      [{ packet := sendPacket s p.val c 7 dest grp (fld b 53 49) k, tid := some c.units.nextId, writes := [], reads := c.units.readsOut }]).wentOn) := by
  obtain ⟨i, hi⟩ := List.exists_mem_of_ne_nil _ hr
  obtain ⟨e, he', rfl⟩ := List.mem_map.mp hi
  obtain ⟨hmem, hread⟩ := List.mem_filter.mp he'
  have hflush := flush_held (u := (c.sentCount .cret dest grp s.tclk [⟨sendPacket s p.val c 7 dest grp (fld b 53 49) k,
    some c.units.nextId, [], c.units.readsOut⟩]).units) rfl (free_of_read hi hmem (by simpa using hread))
  have hsent := sends (op := 0x2B) hc hg hz hcore hheld hk he h1 h2 hgrp hdest henc hroom hq hf false _ hflush.symm
  exact congrArg Host.Outcome.next (hsent.trans (send_nil _))

end rows

/-- Settles O11: the packet of a counting send is held with what it waits for, and the flush sends it when that is nothing. -/
theorem countingSends : Obligations.CountingSends := by
  unfold Obligations.CountingSends
  rintro s p g b dest grp k q c hc hg hz hcore hheld hk he h1 h2 hgrp hdest henc hroom hq hf seq x mk d rfl rfl rfl rfl
  exact ⟨tsend_leaves hc hg hz hcore hheld hk he h1 h2 hgrp hdest henc hroom hq hf, tsend_held hc hg hz hcore hheld hk he h1 h2 hgrp hdest henc hroom hq hf,
    cret_leaves hc hg hz hcore hheld hk he h1 h2 hgrp hdest henc hroom hq hf, cret_held hc hg hz hcore hheld hk he h1 h2 hgrp hdest henc hroom hq hf⟩

end Sys2Proof.Machine
end

section
/-! SUPPORT. The rows that put an operation into the queue of the array, the vector engine or the fill and copy unit (R80, R121, R139,
R194 to R196). -/

namespace Sys2Proof.Machine

/-! ### The array's queue -/

/-- The contents of the weight set that the operation reads, as planned by the operations before it (R85). -/
def ArrKind.plan (k : ArrKind) (u : CoreUnits) : Option WsetTag :=
  match k with
  | .mmaWs _ _ w _ _ _ _ => u.plan w
  | _ => none

/-- The units once the operation has recorded what it puts into a weight set (R85). -/
def ArrKind.record (k : ArrKind) (u : CoreUnits) : CoreUnits :=
  match k with
  | .wload w b _ _ sparse halfk =>
    let t : WsetTag := { tb := b.type, sparse := sparse, halfk := halfk }
    if w then { u with plan1 := some t } else { u with plan0 := some t }
  | _ => u

/-- An operation that the array takes is entered, queued and recorded. -/
theorem issueArr_takes {c : Core} {k : ArrKind} {rs : List (List (Nat × Nat) × Bool)} (h : c.takesArr (k.plan c.units) k rs) :
    c.issueArr k = ({ c with units := k.record (c.tookArr k rs).units } : Core).retire := by
  obtain ⟨hrs, hin, hroom, hready⟩ := h
  have hpad : (rs.all fun r => r.1.all fun x => inPad x.1 x.2) = true := by
    rw [List.all_eq_true]
    intro r hr
    rw [List.all_eq_true]
    exact fun x hx => (hin x (List.mem_flatMap.mpr ⟨r, hr, hx⟩)).1
  have hown : (rs.flatMap Prod.fst).find? (fun x => !c.ownOk x.1 x.2) = none := by
    rw [List.find?_eq_none]
    intro x hx
    simp [(hin x hx).2]
  unfold Core.issueArr
  cases k <;>
  · simp only [ArrKind.plan] at hrs
    simp only [hrs, hpad, hown, Bool.not_true, Bool.false_eq_true, if_false, Core.through, hready, if_true]
    rw [if_neg (by omega)]
    rfl

/-! ### What a word comes to, whatever its other bits -/

section words
variable {s : State} {p w : Nat} {c : Core}

theorem bodyMmaOs_issues {x y : StreamWord} {sa sb md : Nat} (hx : streamOf (c.sreg (nfld w 33 29)) = some x)
    (hy : streamOf (c.sreg (nfld w 28 24)) = some y) (hs : c.pairIf (typeMx x.type || typeMx y.type) (nfld w 23 19) = some (sa, sb))
    (hm : c.pairIf (w.testBit 12) (nfld w 18 14) = some (md, 0)) (hz : nfld w 10 0 = 0) :
    bodyMmaOs s p w c
      = c.issueArr (.mmaOs (nfld w 53 46) (nfld w 45 34 + 1) x y sa sb md (w.testBit 13) (w.testBit 12) (w.testBit 11)) := by
  simp [bodyMmaOs, hx, hy, hs, hm, hz]

theorem bodyMmaWs_issues {x : StreamWord} {t : WsetTag} {sa z : Nat} (hx : streamOf (c.sreg (nfld w 33 29)) = some x)
    (ht : c.units.plan (w.testBit 34) = some t) (hs : c.pairIf (typeMx x.type || typeMx t.tb) (nfld w 23 19) = some (sa, z))
    (hz : nfld w 10 0 = 0) (h12 : w.testBit 12 = false) (h18 : nfld w 18 14 = 0) (h28 : nfld w 28 24 = 0) :
    bodyMmaWs s p w c = c.issueArr (.mmaWs (nfld w 53 46) (nfld w 45 35 + 1) (w.testBit 34) x sa (w.testBit 13) (w.testBit 11)) := by
  simp [bodyMmaWs, hx, ht, hs, hz, h12, h18, h28]

theorem bodyWload_issues {x : StreamWord} {z sb md : Nat} (hx : streamOf (c.sreg (nfld w 28 24)) = some x)
    (hs : c.pairIf (typeMx x.type) (nfld w 23 19) = some (z, sb)) (hm : c.pairIf (w.testBit 12) (nfld w 18 14) = some (md, 0))
    (hz : nfld w 10 0 = 0) (h13 : w.testBit 13 = false) (h33 : nfld w 33 29 = 0) (h53 : nfld w 53 35 = 0) :
    bodyWload s p w c = c.issueArr (.wload (w.testBit 34) x sb md (w.testBit 12) (w.testBit 11)) := by
  simp [bodyWload, hx, hs, hm, hz, h13, h33, h53]

theorem bodyAccLoad_issues {src stride : Nat} (hp : pairOf (c.sreg (nfld w 37 33)) = some (src, stride)) (hz : nfld w 24 0 = 0)
    (ht : nfld w 32 25 = 0 ∨ nfld w 32 25 = 9) :
    bodyAccLoad s p w c = c.issueArr (.accLoad (nfld w 53 46) (nfld w 45 38 + 1) src stride) := by
  have hts : (!(nfld w 32 25 = 0 || nfld w 32 25 = 9)) = false := by rcases ht with h | h <;> rw [h] <;> decide
  simp [bodyAccLoad, hp, hz, hts]

theorem bodyDrain_issues {dest stride ra rb : Nat} (hp : pairOf (c.sreg (nfld w 37 33)) = some (dest, stride))
    (hr : c.pairIf (w.testBit 16 || w.testBit 15) (nfld w 24 20) = some (ra, rb)) (hz : nfld w 12 0 = 0) :
    bodyDrain s p w c = c.issueArr (.drain (nfld w 53 46) (nfld w 45 38 + 1) dest stride (BitVec.ofNat 8 (nfld w 32 25))
      (BitVec.ofNat 2 (nfld w 19 18)) (w.testBit 17) (w.testBit 16) (w.testBit 15) (w.testBit 14) (w.testBit 13) ra rb) := by
  simp [bodyDrain, hp, hr, hz]

theorem bodyVchain_queues {off : Nat} {bytes : List Byte} (hoff : off = c.effective (nfld w 53 49) (nfld w 48 27)) (hz : nfld w 26 0 = 0)
    (hal : off % 64 = 0) (hin : off + 192 ≤ 0x300000) (hown : c.ownOk off 192 = true) (hhaz : hazard c.units.sb off (off + 191) false = false)
    (herr : c.sp.errs = []) (hbytes : bytes = Memory.read c.sp.mem off 192) (hok : (vDesc bytes).ok = true)
    (hbanks : ∀ r ∈ ((vDesc bytes).ranges off).flatMap Prod.fst, c.ownOk r.1 r.2 = true)
    (hroom : (c.units.vecQ.filter fun h => !h.started).length < 2)
    (hready : sbReady c.units.sb (((vDesc bytes).ranges off).flatMap fun r => hull r.1 r.2) = true) :
    bodyVchain s p w c = ({ c with units := { (c.entered (((vDesc bytes).ranges off).flatMap fun r => hull r.1 r.2)).units with
      vecQ := c.units.vecQ ++ [{ id := c.units.nextId, desc := bytes, numCtrl := c.num.ctrl, started := c.units.vecQ.isEmpty,
                                 sumDone := false }] } } : Core).retire := by
  have hpad : inPad off 192 = true := decide_eq_true hin
  have hfind : (((vDesc bytes).ranges off).flatMap Prod.fst).find? (fun r => !c.ownOk r.1 r.2) = none := by
    rw [List.find?_eq_none]
    intro x hx
    simp [hbanks x hx]
  have hfew : ¬ (c.units.vecQ.filter fun h => !h.started).length ≥ 2 := not_le.mpr hroom
  unfold bodyVchain
  simp only [← hoff, hz, hal, hpad, hown, hhaz, check_nil _ _ herr, ← hbytes, hok, hfind, hfew, Core.through, hready, if_true, if_false]
  rfl

theorem bodyFill_queues {dest len : Nat} (hd : dest = (c.sreg (nfld w 53 49)).toNat) (hl : len = (c.sreg (nfld w 48 44)).toNat)
    (hz : nfld w 37 0 = 0) (hok : c.fcOk dest len = true) (hroom : c.units.fcQ.length < 5)
    (hready : sbReady c.units.sb [(dest, dest + len - 1, true)] = true) :
    bodyFill s p w c = ({ c with units := { (c.entered [(dest, dest + len - 1, true)]).units with
      fcQ := c.units.fcQ ++ [{ id := c.units.nextId, copy := false, dest := dest, src := 0, len := len,
                               pattern := c.sreg (nfld w 43 39), spec := false }] } } : Core).retire := by
  have hfew : ¬ c.units.fcQ.length ≥ 5 := not_le.mpr hroom
  have hready' : sbReady c.units.sb (fcRanges false dest 0 len) = true := hready
  unfold bodyFill
  simp only [← hd, ← hl, hz, hok, hfew, Core.through, hready', if_true, if_false]
  rfl

theorem bodyCopy_queues {dest len src : Nat} (hd : dest = (c.sreg (nfld w 53 49)).toNat) (hl : len = (c.sreg (nfld w 48 44)).toNat)
    (hsrc : src = (c.sreg (nfld w 43 39)).toNat) (hz : nfld w 38 0 = 0) (hok : c.fcOk dest len = true) (hoks : c.fcOk src len = true)
    (hroom : c.units.fcQ.length < 5) (hready : sbReady c.units.sb [(src, src + len - 1, false), (dest, dest + len - 1, true)] = true) :
    bodyCopy s p w c = ({ c with units := { (c.entered [(src, src + len - 1, false), (dest, dest + len - 1, true)]).units with
      fcQ := c.units.fcQ ++ [{ id := c.units.nextId, copy := true, dest := dest, src := src, len := len, pattern := 0, spec := false }] } }
      : Core).retire := by
  have hfew : ¬ c.units.fcQ.length ≥ 5 := not_le.mpr hroom
  have hready' : sbReady c.units.sb (fcRanges true dest src len) = true := hready
  unfold bodyCopy
  simp only [← hd, ← hl, ← hsrc, hz, hok, hoks, hfew, Core.through, hready', if_true, if_false]
  rfl

end words

/-! ### The rows -/

section rows
variable {s : State} {p : PCore} {g : Guard} {b : BitVec 54} (hc : (s.core p.val).plain) (hg : (s.core p.val).guarded g)
include hc hg

/-- An instruction that comes to an array operation that the array takes. -/
theorem arr_queues {op : Nat} {body : Body} {k : ArrKind} {rs : List (List (Nat × Nat) × Bool)}
    (h : body s p.val (seqWord op g b.toNat) (s.core p.val) = (s.core p.val).issueArr k)
    {plan : Option WsetTag} (hp : k.plan (s.core p.val).units = plan) (ht : (s.core p.val).takesArr plan k rs) :
    s.issue p.val op g b.toNat body
      = s.setCore p.val (Core.wentOn { s.core p.val with units := k.record ((s.core p.val).tookArr k rs).units }) :=
  issue_on hc b.isLt hg (h.trans (issueArr_takes (hp ▸ ht))) (seq_parts rfl)

end rows

/-- Settles O12: each word comes to one operation, which its unit's queue takes. -/
theorem unitIssueRows : Obligations.UnitIssueRows := by
  unfold Obligations.UnitIssueRows
  refine ⟨fun s p g b c rs hc hg hcore => ⟨?_, ?_, ?_, ?_, ?_⟩, fun s p g b c hc hg hcore => ⟨?_, ?_, ?_⟩⟩ <;> subst hcore
  · rintro x y sa sb md k hx hy hs hm hz rfl ht
    have hbody := bodyMmaOs_issues (s := s) (p := p.val) (w := seqWord 0x10 g b.toNat) (c := s.core p.val) (x := x) (y := y) (sa := sa) (sb := sb) (md := md)
    simp (disch := decide) only [nfld_w54, testBit_w54] at hbody
    exact congrArg Host.Outcome.next (arr_queues hc hg (hbody hx hy hs hm hz) rfl ht)
  · rintro x t sa z k hx hp hs hz h12 h18 h28 rfl ht
    have hbody := bodyMmaWs_issues (s := s) (p := p.val) (w := seqWord 0x11 g b.toNat) (c := s.core p.val) (x := x) (t := t) (sa := sa) (z := z)
    simp (disch := decide) only [nfld_w54, testBit_w54] at hbody
    exact congrArg Host.Outcome.next (arr_queues hc hg (hbody hx hp hs hz h12 h18 h28) hp ht)
  · rintro x z sb md k d hx hs hm hz h13 h33 h53 rfl ht rfl
    have hbody := bodyWload_issues (s := s) (p := p.val) (w := seqWord 0x12 g b.toNat) (c := s.core p.val) (x := x) (z := z) (sb := sb) (md := md)
    simp (disch := decide) only [nfld_w54, testBit_w54] at hbody
    have hrow := arr_queues hc hg (hbody hx hs hm hz h13 h33 h53) rfl ht
    exact ⟨fun h34 => congrArg Host.Outcome.next (hrow.trans (by rw [h34]; rfl)),
      fun h34 => congrArg Host.Outcome.next (hrow.trans (by rw [h34]; rfl))⟩
  · rintro src stride k hp hz hts rfl ht
    have hbody := bodyAccLoad_issues (s := s) (p := p.val) (w := seqWord 0x13 g b.toNat) (c := s.core p.val) (src := src) (stride := stride)
    simp (disch := decide) only [nfld_w54] at hbody
    exact congrArg Host.Outcome.next (arr_queues hc hg (hbody hp hz hts) rfl ht)
  · rintro dest stride ra rb k hp hr hz rfl ht
    have hbody := bodyDrain_issues (s := s) (p := p.val) (w := seqWord 0x14 g b.toNat) (c := s.core p.val) (dest := dest) (stride := stride) (ra := ra) (rb := rb)
    simp (disch := decide) only [nfld_w54, testBit_w54] at hbody
    exact congrArg Host.Outcome.next (arr_queues hc hg (hbody hp hr hz) rfl ht)
  · rintro off bytes hoff hz hal hin hown hhaz herr hbytes hok hbanks hroom hready
    have hbody := bodyVchain_queues (s := s) (p := p.val) (w := seqWord 0x18 g b.toNat) (c := s.core p.val) (off := off) (bytes := bytes)
    simp (disch := decide) only [nfld_w54] at hbody
    exact congrArg Host.Outcome.next (issue_on hc b.isLt hg (hbody hoff hz hal hin hown hhaz herr hbytes hok hbanks hroom hready) (seq_parts rfl))
  · rintro dest len hd hl hz hok hroom hready
    have hbody := bodyFill_queues (s := s) (p := p.val) (w := seqWord 0x1C g b.toNat) (c := s.core p.val) (dest := dest) (len := len)
    simp (disch := decide) only [nfld_w54] at hbody
    exact congrArg Host.Outcome.next (issue_on hc b.isLt hg (hbody hd hl hz hok hroom hready) (seq_parts rfl))
  · rintro dest len src hd hl hsrc hz hok hoks hroom hready
    have hbody := bodyCopy_queues (s := s) (p := p.val) (w := seqWord 0x1D g b.toNat) (c := s.core p.val) (dest := dest) (len := len) (src := src)
    simp (disch := decide) only [nfld_w54] at hbody
    exact congrArg Host.Outcome.next (issue_on hc b.isLt hg (hbody hd hl hsrc hz hok hoks hroom hready) (seq_parts rfl))

end Sys2Proof.Machine
end

section
/-! SUPPORT. The rows that make fabric transfers, multicasts and mesh messages (R197 to R200, R219, R263). -/

namespace Sys2Proof.Machine

/-- An instruction that changes its core outside the sequencer, and sends packets. -/
theorem issue_sends {s : State} {p op b : Nat} {g : Guard} {body : Body} {d : Core} {out : List Packet}
    (hc : (s.core p).plain) (hb : b < 2 ^ 54) (hg : (s.core p).guarded g)
    (h : body s p (seqWord op g b) (s.core p) = .done d ((s.core p).seq.pc.toNat + 1) out []) (hd : d.seq = (s.core p).seq) :
    s.issue p op g b body = (s.setCore p d.wentOn).send out := by
  obtain ⟨hra, hhalt, hpc⟩ := seq_parts hd
  have hstay : (s.core p).seq.pc.toNat + 1 ≤ 4095 := by obtain ⟨-, -, -, -, hlt⟩ := hc; omega
  rw [issue_done hc hb hg h (hra.trans hc.2.1) (hhalt.trans hc.2.2.1) hstay, List.append_nil, Core.wentOn, hpc]
  rfl

/-- An instruction that changes its core outside the sequencer, and puts a message on the mesh. -/
theorem issue_messages {s : State} {p op b : Nat} {g : Guard} {body : Body} {d : Core} {msgs : List MeshMsg}
    (hc : (s.core p).plain) (hb : b < 2 ^ 54) (hg : (s.core p).guarded g)
    (h : body s p (seqWord op g b) (s.core p) = .done d ((s.core p).seq.pc.toNat + 1) [] msgs) (hd : d.seq = (s.core p).seq) :
    s.issue p op g b body = { s.setCore p d.wentOn with mesh := s.mesh ++ msgs } := by
  obtain ⟨hra, hhalt, hpc⟩ := seq_parts hd
  have hstay : (s.core p).seq.pc.toNat + 1 ≤ 4095 := by obtain ⟨-, -, -, -, hlt⟩ := hc; omega
  rw [issue_done hc hb hg h (hra.trans hc.2.1) (hhalt.trans hc.2.2.1) hstay, Core.wentOn, hpc, send_nil]

/-! ### What a word comes to, whatever its other bits -/

section words
variable {s : State} {p w : Nat} {c d : Core} {off addr n grp : Nat} (hoff : off = (c.sreg (nfld w 53 49)).toNat)
  (haddr : addr = (c.sreg (nfld w 48 44)).toNat) (hn : n = (c.sreg (nfld w 43 39)).toNat) (hgrp : grp = nfld w 38 36) (hlt : addr < 2 ^ 48)
include hoff haddr hn hgrp hlt

theorem bodyFrd_sends {r : Sent} (hal : addr % 8 = 0) (hok : c.localOk 8 off n = true) (hown : c.ownOk off n = true)
    (hroom : c.units.dmaRoom = true) (hz : nfld w 34 0 = 0) (hready : sbReady c.units.sb [(off, off + n - 1, true)] = true)
    (hd : d = c.entered [(off, off + n - 1, true)]) (hr : r = sendParts s d.units (corePacket s p d) grp (mkRead false) (partsOf addr off n)) :
    bodyFrd s p w c = .done { d with
      units := r.units.addXfer { Xfer.fresh c.units.nextId .frd grp s.tclk with left := r.left, status := r.status, packets := r.out }
      sp := (r.failed.map fun e => (e.1, List.replicate e.2 (0 : Byte))).foldl (fun sp z => sp.store z.1 z.2) d.sp }
      (c.seq.pc.toNat + 1) r.out [] := by
  have hfits : ¬ addr ≥ 2 ^ 48 := not_le.mpr hlt
  unfold bodyFrd
  simp only [← hoff, ← haddr, ← hn, ← hgrp, hz, hfits, hal, hok, hown, hroom, Core.through, hready, if_true]
  subst hr hd
  rfl

theorem bodyFwr_sends {r : Sent} (hal : addr % 8 = 0) (hok : c.localOk 8 off n = true) (hown : c.ownOk off n = true)
    (hroom : c.units.dmaRoom = true) (hz : nfld w 35 0 = 0) (hready : sbReady c.units.sb [(off, off + n - 1, false)] = true)
    (herr : c.sp.errs = [])
    (hd : d = c.entered [(off, off + n - 1, false)])
    (hr : r = sendParts s d.units (corePacket s p d) grp (mkWrite d.sp.mem) (partsOf addr off n)) :
    bodyFwr s p w c = .done { d with
      units := r.units.addXfer { Xfer.fresh c.units.nextId .fwr grp s.tclk with left := r.left, status := r.status, packets := r.out } }
      (c.seq.pc.toNat + 1) r.out [] := by
  have hfits : ¬ addr ≥ 2 ^ 48 := not_le.mpr hlt
  unfold bodyFwr
  simp only [← hoff, ← haddr, ← hn, ← hgrp, hz, hfits, hal, hok, hown, hroom, Core.through, hready, Core.outbound, check_nil _ _ herr, if_true]
  subst hr hd
  rfl

omit hoff in
theorem bodyHint_sends {r : Sent} (hz : nfld w 34 0 = 0) (hg0 : grp = 0) (h53 : nfld w 53 49 = 0) (h1 : 1 ≤ n) (h2 : n ≤ 0x1000000)
    (hin : inHbm addr n = true) (hr : r = sendParts s c.units (corePacket s p c) 0 (mkHint false) (partsOf addr 0 n)) :
    bodyHint s p w c = .done { c with units := r.units } (c.seq.pc.toNat + 1) r.out [] := by
  have hfits : ¬ addr ≥ 2 ^ 48 := not_le.mpr hlt
  have hpos : ¬ n = 0 := by omega
  have hmax : ¬ n > 0x1000000 := not_lt.mpr h2
  unfold bodyHint
  simp only [← haddr, ← hn, ← hgrp, hz, hg0, h53, hfits, hpos, hmax, hin]
  subst hr
  rfl

omit hoff in
theorem bodyHint_outside (hz : nfld w 34 0 = 0) (hg0 : grp = 0) (h53 : nfld w 53 49 = 0) (h1 : 1 ≤ n) (h2 : n ≤ 0x1000000)
    (hin : inHbm addr n = false) : bodyHint s p w c = c.retire := by
  have hfits : ¬ addr ≥ 2 ^ 48 := not_le.mpr hlt
  have hpos : ¬ n = 0 := by omega
  have hmax : ¬ n > 0x1000000 := not_lt.mpr h2
  unfold bodyHint
  simp only [← haddr, ← hn, ← hgrp, hz, hg0, h53, hfits, hpos, hmax, hin]
  rfl

end words

/-- Settles O13: the pieces of the transfer are sent as the instruction issues, and those of FRD and FWR stand in the group's transfer. -/
theorem fabricIssueRows : Obligations.FabricIssueRows := by
  unfold Obligations.FabricIssueRows
  intro s p g b c d off addr n grp hc hg hcore hoff haddr hn hgrp hlt
  subst hcore
  refine ⟨?_, ?_, ?_, ?_⟩
  · rintro r x hal hok hown hroom hz hready hd hr rfl
    have hbody := bodyFrd_sends (s := s) (p := p.val) (w := seqWord 0x20 g b.toNat) (c := s.core p.val) (d := d) (off := off) (addr := addr) (n := n) (grp := grp) (r := r)
    simp (disch := decide) only [nfld_w54] at hbody
    refine congrArg Host.Outcome.next (issue_sends hc b.isLt hg (hbody hoff haddr hn hgrp hlt hal hok hown hroom hz hready hd hr) ?_)
    rw [hd]; rfl
  · rintro r x hal hok hown hroom hz hready herr hd hr rfl
    have hbody := bodyFwr_sends (s := s) (p := p.val) (w := seqWord 0x21 g b.toNat) (c := s.core p.val) (d := d) (off := off) (addr := addr) (n := n) (grp := grp) (r := r)
    simp (disch := decide) only [nfld_w54] at hbody
    refine congrArg Host.Outcome.next (issue_sends hc b.isLt hg (hbody hoff haddr hn hgrp hlt hal hok hown hroom hz hready herr hd hr) ?_)
    rw [hd]; rfl
  · rintro r hz hg0 h53 h1 h2 hin hr
    have hbody := bodyHint_sends (s := s) (p := p.val) (w := seqWord 0x23 g b.toNat) (c := s.core p.val) (addr := addr) (n := n) (grp := grp) (r := r)
    simp (disch := decide) only [nfld_w54] at hbody
    exact congrArg Host.Outcome.next (issue_sends hc b.isLt hg (hbody haddr hn hgrp hlt hz hg0 h53 h1 h2 hin hr) rfl)
  · rintro hz hg0 h53 h1 h2 hin
    have hbody := bodyHint_outside (s := s) (p := p.val) (w := seqWord 0x23 g b.toNat) (c := s.core p.val) (addr := addr) (n := n) (grp := grp)
    simp (disch := decide) only [nfld_w54] at hbody
    exact congrArg Host.Outcome.next (issue_on hc b.isLt hg (hbody haddr hn hgrp hlt hz hg0 h53 h1 h2 hin) (seq_parts rfl))

end Sys2Proof.Machine
end

section
/-! SUPPORT. The rows of multicasts and mesh messages (R198, R199, R219, R263), and the pieces of a transfer (R249, R271). -/

namespace Sys2Proof.Machine

/-! ### The pieces of a transfer -/

/-- What cutting at 4 KiB boundaries gives, once the fuel covers the bytes: pieces that add up, follow each other, and cross no boundary. -/
theorem cut4k_covers (fuel : Nat) : ∀ (a n : Nat), (n ≠ 0 → a % 4096 + n ≤ fuel * 4096) →
    ((cut4k a fuel n).map Prod.snd).sum = n
    ∧ (∀ e ∈ cut4k a fuel n, 0 < e.2 ∧ a ≤ e.1 ∧ e.1 + e.2 ≤ a + n ∧ e.1 / 4096 = (e.1 + e.2 - 1) / 4096)
    ∧ (∀ e, (cut4k a fuel n)[0]? = some e → e.1 = a)
    ∧ ∀ (k : Nat) (e f : Nat × Nat), (cut4k a fuel n)[k]? = some e → (cut4k a fuel n)[k + 1]? = some f → f.1 = e.1 + e.2 := by
  induction fuel with
  | zero =>
    intro a n h
    have hn : n = 0 := by
      by_contra hn
      have := h hn
      omega
    simp [cut4k, hn]
  | succ fuel ih =>
    intro a n h
    by_cases hn : n = 0
    · simp [cut4k, hn]
    have hcut : cut4k a (fuel + 1) n = (a, min n (4096 - a % 4096)) :: cut4k (a + min n (4096 - a % 4096)) fuel (n - min n (4096 - a % 4096)) :=
      if_neg hn
    have hmod : a % 4096 < 4096 := Nat.mod_lt _ (by decide)
    obtain ⟨k, hk⟩ : ∃ k, k = min n (4096 - a % 4096) := ⟨_, rfl⟩
    have hkn : k ≤ n := hk ▸ min_le_left _ _
    have hkp : k ≤ 4096 - a % 4096 := hk ▸ min_le_right _ _
    have hke : k = n ∨ k = 4096 - a % 4096 := hk ▸ min_choice _ _
    have hfuel := h hn
    have hrest : n - k ≠ 0 → (a + k) % 4096 + (n - k) ≤ fuel * 4096 := by omega
    obtain ⟨hsum, hmem, hfirst, hnext⟩ := ih (a + k) (n - k) hrest
    rw [hcut, ← hk]
    clear hcut hk
    refine ⟨?_, ?_, ?_, ?_⟩
    · rw [List.map_cons, List.sum_cons, hsum]
      omega
    · intro e he
      rcases List.mem_cons.mp he with rfl | he
      · refine ⟨?_, ?_, ?_, ?_⟩ <;> dsimp only <;> omega
      · obtain ⟨hpos, hlow, hhigh, hpage⟩ := hmem e he
        exact ⟨hpos, by omega, by omega, hpage⟩
    · rintro e ⟨⟩
      rfl
    · intro i e f he hf
      cases i with
      | zero =>
        cases he
        exact hfirst f hf
      | succ i => exact hnext i e f he hf

/-- The fuel of `partsOf` covers the bytes. -/
theorem cut4k_fuel (a n : Nat) : n ≠ 0 → a % 4096 + n ≤ (n / 4096 + 2) * 4096 := by
  intro _
  have := Nat.mod_lt a (show 0 < 4096 by decide)
  omega

/-- Settles O14: the pieces are what cutting at 4 KiB boundaries gives. -/
theorem transferPiecesCover : Obligations.TransferPiecesCover := by
  unfold Obligations.TransferPiecesCover
  intro addr off n
  obtain ⟨hsum, hmem, -, hnext⟩ := cut4k_covers (n / 4096 + 2) addr n (cut4k_fuel addr n)
  refine ⟨?_, ?_, ?_⟩
  · rw [partsOf, List.map_map]
    exact hsum
  · intro e he
    obtain ⟨x, hx, rfl⟩ := List.mem_map.mp he
    obtain ⟨hpos, hlow, hhigh, hpage⟩ := hmem x hx
    exact ⟨hpos, hlow, hhigh, rfl, hpage⟩
  · intro k e f he hf
    rw [partsOf, List.getElem?_map, Option.map_eq_some_iff] at he hf
    obtain ⟨x, hx, rfl⟩ := he
    obtain ⟨y, hy, rfl⟩ := hf
    exact hnext k x y hx hy

/-! ### What a word comes to, whatever its other bits -/

section words
variable {s : State} {p w : Nat} {c d : Core} {off dest n grp : Nat} (hoff : off = (c.sreg (nfld w 53 49)).toNat)
  (hdest : dest = (c.sreg (nfld w 48 44)).toNat) (hn : n = (c.sreg (nfld w 43 39)).toNat) (hgrp : grp = nfld w 38 36)
  (hal : dest % 32 = 0) (hok : c.localOk 32 off n = true) (hown : c.ownOk off n = true) (hroom : c.units.dmaRoom = true)
  (herr : c.sp.errs = []) (hready : sbReady c.units.sb [(off, off + n - 1, false)] = true) (hd : d = c.entered [(off, off + n - 1, false)])
  (hz : nfld w 29 0 = 0)
include hoff hdest hn hgrp hal hok hown hroom herr hready hd hz

theorem bodyMcw_sends {m mask sites absent cores : Nat} {r : CoreUnits × List Packet × List Piece} (hlt : dest < 2 ^ 48)
    (hm : m = (c.sreg (nfld w 34 30)).toNat) (h35 : w.testBit 35 = false) (hma : m % 64 = 0) (hmin : m + 48 ≤ 0x300000)
    (hmown : c.ownOk m 48 = true) (hhaz : hazard c.units.sb m (m + 47) false = false) (hmask : mask = leNat (Memory.read c.sp.mem m 48))
    (hrest : nfld mask 383 320 = 0) (hsites : (sites, absent) = s.siteMask (nfld mask 255 0)) (hsome : sites ≠ 0) (hcores : cores = nfld mask 319 256)
    (hr : r = sendMcw d.units (srcSett (siteOf p)) grp ((partsOf dest 0 n).map fun e => mkMcw d.sp.mem off (siteOf p) sites cores e (corePacket s p d)))
    {v : CoreUnits} (hv : v = r.1.addXfer { Xfer.fresh c.units.nextId .mcw grp s.tclk with left := r.2.2, packets := r.2.1 }) :
    bodyMcw s p w c = .done { d with units := { v with grps := Tab.mod 0 v.grps grp fun x => satFld x 63 48 (absent * popc 64 cores) } }
      (c.seq.pc.toNat + 1) r.2.1 [] := by
  have hfits : ¬ dest ≥ 2 ^ 48 := not_le.mpr hlt
  have hpad : inPad m 48 = true := decide_eq_true hmin
  unfold bodyMcw
  simp only [← hoff, ← hdest, ← hn, ← hgrp, ← hm, hz, h35, hfits, hal, hma, hpad, hok, hown, hmown, hhaz, hroom, Core.through, hready, Core.outbound,
    check_nil _ _ herr, ← hmask, hrest, ← hsites, ← hcores, hsome, if_true]
  subst hv hr hd
  rfl

theorem bodyMsend_sends {fl : BitVec 64} {e : Piece} {msg : MeshMsg} (hfl : fl = c.flow (nfld w 35 30)) (hvalid : bit fl 63 = true)
    (hother : fld fl 62 49 ≠ (s.logicalOf p).getD 0)
    (he : e = { node := srcCore (fld fl 62 49), stream := BitVec.ofNat 8 (248 + grp), seq := BitVec.ofNat 16 c.units.nextId, bytes := 0 })
    (hmsg : msg = { id := c.units.nextId * 19584 + p, src := p, tid := c.units.nextId, grp := grp, flow := nfld w 35 30,
                    dest := BitVec.ofNat 14 (fld fl 62 49), off := dest, tag := c.seq.passNum.setWidth 4, data := Memory.read c.sp.mem off n }) :
    bodyMsend s p w c = .done { d with units := d.units.addXfer { Xfer.fresh c.units.nextId .msend grp s.tclk with left := [e] } }
      (c.seq.pc.toNat + 1) [] [msg] := by
  unfold bodyMsend
  simp only [← hoff, ← hdest, ← hn, ← hgrp, ← hfl, hz, hal, hok, hown, hroom, hvalid, hother, Core.through, hready, Core.outbound,
    check_nil _ _ herr, if_true]
  subst he hmsg hd
  rfl

end words

/-- Settles O15: the mask, the selected sites and the packets are those of the issue, and a mesh message is one message of its flow. -/
theorem multicastAndMeshIssue : Obligations.MulticastAndMeshIssue := by
  unfold Obligations.MulticastAndMeshIssue
  intro s p g b c d off dest n grp hc hg hcore hoff hdest hn hgrp hlt hal hok hown hroom herr hready hd hz
  subst hcore
  refine ⟨?_, ?_⟩
  · rintro m mask sites absent cores r v hm h35 hma hmin hmown hhaz hmask hrest hsites hsome hcores hr hv
    have hbody := bodyMcw_sends (s := s) (p := p.val) (w := seqWord 0x22 g b.toNat) (c := s.core p.val) (d := d) (off := off) (dest := dest)
      (n := n) (grp := grp) (m := m) (mask := mask) (sites := sites) (absent := absent) (cores := cores) (r := r) (v := v)
    simp (disch := decide) only [nfld_w54, testBit_w54] at hbody
    have hdone := hbody hoff hdest hn hgrp hal hok hown hroom herr hready hd hz hlt hm h35 hma hmin hmown hhaz hmask hrest hsites hsome hcores hr hv
    refine congrArg Host.Outcome.next (issue_sends hc b.isLt hg hdone ?_)
    rw [hd]; rfl
  · rintro fl e msg hfl hvalid hother he hmsg
    have hbody := bodyMsend_sends (s := s) (p := p.val) (w := seqWord 0x24 g b.toNat) (c := s.core p.val) (d := d) (off := off) (dest := dest)
      (n := n) (grp := grp) (fl := fl) (e := e) (msg := msg)
    simp (disch := decide) only [nfld_w54] at hbody
    have hdone := hbody hoff hdest hn hgrp hal hok hown hroom herr hready hd hz hfl hvalid hother he hmsg
    refine congrArg Host.Outcome.next (issue_messages hc b.isLt hg hdone ?_)
    rw [hd]; rfl

end Sys2Proof.Machine
end

section
/-! SUPPORT. The completion of fills, copies, array operations and transfers (R99, R134, R139, R140, R200 to R202). -/

namespace Sys2Proof.Machine

/-! ### An operation leaves its unit -/

/-- An operation whose effect leaves no packet held is complete. -/
theorem unitDone_ok {d : Core} {id : Nat} (h : d.units.held = []) :
    Core.unitDone (.ok d) id = ({ d with units := { d.units with sb := sbRelease d.units.sb id } }, []) := leave_plain h

/-- A unit of a core that does not wait comes to a core and no packet. -/
theorem settle_quiet {s : State} {p : Nat} {d : Core} (h : d.seq.blocked = none) : s.settle p (d, []) = s.setCore p d := by
  rw [settle_plain (r := (d, [])) h, send_nil]

/-- A core that is put twice. -/
theorem modCore_setCore (s : State) (p : Nat) (f : Core → Core) (d : Core) : ∀ q ≠ p, ((s.modCore p f).setCore p d).core q = s.core q := by
  intro q hq
  rw [core_setCore, if_neg hq]
  exact (core_setCore s p q _).trans (if_neg hq)

section fillCopy
variable {s : State} {p : PCore} {c d : Core} {o : FcOp} {rest : List FcOp} (hcore : c = s.core p.val) (hblock : c.seq.blocked = none)
  (hheld : c.units.held = []) (herr : c.sp.errs = []) (hq : c.units.fcQ = o :: rest) (hspec : o.spec = false)

include hcore hq hspec in
/-- The oldest fill or copy completes. -/
theorem fillCopy_completes (hrun : Core.runFc { c with units := { c.units with fcQ := rest } } o = .ok d) (hblock : d.seq.blocked = none)
    (hheld : d.units.held = []) :
    exec (.fillCopyComplete p) s = .next (s.setCore p.val { d with units := { d.units with sb := sbRelease d.units.sb o.id } }) := by
  have hdone : c.fcComplete = ({ d with units := { d.units with sb := sbRelease d.units.sb o.id } }, []) := by
    rw [Core.fcComplete, hq]
    simp only [hspec, hrun]
    exact unitDone_ok hheld
  subst hcore
  exact congrArg Host.Outcome.next ((congrArg (s.settle p.val) hdone).trans (settle_quiet (by exact hblock)))

include herr in
theorem runFc_fill (hcopy : o.copy = false) : Core.runFc { c with units := { c.units with fcQ := rest } } o
    = .ok { c with
        sp := { c.sp with mem := Memory.write c.sp.mem o.dest (patternBytes o.pattern o.len) }
        units := { c.units with fcQ := rest } } := by
  simp [Core.runFc, hcopy, store_plain herr]

include herr in
theorem runFc_copy (hcopy : o.copy = true) : Core.runFc { c with units := { c.units with fcQ := rest } } o
    = .ok { c with
        sp := { c.sp with mem := Memory.write c.sp.mem o.dest (Memory.read c.sp.mem o.src o.len) }
        units := { c.units with fcQ := rest } } := by
  simp [Core.runFc, hcopy, Core.readOr, check_nil _ _ herr, store_plain herr]

end fillCopy

/-- The oldest array operation completes in a state where the array's lost cycles have been counted. -/
theorem array_completes {s : State} {p : PCore} {c d : Core} {o : ArrOp} {rest : List ArrOp} (hcore : c = s.core p.val)
    (hq : c.units.arrQ = o :: rest)
    (hrun : Core.runArr { c with units := { c.units with arrQ := rest, arrStalls := c.units.arrStalls + s.fresh.1.setWidth 64 } } o = .ok d)
    (hblock : d.seq.blocked = none) (hheld : d.units.held = []) :
    exec (.arrayOpComplete p) s = .next ((s.fresh.2.modCore p.val fun c =>
      { c with units := { c.units with arrStalls := c.units.arrStalls + s.fresh.1.setWidth 64 } }).setCore p.val
      { d with units := { d.units with sb := sbRelease d.units.sb o.id } }) := by
  subst hcore
  have hlost : s.arrLost p.val = s.fresh.2.modCore p.val fun c =>
      { c with units := { c.units with arrStalls := c.units.arrStalls + s.fresh.1.setWidth 64 } } := by
    rw [State.arrLost, hq]; rfl
  have hcore : (s.arrLost p.val).core p.val
      = { s.core p.val with units := { (s.core p.val).units with arrStalls := (s.core p.val).units.arrStalls + s.fresh.1.setWidth 64 } } := by
    rw [hlost]; exact (core_setCore _ _ _ _).trans (if_pos rfl)
  have hdone : ((s.arrLost p.val).core p.val).arrComplete = ({ d with units := { d.units with sb := sbRelease d.units.sb o.id } }, []) := by
    rw [hcore, Core.arrComplete]
    simp only [hq]
    exact (congrArg (Core.unitDone · o.id) hrun).trans (unitDone_ok hheld)
  refine congrArg Host.Outcome.next (?_ : (s.arrLost p.val).settle p.val ((s.arrLost p.val).core p.val).arrComplete = _)
  rw [hdone, settle_quiet (by exact hblock), hlost]

/-- Settles O16: the oldest operation of the unit's queue runs, and leaves. -/
theorem unitsComplete : Obligations.UnitsComplete := by
  unfold Obligations.UnitsComplete
  refine ⟨fun s p c o rest hcore hblock hheld herr hq hspec => ⟨fun hcopy => ?_, fun hcopy => ?_⟩,
    fun s p c d o rest hcore hq hrun hblock hheld => ?_⟩
  · exact fillCopy_completes hcore hq hspec (runFc_fill herr hcopy) hblock hheld
  · exact fillCopy_completes hcore hq hspec (runFc_copy herr hcopy) hblock hheld
  · exact ⟨_, array_completes hcore hq hrun hblock hheld, rfl, (core_setCore _ _ _ _).trans (if_pos rfl), modCore_setCore _ _ _ _⟩

/-! ### Transfers -/

/-- With nothing held back there is nothing to send. -/
theorem flush_nothing {u : CoreUnits} (h : u.held = []) : u.flush = (u, []) := by
  cases u
  cases h
  rfl

section transfers
variable {u : CoreUnits} {x : Xfer} {l r : List Xfer} (hx : u.xfers = l ++ x :: r) (hids : ∀ y ∈ l ++ r, y.id ≠ x.id)
include hx hids

/-- A transfer is the one that its id finds. -/
theorem find_xfer : u.xfers.find? (fun y => y.id = x.id) = some x := by
  have hl : l.find? (fun y => y.id = x.id) = none := by
    rw [List.find?_eq_none]
    intro y hy
    simpa using hids y (List.mem_append_left _ hy)
  rw [hx, List.find?_append, hl]
  simp

/-- The transfers without a transfer are those before and behind it. -/
theorem filter_xfer : u.xfers.filter (fun y => y.id ≠ x.id) = l ++ r := by
  have hkeep : ∀ y ∈ l ++ r, decide (y.id ≠ x.id) = true := fun y hy => decide_eq_true (hids y hy)
  rw [hx, List.filter_append, List.filter_cons_of_neg (by simp), ← List.filter_append, List.filter_eq_self.mpr hkeep]

/-- A transfer of a group that is not cancelled leaves the engine. -/
theorem finish_xfer (hspec : x.spec = false) (hcan : x.cancelled = false) (hkind : x.kind ≠ .hint) (st : BitVec 4) :
    u.finish x st = CoreUnits.complete { u with xfers := l ++ r, sb := sbRelease u.sb x.id } x.grp.toNat st x.delivered x.pruned := by
  simp [CoreUnits.finish, ← filter_xfer hx hids, hspec, hcan, hkind]

variable (hheld : u.held = []) (hspec : x.spec = false) (hcan : x.cancelled = false) (hkind : x.kind ≠ .hint)
include hheld hspec hcan hkind

theorem complete1_done (hleft : x.left = []) : u.complete1 x.id
    = (CoreUnits.complete { u with xfers := l ++ r, sb := sbRelease u.sb x.id } x.grp.toNat x.status x.delivered x.pruned, []) := by
  rw [CoreUnits.complete1, find_xfer hx hids]
  simp only [hleft, hspec, finish_xfer hx hids hspec hcan hkind]
  exact flush_nothing hheld

theorem timeout1_due {now : Nat} (hleft : x.left ≠ []) (hdue : x.issued + max 1 (fld u.dmaCfg 15 0) * 1000 ≤ now) : u.timeout1 now x.id
    = (CoreUnits.complete { u with xfers := l ++ r, sb := sbRelease u.sb x.id } x.grp.toNat 7 x.delivered x.pruned, []) := by
  have hdue' : x.issued + u.timeoutNs ≤ now := hdue
  rw [CoreUnits.timeout1, find_xfer hx hids]
  simp only [hspec, hdue', finish_xfer hx hids hspec hcan hkind, List.isEmpty_eq_false_iff.mpr hleft]
  exact flush_nothing hheld

end transfers

/-- Settles O18: the transfer is the one its id finds, and it leaves the engine. -/
theorem transfersComplete : Obligations.TransfersComplete := by
  unfold Obligations.TransfersComplete
  rintro s p c x l r hcore hblock hheld hx hids hspec hcan hkind ended rfl
  subst hcore
  refine ⟨fun hleft => ?_, fun dt hleft hdue => ?_⟩
  · have hdone := congrArg (s.core p.val).withUnits (complete1_done hx hids hheld hspec hcan hkind hleft)
    exact congrArg Host.Outcome.next ((congrArg (s.settle p.val) hdone).trans (settle_quiet hblock))
  · have hdone := congrArg (s.core p.val).withUnits (timeout1_due hx hids hheld hspec hcan hkind hleft hdue)
    exact congrArg Host.Outcome.next ((congrArg ((s.pass dt).settle p.val) hdone).trans (settle_quiet hblock))

end Sys2Proof.Machine
end

section
/-! SUPPORT. Debug control of a sequencer, and the register writes of a core with an effect of their own (R76, R143, R178, R179). -/

namespace Sys2Proof.Machine

/-! ### Debug control -/

/-- An instruction row of a core whose sequencer does not run changes nothing. -/
theorem seqRow_idle {i : Instr} {p : PCore} {g : Guard} {s : State} (h : seqParts i = some (p, g)) (hm : (s.core p.val).seq.mode ≠ .run) :
    exec i s = .next s := by
  obtain ⟨op, b, body, -, hexec⟩ := exec_seqRow h
  rw [hexec s, issue_idle hm]

theorem full_iff {s : State} : s.full = true ↔ s.sec.level = 2 := beq_iff_eq

/-- A debug row below FULL. -/
theorem debug_ignored {s t : State} (h : s.sec.level ≠ 2) : (if s.full then t else s) = s := if_neg (mt full_iff.mp h)

/-- A debug row at FULL. -/
theorem debug_taken {s t : State} (h : s.sec.level = 2) : (if s.full then t else s) = t := if_pos (full_iff.mpr h)

theorem halt_running {c : Core} (h : c.seq.mode = .run) : c.halt = { c with seq := { c.seq with mode := .trapped, dbgHalted := true } } := by
  rw [Core.halt, if_pos h]

theorem halt_waiting {c : Core} (h : c.seq.mode = .waitTok) : c.halt = { c with seq := { c.seq with haltReq := true } } := by
  rw [Core.halt, if_neg (by rw [h]; decide), if_pos (by rw [h]; rfl)]

theorem resume_halted {c : Core} (h : c.seq.dbgHalted = true) : c.resume = { c with seq := { c.seq with dbgHalted := false, mode := .run } } := by
  rw [Core.resume, if_pos h]

/-- The word 0 is a NOP (R181, R184). -/
theorem bodyOf_zero (s : State) (p : Nat) (c : Core) : bodyOf 0 s p 0 c = c.retire := rfl

/-- A NOP retires, whatever its guard reads, in a core that debug has asked to halt. -/
theorem issueWord_nop {s : State} {p : Nat} {c : Core} (hcore : s.core p = c) (hra : c.seq.ra = none) (hreq : c.seq.haltReq = true)
    (hpc : c.seq.pc.toNat < 4095) :
    s.issueWord p 0 (bodyOf 0) = s.setCore p { c with seq := { c.seq with
      pc := BitVec.ofNat 12 (c.seq.pc.toNat + 1), mode := .trapped, dbgHalted := true, haltReq := false, blocked := none } } := by
  have hadv : c.advance (c.seq.pc.toNat + 1) = ({ c with seq := { c.seq with
      pc := BitVec.ofNat 12 (c.seq.pc.toNat + 1), mode := .trapped, dbgHalted := true, haltReq := false, blocked := none } }, []) := by
    rw [Core.advance, if_pos (by omega)]
    simp [Core.follow, hra, CoreSeq.goOn, hreq]
  have heffect : s.effect p 0 (bodyOf 0) c = (c.retire, []) := by
    simp only [State.effect, Core.nextEntry, hra, bodyOf_zero]
  have hfinish : s.finishIssue p 0 c c.retire [] = s.setCore p { c with seq := { c.seq with
      pc := BitVec.ofNat 12 (c.seq.pc.toNat + 1), mode := .trapped, dbgHalted := true, haltReq := false, blocked := none } } := by
    simp only [State.finishIssue, Core.retire, hadv, List.append_nil, send_nil]
    rfl
  simp only [State.issueWord, hcore, heffect, hfinish, ite_self]

/-- STEP of a halted sequencer at a NOP. -/
theorem stepCore_nop {s : State} {p : Nat} {c : Core} (hcore : c = s.core p) (hh : c.seq.dbgHalted = true) (hra : c.seq.ra = none)
    (hpc : c.seq.pc.toNat < 4095) (hword : c.fetch c.seq.pc.toNat = 0) :
    ∃ u : State, u.core p = { c with seq := { c.seq with dbgHalted := false, haltReq := true, mode := .run } } ∧
      u = s.setCore p { c with seq := { c.seq with dbgHalted := false, haltReq := true, mode := .run } } ∧
      s.stepCore p = u.setCore p { c with seq := { c.seq with
        pc := BitVec.ofNat 12 (c.seq.pc.toNat + 1), mode := .trapped, dbgHalted := true, haltReq := false, blocked := none } } := by
  subst hcore
  have hput := (core_setCore s p p { s.core p with seq := { (s.core p).seq with dbgHalted := false, haltReq := true, mode := .run } }).trans (if_pos rfl)
  have hstep : s.stepCore p = (s.setCore p { s.core p with seq := { (s.core p).seq with dbgHalted := false, haltReq := true, mode := .run } }).issueWord p
      ((s.core p).fetch (s.core p).seq.pc.toNat) (bodyOf ((s.core p).fetch (s.core p).seq.pc.toNat)) := if_pos hh
  refine ⟨_, hput, rfl, ?_⟩
  rw [hstep, hword, issueWord_nop hput hra rfl hpc]

/-- Settles O19: the debug rows do what the level allows, and the stepped NOP retires into a halted sequencer. -/
theorem debugControlRows : Obligations.DebugControlRows := by
  unfold Obligations.DebugControlRows
  refine ⟨fun i p g s hi hm => seqRow_idle hi hm, fun s p c hcore => ⟨fun hl => ⟨?_, ?_, ?_⟩, fun hl => ⟨?_, ?_, ?_, ?_⟩⟩⟩
  · exact congrArg Host.Outcome.next (debug_ignored hl)
  · exact congrArg Host.Outcome.next (debug_ignored hl)
  · exact congrArg Host.Outcome.next (debug_ignored hl)
  · rintro hm
    subst hcore
    exact congrArg Host.Outcome.next ((debug_taken hl).trans (congrArg (s.setCore p.val) (halt_running hm)))
  · rintro hm
    subst hcore
    exact congrArg Host.Outcome.next ((debug_taken hl).trans (congrArg (s.setCore p.val) (halt_waiting hm)))
  · rintro hh
    subst hcore
    exact congrArg Host.Outcome.next ((debug_taken hl).trans (congrArg (s.setCore p.val) (resume_halted hh)))
  · rintro hh hra hpc hword
    obtain ⟨u, -, rfl, hstep⟩ := stepCore_nop hcore hh hra hpc hword
    refine ⟨_, congrArg Host.Outcome.next ((debug_taken hl).trans hstep), rfl, fun q hq => ?_, ?_⟩
    · rw [core_setCore, if_neg hq, core_setCore, if_neg hq]
    · rw [core_setCore, if_pos rfl]

/-! ### Register writes -/

section winCfg
variable {c : Core} {n : Nat} {v : BitVec 64}

theorem winCfgWrite_opens (h63 : bit v 63 = true) (hok : c.winOk (fld v 62 41) (fld v 40 19) = true) :
    c.winCfgWrite n v = (c.openWin n (setFld v 18 0 0) (Tab.get 0 c.sp.winFilt n), []) := by
  simp only [Core.winCfgWrite, h63, hok, if_true]

theorem winCfgWrite_traps (h63 : bit v 63 = true) (hok : c.winOk (fld v 62 41) (fld v 40 19) = false) :
    c.winCfgWrite n v = c.trap trIllegal 0 := by
  simp only [Core.winCfgWrite, h63, hok, if_true, Bool.false_eq_true, if_false]

theorem winCfgWrite_closes (h63 : bit v 63 = false) :
    c.winCfgWrite n v = ({ c with sp := { c.sp with winCfg := Tab.set 0 c.sp.winCfg n (setFld v 18 0 0) } }, []) := by
  simp only [Core.winCfgWrite, h63, Bool.false_eq_true, if_false]

end winCfg

/-- The write of a window register puts the core that the write comes to, and sends nothing. -/
theorem winCfg_next {s : State} {p : PCore} {n : Fin 16} {v : BitVec 64} {d : Core} (h : (s.core p.val).winCfgWrite n.val v = (d, [])) :
    exec (.winCfgWrite p n v) s = .next (s.setCore p.val d) := by
  refine congrArg Host.Outcome.next ?_
  rw [h, send_nil]

/-- Settles O21: by OPEN and by whether the range is allowed. -/
theorem coreRegisterWriteRows : Obligations.CoreRegisterWriteRows := by
  unfold Obligations.CoreRegisterWriteRows
  rintro s p c rfl
  refine ⟨fun v => rfl, fun n v => ⟨fun h63 hok => ?_, fun h63 hok hra ht => ?_, fun h63 => ?_⟩⟩
  · exact winCfg_next (winCfgWrite_opens h63 hok)
  · exact winCfg_next ((winCfgWrite_traps h63 hok).trans (trap_plain hra ht))
  · exact winCfg_next (winCfgWrite_closes h63)

end Sys2Proof.Machine
end

section
/-! SUPPORT. Zero-fill, scrub and repair of a core's scratchpad (R129, R130, R150 to R152). -/

namespace Sys2Proof

/-! ### Clearing a range of a table -/

theorem get_clear {α : Type} (d : α) (t : Tab α) (i n j : Nat) :
    Tab.get d (Tab.clear t i n) j = if i ≤ j ∧ j < i + n then d else Tab.get d t j := by
  induction t with
  | nil => simp [Tab.clear, Tab.get]
  | cons e t ih =>
    obtain ⟨k, v⟩ := e
    have hcons : Tab.clear ((k, v) :: t) i n = if k < i ∨ i + n ≤ k then (k, v) :: Tab.clear t i n else Tab.clear t i n := by
      simp [Tab.clear, List.filter_cons]
    rw [hcons]
    by_cases hk : k = j
    · subst hk
      by_cases hin : i ≤ k ∧ k < i + n
      · rw [if_neg (by omega), ih, if_pos hin, if_pos hin]
      · rw [if_pos (by omega), if_neg hin]
        simp [Tab.get]
    · split
      · simp only [Tab.get, if_neg hk, ih]
      · simp only [Tab.get, if_neg hk, ih]

theorem memory_get_zero (m : Tab Byte) (a n j : Nat) :
    Tab.get 0 (Memory.zero m a n) j = if a ≤ j ∧ j < a + n then 0 else Tab.get 0 m j := get_clear 0 m a n j

theorem mem_bitsOf {n v i : Nat} : i ∈ bitsOf n v ↔ i < n ∧ v.testBit i = true := by
  simp [bitsOf]

end Sys2Proof

namespace Sys2Proof.Machine

/-! ### Banks (R129, R130) -/

/-- One bank cleared. -/
def CoreSp.clearBank (x : CoreSp) (b : Nat) : CoreSp :=
  { x with mem := Memory.zero x.mem (b * 0x40000) 0x40000, errs := Tab.clear x.errs (b * 0x8000) 0x8000 }

theorem clearBanks_eq (x : CoreSp) (mask : Nat) : x.clearBanks mask = (bitsOf 12 mask).foldl CoreSp.clearBank x := rfl

theorem clearBank_mem (x : CoreSp) (b a : Nat) : Tab.get 0 (x.clearBank b).mem a = if a / 0x40000 = b then 0 else Tab.get 0 x.mem a := by
  rw [CoreSp.clearBank, memory_get_zero]
  by_cases h : a / 0x40000 = b
  · rw [if_pos h, if_pos (by omega)]
  · rw [if_neg h, if_neg (by omega)]

/-- Clearing banks changes bytes and error marks alone. -/
theorem clearBank_foldl_frame (bs : List Nat) (x : CoreSp) :
    bs.foldl CoreSp.clearBank x = { x with mem := (bs.foldl CoreSp.clearBank x).mem, errs := (bs.foldl CoreSp.clearBank x).errs } := by
  induction bs generalizing x with
  | nil => rfl
  | cons b bs ih =>
    rw [List.foldl_cons, ih]
    rfl

/-- The bytes of the cleared banks read 0, and the others are as before. -/
theorem clearBank_foldl_mem (bs : List Nat) (x : CoreSp) (a : Nat) :
    Tab.get 0 (bs.foldl CoreSp.clearBank x).mem a = if a / 0x40000 ∈ bs then 0 else Tab.get 0 x.mem a := by
  induction bs generalizing x with
  | nil => simp
  | cons b bs ih =>
    rw [List.foldl_cons, ih, clearBank_mem]
    by_cases hb : a / 0x40000 = b <;> simp [hb]

theorem clearBanks_frame (x : CoreSp) (mask : Nat) :
    x.clearBanks mask = { x with mem := (x.clearBanks mask).mem, errs := (x.clearBanks mask).errs } := clearBank_foldl_frame _ _

theorem clearBanks_mem (x : CoreSp) (mask a : Nat) :
    Tab.get 0 (x.clearBanks mask).mem a = if a / 0x40000 < 12 ∧ mask.testBit (a / 0x40000) = true then 0 else Tab.get 0 x.mem a := by
  rw [clearBanks_eq, clearBank_foldl_mem]
  simp only [mem_bitsOf]

theorem power_spec {x : CoreSp} {on now : BitVec 12} (hnow : now = on ||| (x.on &&& (x.slot0 ||| x.slot1))) :
    (x.power on).on = now ∧ (x.power on).ready = x.ready &&& now ∧ (x.power on).zeroBusy = (x.zeroBusy &&& now) ||| (now &&& ~~~x.on)
      ∧ ∀ a : Nat, a < 0x300000 → Tab.get 0 (x.power on).mem a = if bit (x.on &&& ~~~now) (a / 0x40000) then 0 else Tab.get 0 x.mem a := by
  subst hnow
  refine ⟨rfl, rfl, rfl, fun a ha => ?_⟩
  have hbank : a / 0x40000 < 12 := by omega
  refine (clearBanks_mem x (x.on &&& ~~~(on ||| (x.on &&& (x.slot0 ||| x.slot1)))).toNat a).trans ?_
  simp only [hbank, true_and]
  rfl

theorem zeroDone_spec {c : Core} {b : Nat} (hb : b < 12) (hbusy : bit c.sp.zeroBusy b = true) :
    c.zeroDone b = { c with sp := (c.zeroDone b).sp, res0 := (c.zeroDone b).res0, res1 := (c.zeroDone b).res1 }
      ∧ (c.zeroDone b).sp.zeroBusy = setBit c.sp.zeroBusy b false ∧ (c.zeroDone b).sp.ready = setBit c.sp.ready b true
      ∧ ∀ a : Nat, Tab.get 0 (c.zeroDone b).sp.mem a = if a / 0x40000 = b then 0 else Tab.get 0 c.sp.mem a := by
  have hsp : (c.zeroDone b).sp = { c.sp.clearBanks (2 ^ b) with
      zeroBusy := setBit (c.sp.clearBanks (2 ^ b)).zeroBusy b false, ready := setBit (c.sp.clearBanks (2 ^ b)).ready b true } := by
    rw [Core.zeroDone, if_pos hbusy]
  refine ⟨?_, by rw [hsp, clearBanks_frame], by rw [hsp, clearBanks_frame], fun a => ?_⟩
  · rw [Core.zeroDone, if_pos hbusy]
  · rw [hsp]
    refine (clearBanks_mem c.sp (2 ^ b) a).trans ?_
    by_cases h : a / 0x40000 = b
    · rw [if_pos ⟨h ▸ hb, by rw [h]; exact Nat.testBit_two_pow_self⟩, if_pos h]
    · rw [if_neg (fun hh => by simp [Nat.testBit_two_pow_of_ne (Ne.symm h)] at hh), if_neg h]

/-! ### Scrub (R150, R151) -/

theorem scrubStep_clean {x : CoreSp} (hon : bit x.scrub 31 = true) (herr : x.errs = []) :
    x.scrubStep [] = { x with scrubPos := (x.scrubPos + 1) % 2048 } := by
  have hcheck := check_nil x ((bitsOf 12 x.ready.toNat).map fun b => (b * 0x40000 + x.scrubPos * 128, 128)) herr
  simp only [CoreSp.scrubStep, List.filter_nil, List.foldl_nil, hon, if_true]
  rw [hcheck]

/-- The lines of a scrub step hit a word of a READY bank in the line at the scrub's place. -/
theorem scrub_lineHit {x : CoreSp} {w : Nat} (hw : w < 0x60000) (hready : bit x.ready (w / 0x8000) = true) (hline : w % 0x8000 / 16 = x.scrubPos) :
    lineHit ((bitsOf 12 x.ready.toNat).map fun b => (b * 0x40000 + x.scrubPos * 128, 128)) w = true := by
  have hlow : w / 0x8000 < 12 := by omega
  have hbank : w / 0x8000 ∈ bitsOf 12 x.ready.toNat := mem_bitsOf.mpr ⟨hlow, hready⟩
  have hfirst : (w / 0x8000 * 0x40000 + x.scrubPos * 128) / 128 ≤ w * 8 / 128 := by omega
  have hlast : w * 8 / 128 ≤ (w / 0x8000 * 0x40000 + x.scrubPos * 128 + 128 - 1) / 128 := by omega
  rw [lineHit, List.any_map, List.any_eq_true]
  refine ⟨_, hbank, ?_⟩
  rw [Function.comp_apply, decide_eq_true hfirst, decide_eq_true hlast]
  rfl

/-- A read that meets the one single-bit error corrects it. -/
theorem check_corrects {x : CoreSp} {w : Nat} {lines : List (Nat × Nat)} (herr : x.errs = [(w, 1)]) (hhit : lineHit lines w = true) :
    x.check lines = (x.correct w, none) := by
  have hone : Tab.get 0 x.errs w = 1 := by simp [herr, Tab.get]
  simp only [CoreSp.check, herr, List.map_cons, List.map_nil, List.filter_cons, hhit, List.filter_nil, if_true, List.foldl_cons, List.foldl_nil]
  rw [checkWord, if_pos hone]

/-- The correction of the one error of a row that does not spall. -/
theorem correct_only {x : CoreSp} {w : Nat} (herr : x.errs = [(w, 1)]) (hfew : Tab.get 0 x.rowErrs (w / 128) < 15) :
    x.correct w = { x with
      errs := [], ecc := setFld (satFld x.ecc 63 48 1) 21 0 (8 * w), rowErrs := Tab.mod 0 x.rowErrs (w / 128) (· + 1) } := by
  have hfew' : ¬ 16 ≤ Tab.get 0 x.rowErrs (w / 128) + 1 := by omega
  have hgone : Tab.set 0 x.errs w 0 = [] := by simp [herr, Tab.set, Tab.erase]
  simp only [CoreSp.correct, if_neg hfew', hgone, Tab.mod]

/-- A scrub step without new upsets is a read of its lines. -/
theorem scrubStep_reads {x y : CoreSp} (hon : bit x.scrub 31 = true)
    {bad : Option Nat} (hread : x.check ((bitsOf 12 x.ready.toNat).map fun b => (b * 0x40000 + x.scrubPos * 128, 128)) = (y, bad)) :
    x.scrubStep [] = { y with scrubPos := (x.scrubPos + 1) % 2048 } := by
  simp only [CoreSp.scrubStep, List.filter_nil, List.foldl_nil, hon, if_true]
  rw [hread]

theorem scrubStep_corrects {x : CoreSp} {w : Nat} (hon : bit x.scrub 31 = true) (herr : x.errs = [(w, 1)]) (hw : w < 0x60000)
    (hready : bit x.ready (w / 0x8000) = true) (hline : w % 0x8000 / 16 = x.scrubPos) (hfew : Tab.get 0 x.rowErrs (w / 128) < 15)
    {ecc : BitVec 64} (hecc : ecc = setFld (satFld x.ecc 63 48 1) 21 0 (8 * w)) :
    x.scrubStep [] = { x with
        errs := [], ecc := ecc, rowErrs := Tab.mod 0 x.rowErrs (w / 128) (· + 1), scrubPos := (x.scrubPos + 1) % 2048 } := by
  have hcheck := check_corrects herr (scrub_lineHit hw hready hline)
  rw [correct_only herr hfew, ← hecc] at hcheck
  exact scrubStep_reads hon hcheck

/-! ### Repair (R152) -/

theorem repairRow_spare {c : Core} {row : Nat} (herr : c.sp.errs = []) (hspare : Tab.get 0 c.sp.spares (row / 256) < 4) :
    c.repairRow row = { c with sp := { c.sp with
      spall := c.sp.spall.erase row, rowErrs := Tab.set 0 c.sp.rowErrs row 0, spares := Tab.mod 0 c.sp.spares (row / 256) (· + 1)
      repaired := addOnce c.sp.repaired row } } := by
  simp only [Core.repairRow, herr, if_pos hspare, List.any_nil, List.filter_nil, Bool.false_and, Bool.false_eq_true, if_false]

/-- The row repair of an idle panel, by a spare of the bank. -/
theorem spRowRepair_spare {s : State} {p : PCore} {bank : Fin 12} {row : Fin 256} {k : Nat} (hk : k = bank.val * 256 + row.val)
    (hidle : s.ledger.state = .idle) (hspall : k ∈ (s.core p.val).sp.spall) (herr : (s.core p.val).sp.errs = [])
    (hspare : Tab.get 0 (s.core p.val).sp.spares bank.val < 4) (hfew : (s.core p.val).sp.retired.length ≤ 8) :
    execSpRowRepair p bank row s = .next { s.setCore p.val { s.core p.val with sp := { (s.core p.val).sp with
      spall := (s.core p.val).sp.spall.erase k, rowErrs := Tab.set 0 (s.core p.val).sp.rowErrs k 0
      spares := Tab.mod 0 (s.core p.val).sp.spares bank.val (· + 1), repaired := addOnce (s.core p.val).sp.repaired k } } with
      nv := { s.nv with spRetired := addOnce s.nv.spRetired (p.val, k) } } := by
  have hbank : k / 256 = bank.val := by rw [hk]; omega
  have hrow := repairRow_spare (row := k) herr (by rw [hbank]; exact hspare)
  have hmod : (s.modCore p.val fun c => c.repairRow k) = s.setCore p.val ((s.core p.val).repairRow k) := rfl
  have hput (t : NonVol) (d : Core) : State.core { s.setCore p.val d with nv := t } p.val = d := (core_setCore _ _ _ _).trans (if_pos rfl)
  rw [execSpRowRepair, ← hk, if_pos ⟨hidle, List.contains_iff_mem.mpr hspall⟩]
  dsimp only
  rw [hmod, hrow, hput, if_neg (by exact not_lt.mpr hfew), hbank]
  rfl

/-- Settles O22: each row of a bank's care by what it does to the scratchpad. -/
theorem scratchpadCareRows : Obligations.ScratchpadCareRows := by
  unfold Obligations.ScratchpadCareRows
  refine ⟨fun s p c hcore => ⟨fun on now hnow => ?_, fun b hbusy => ?_⟩, fun s p c hcore => ⟨fun hon herr => ?_, ?_, ?_⟩⟩ <;> subst hcore
  · obtain ⟨hon, hready, hzero, hmem⟩ := power_spec hnow
    exact ⟨{ s.core p.val with sp := (s.core p.val).sp.power on }, rfl, rfl, hon, hready, hzero, hmem⟩
  · obtain ⟨hframe, hzero, hready, hmem⟩ := zeroDone_spec b.isLt hbusy
    exact ⟨(s.core p.val).zeroDone b.val, rfl, hframe, hzero, hready, hmem⟩
  · exact congrArg (fun x => Host.Outcome.next (s.setCore p.val { s.core p.val with sp := x })) (scrubStep_clean hon herr)
  · rintro w hon herr hw hready hline - hfew
    exact congrArg (fun x => Host.Outcome.next (s.setCore p.val { s.core p.val with sp := x }))  (scrubStep_corrects hon herr hw hready hline hfew rfl)
  · rintro bank row k hk hidle hspall herr hspare hfew
    exact spRowRepair_spare hk hidle hspall herr hspare hfew

end Sys2Proof.Machine
end

section
/-! SUPPORT. The stop of an aborted pass, its acknowledgements and its limit (R45, R138, R174). -/

namespace Sys2Proof.Machine

theorem mem_addOnce {α : Type} [DecidableEq α] {l : List α} {x y : α} : y ∈ addOnce l x ↔ y = x ∨ y ∈ l := by
  unfold addOnce
  split
  · next h =>
    have hx : x ∈ l := List.contains_iff_mem.mp h
    exact ⟨Or.inr, fun hy => hy.elim (fun e => e ▸ hx) id⟩
  · rw [List.mem_append, List.mem_singleton, or_comm]

/-- What stands in a list, or is added to it in turn. -/
theorem mem_foldl_addOnce {α β : Type} [DecidableEq α] (f : β → α) (xs : List β) (l : List α) (y : α) :
    y ∈ xs.foldl (fun l x => addOnce l (f x)) l ↔ y ∈ l ∨ ∃ x ∈ xs, y = f x := by
  induction xs generalizing l with
  | nil => simp
  | cons x xs ih =>
    rw [List.foldl_cons, ih, mem_addOnce]
    simp only [List.mem_cons, exists_eq_or_imp]
    tauto

/-! ### The stop reaches a core -/

/-- The stop of a core outside run-ahead. -/
theorem stop_plain {c : Core} (hra : c.seq.ra = none) : c.stop = (Core.closeWins { c with
    units := c.units.dropQueued
    seq := { c.seq with mode := .support, blocked := none, dbgHalted := false, haltReq := false, armed := false, stopping := true } } 0xFFFF, []) := by
  simp only [Core.stop, Core.cancelAll, hra]

theorem stop_reaches {s : State} {p : PCore} (hq : s.ledger.state = .quiescing) (hp : p.val ∈ s.ledger.parts)
    (hf : (s.core p.val).fenced = false) (ha : s.ledger.acked.contains p.val = false) (hs : (s.core p.val).seq.stopping = false) :
    execStop p s = .next ((s.setCore p.val (s.core p.val).stop.1).send (s.core p.val).stop.2) := by
  have hparts : s.ledger.parts.contains p.val = true := List.contains_iff_mem.mpr hp
  rw [execStop, if_pos ⟨hq, hparts, by rw [hf]; decide, by rw [ha]; decide, by rw [hs]; decide⟩]

/-! ### The acknowledgement -/

theorem quiesced_iff {l : Ledger} : l.quiesced = true ↔ ∀ q ∈ l.parts, q ∈ l.acked ∨ q ∈ l.lost ∨ q ∈ l.pruned := by
  simp [Ledger.quiesced, or_assoc]

/-- Checking for the end of a stop moves nothing but the ledger's state. -/
theorem checkQuiesced_frame (s : State) : ∃ st, s.checkQuiesced = { s with ledger := { s.ledger with state := st } } := by
  unfold State.checkQuiesced
  split
  · exact ⟨_, rfl⟩
  · exact ⟨s.ledger.state, rfl⟩

/-- A quiescing ledger ends just when nothing is left to wait for. -/
theorem checkQuiesced_ended {s : State} (h : s.ledger.state = .quiescing) :
    s.checkQuiesced.ledger.state = .ended ↔ ∀ q ∈ s.ledger.parts, q ∈ s.ledger.acked ∨ q ∈ s.ledger.lost ∨ q ∈ s.ledger.pruned := by
  rw [← quiesced_iff]
  unfold State.checkQuiesced
  cases hq : s.ledger.quiesced <;> simp [h]

/-- A stopping core with empty units and an empty scoreboard is quiet. -/
theorem quiet_of {c : Core} (hs : c.seq.stopping = true) (ha : c.units.arrQ = []) (hv : c.units.vecQ = []) (hf : c.units.fcQ = [])
    (hb : c.units.sb = []) : c.quiet = true := by
  simp [Core.quiet, hs, ha, hv, hf, hb]

/-- The state once a core has acknowledged and halted, before the ledger looks whether that was the last one. -/
def State.acks (s : State) (p : Nat) : State :=
  { s.setCore p { s.core p with seq := { (s.core p).seq with stopping := false, mode := .halted } } with
    ledger := { s.ledger with acked := addOnce s.ledger.acked p } }

theorem stopAck_quiet {s : State} {p : PCore} (h : (s.core p.val).quiet = true) : execStopAck p s = .next (s.acks p.val).checkQuiesced :=
  congrArg Host.Outcome.next (if_pos h)

/-! ### The limit -/

/-- A ledger with other lists of lost cores. -/
def Ledger.losing (l : Ledger) (lost : List Nat) (first : BitVec 14) (list : List (BitVec 32)) : Ledger :=
  { l with lost := lost, firstLost := first, lostList := list }

/-- Losing a core moves the ledger's lists of lost cores, and puts the core among them. -/
theorem loseCore_frame (s : State) (p : Nat) : ∃ lost first list,
    s.loseCore p = { s with ledger := s.ledger.losing lost first list } ∧ ∀ q, q ∈ lost ↔ q = p ∨ q ∈ s.ledger.lost := by
  unfold State.loseCore
  by_cases h : s.ledger.lost.contains p = true
  · have hp : p ∈ s.ledger.lost := List.contains_iff_mem.mp h
    rw [if_pos h]
    exact ⟨s.ledger.lost, s.ledger.firstLost, s.ledger.lostList, rfl, fun q => ⟨Or.inr, fun hq => hq.elim (fun e => e ▸ hp) id⟩⟩
  · rw [if_neg h]
    exact ⟨s.ledger.lost ++ [p], _, _, rfl, fun q => by rw [List.mem_append, List.mem_singleton, or_comm]⟩

theorem loseCores_frame (ps : List Nat) (s : State) : ∃ lost first list,
    ps.foldl State.loseCore s = { s with ledger := s.ledger.losing lost first list } ∧ ∀ q, q ∈ lost ↔ q ∈ ps ∨ q ∈ s.ledger.lost := by
  induction ps generalizing s with
  | nil => exact ⟨s.ledger.lost, s.ledger.firstLost, s.ledger.lostList, rfl, fun q => by simp⟩
  | cons p ps ih =>
    obtain ⟨lost, first, list, hframe, hlost⟩ := loseCore_frame s p
    obtain ⟨losts, firsts, lists, hframes, hlosts⟩ := ih (s.loseCore p)
    refine ⟨losts, firsts, lists, ?_, fun q => ?_⟩
    · rw [List.foldl_cons, hframes, hframe]
      rfl
    · rw [hlosts, hframe, List.mem_cons]
      exact (or_congr_right (hlost q)).trans (by tauto)

/-- Fencing cores one after the other. -/
theorem fenceCores_core (ps : List Nat) (s : State) (q : Nat) :
    (ps.foldl (fun t p => t.modCore p fun c => { c with fenced := true }) s).core q
      = if q ∈ ps then { s.core q with fenced := true } else s.core q := by
  induction ps generalizing s with
  | nil => simp
  | cons p ps ih =>
    have hp : (s.modCore p fun c => { c with fenced := true }).core q = if q = p then { s.core p with fenced := true } else s.core q := core_setCore _ _ _ _
    rw [List.foldl_cons, ih, hp]
    by_cases hqp : q = p
    · subst hqp
      simp
    · simp [hqp]

theorem fenceCores_ledger (ps : List Nat) (s : State) :
    (ps.foldl (fun t p => t.modCore p fun c => { c with fenced := true }) s).ledger = s.ledger
      ∧ (ps.foldl (fun t p => t.modCore p fun c => { c with fenced := true }) s).map = s.map := by
  induction ps generalizing s with
  | nil => exact ⟨rfl, rfl⟩
  | cons p ps ih => exact ih _

/-- Cores whose loss is confirmed are fenced and wait for the next map change; the ledger stays. -/
theorem confirmLost_spec (s : State) (ps : List Nat) : (s.confirmLost ps).ledger = s.ledger
    ∧ ∀ p ∈ ps, ((s.confirmLost ps).core p).fenced = true ∧ MapItem.deadCore p ∈ (s.confirmLost ps).map.waiting := by
  refine ⟨(fenceCores_ledger ps s).1, fun p hp => ⟨?_, ?_⟩⟩
  · have hcore := fenceCores_core ps s p
    rw [if_pos hp] at hcore
    exact congrArg Core.fenced hcore
  · exact (mem_foldl_addOnce MapItem.deadCore ps _ _).mpr (Or.inr ⟨p, hp, rfl⟩)

/-- The participating cores that the stop still waits for. -/
def Ledger.late? (l : Ledger) : List Nat := l.parts.filter fun p => !(l.acked.contains p || l.lost.contains p || l.pruned.contains p)

theorem mem_late {l : Ledger} {p : Nat} : p ∈ l.late? ↔ p ∈ l.parts ∧ p ∉ l.acked ∧ p ∉ l.lost ∧ p ∉ l.pruned := by
  simp [Ledger.late?, and_assoc]

/-- Once the cores it still waits for are lost, the stop ends the pass. -/
theorem limit_ends {s t : State} (hq : s.ledger.state = .quiescing)
    (ht : t = ((s.ledger.late?.foldl State.loseCore s).confirmLost s.ledger.late?).checkQuiesced) :
    t.ledger.state = .ended ∧ t.ledger.outcome = s.ledger.outcome
      ∧ ∀ p ∈ s.ledger.late?, p ∈ t.ledger.lost ∧ (t.core p).fenced = true ∧ MapItem.deadCore p ∈ t.map.waiting := by
  obtain ⟨lost, first, list, hframe, hlost⟩ := loseCores_frame s.ledger.late? s
  rw [hframe] at ht
  obtain ⟨hledger, hconfirmed⟩ := confirmLost_spec { s with ledger := s.ledger.losing lost first list } s.ledger.late?
  have hstate : (State.confirmLost { s with ledger := s.ledger.losing lost first list } s.ledger.late?).ledger.state = .quiescing := by
    rw [hledger]; exact hq
  obtain ⟨st, hend⟩ := checkQuiesced_frame (State.confirmLost { s with ledger := s.ledger.losing lost first list } s.ledger.late?)
  rw [← ht, hledger] at hend
  refine ⟨?_, ?_, fun p hp => ⟨?_, ?_, ?_⟩⟩
  · rw [ht, checkQuiesced_ended hstate, hledger]
    intro q hmem
    by_cases hlate : q ∈ s.ledger.late?
    · exact Or.inr (Or.inl ((hlost q).mpr (Or.inl hlate)))
    · by_contra hnone
      simp only [not_or] at hnone
      obtain ⟨hack, hnl, hpr⟩ := hnone
      exact hlate (mem_late.mpr ⟨hmem, hack, fun h => hnl ((hlost q).mpr (Or.inr h)), hpr⟩)
  · rw [hend]
    rfl
  · rw [hend]
    exact (hlost p).mpr (Or.inl hp)
  · rw [hend]
    exact (hconfirmed p hp).1
  · rw [hend]
    exact (hconfirmed p hp).2

theorem quiesceLimit_due {s : State} {dt : Nat} (hq : s.ledger.state = .quiescing) (hdue : s.ledger.abortAt + 500000 ≤ s.tclk + dt) :
    execQuiesceLimit dt s
      = .next ((((s.pass dt).ledger.late?.foldl State.loseCore (s.pass dt)).confirmLost (s.pass dt).ledger.late?).checkQuiesced) :=
  congrArg Host.Outcome.next (if_pos ⟨hq, hdue⟩)

theorem quiesceLimit_early {s : State} {dt : Nat} (hdue : s.tclk + dt < s.ledger.abortAt + 500000) :
    execQuiesceLimit dt s = .next { s with tclk := s.tclk + dt } :=
  congrArg Host.Outcome.next (if_neg (fun h => absurd h.2 (not_le.mpr hdue)))

/-- Settles O25: the stop, the acknowledgement of a quiet core, and the limit, by what each does to the core and the ledger. -/
theorem stopOfAnAbortedPass : Obligations.StopOfAnAbortedPass := by
  unfold Obligations.StopOfAnAbortedPass
  refine ⟨fun s p c hcore => ⟨fun hq hp hf ha hs hra => ?_, fun hs ha hv hf hb => ?_⟩, fun s dt hq => ⟨fun hdue => ?_, fun hdue => ?_⟩⟩
  · subst hcore
    refine (stop_reaches hq hp hf ha hs).trans (congrArg Host.Outcome.next ?_)
    rw [stop_plain hra, send_nil]
  · subst hcore
    obtain ⟨st, hst⟩ := checkQuiesced_frame (s.acks p.val)
    refine ⟨_, stopAck_quiet (quiet_of hs ha hv hf hb), ?_, ?_, ?_, fun hq => ?_⟩
    · rw [hst]; rfl
    · rw [hst]; rfl
    · rw [hst]; rfl
    · rw [checkQuiesced_ended (s := s.acks p.val) hq]
      show (∀ q ∈ s.ledger.parts, q ∈ addOnce s.ledger.acked p.val ∨ q ∈ s.ledger.lost ∨ q ∈ s.ledger.pruned) ↔ _
      simp only [mem_addOnce, or_assoc]
  · exact quiesceLimit_early hdue
  · obtain ⟨hend, hout, hlate⟩ := limit_ends (s := s.pass dt) hq rfl
    exact ⟨_, quiesceLimit_due hq hdue, hend, hout, fun p hp ha hl hr => hlate p (mem_late.mpr ⟨hp, ha, hl, hr⟩)⟩

end Sys2Proof.Machine
end

section
/-! SUPPORT. Packets that arrive at a stack (R249, R274 to R280). -/

namespace Sys2Proof.Machine

/-- A well-formed packet leaves the fabric and has its effect. -/
theorem arrive_packet {s : State} {k : Packet} {opc : Nat} (h : isPacket k opc) (go : State → State) : s.arrive k opc go = go (s.take k) := by
  obtain ⟨hopc, hok⟩ := h
  rw [State.arrive, if_neg (not_not.mpr hopc), if_neg (by simp [hok])]

/-! ### Cells without errors, lost words, retired rows or staged lines -/

section clean
variable {x : Sump} (hx : x.clean)
include hx

theorem readBytes_clean (off n : Nat) : x.readBytes off n = (x, .ok (Memory.read x.mem off n)) := by
  obtain ⟨herr, hlost, hret, -⟩ := hx
  simp [Sump.readBytes, Sump.retiredAt, Sump.check, herr, hlost, hret]

theorem useHint_clean (now off n : Nat) : x.useHint now off n = x := by
  obtain ⟨-, -, -, hhint⟩ := hx
  simp [Sump.useHint, hhint]

theorem writeBytes_clean (off : Nat) (bs : List Byte) : x.writeBytes off bs = ({ x with mem := Memory.write x.mem off bs }, stOk) := by
  obtain ⟨herr, hlost, hret, -⟩ := hx
  simp [Sump.writeBytes, Sump.retiredAt, herr, hlost, hret, Tab.get]

end clean

/-! ### Reads and writes -/

section access
variable {s u : State} {k : Packet} {i off : Nat} {x : Sump} (hu : u = s.take k) (hx : x = u.sump i) (hready : x.ready = true)
  (haddr : decodeAddr k.daddr.toNat = .hbm i off)
include hx hready

theorem readHbm_refused (hcls : k.sclass ≠ 4) (hno : x.admits k.ctx.toNat off k.len.toNat false = false) :
    u.readHbm k i off = (u.setSump i (x.refuse k.sclass k.ctx.toNat), .answer stRegion []) := by
  simp only [State.readHbm, ← hx, hready, hno, decide_eq_true hcls]
  rfl

theorem readHbm_served (hok : k.sclass = 4 ∨ x.admits k.ctx.toNat off k.len.toNat false = true) (hclean : x.clean) :
    u.readHbm k i off = (u.setSump i x, .answer stOk (Memory.read x.mem off k.len.toNat)) := by
  have hpass : (decide (k.sclass ≠ 4) && !x.admits k.ctx.toNat off k.len.toNat false) = false := by
    rcases hok with h | h <;> simp [h]
  simp only [State.readHbm, ← hx, hready, hpass, useHint_clean hclean, readBytes_clean hclean]
  rfl

theorem writeHbm_refused (hcls : k.sclass ≠ 4) (hno : x.admits k.ctx.toNat off (payloadOf k).length true = false) :
    u.writeHbm k i off = (u.setSump i (x.refuse k.sclass k.ctx.toNat), stRegion) := by
  simp only [State.writeHbm, ← hx, hready, hno, decide_eq_true hcls]
  rfl

theorem writeHbm_served (hok : k.sclass = 4 ∨ x.admits k.ctx.toNat off (payloadOf k).length true = true) (hclean : x.clean) :
    u.writeHbm k i off = (u.setSump i { x with mem := Memory.write x.mem off (payloadOf k) }, stOk) := by
  have hpass : (decide (k.sclass ≠ 4) && !x.admits k.ctx.toNat off (payloadOf k).length true) = false := by
    rcases hok with h | h <;> simp [h]
  simp only [State.writeHbm, ← hx, hready, hpass, writeBytes_clean hclean]
  rfl

omit hx hready
include hu haddr

/-- A read of a stack is answered with what the stack makes of it. -/
theorem rdReq_stack {y : Sump} {st : BitVec 4} {bs : List Byte} (hk : isPacket k 1)
    (h : u.readHbm k i off = (u.setSump i y, .answer st bs)) :
    execRdReq k s = .next ((u.setSump i y).send [readAnswer k (u.answerSrc k) (answerCls (u.answerSrc k)) st bs]) := by
  have hserve : u.serveRead k = (u.setSump i y, .answer st bs) := by rw [State.serveRead]; simp only [haddr, h]
  rw [execRdReq, arrive_packet hk, ← hu, State.readArrives, hserve]
  rfl

/-- A write to a stack is acknowledged with the status that the stack gives it. -/
theorem wr_stack {y : Sump} {st : BitVec 4} (hk : isPacket k 3) (h : u.writeHbm k i off = (u.setSump i y, st)) :
    execWr k s = .next ((u.setSump i y).send [ackOf k (u.answerSrc k) (answerCls (u.answerSrc k)) st]) := by
  have hserve : u.serveWrite k = (u.setSump i y, some st) := by rw [State.serveWrite]; simp only [haddr, h]
  rw [execWr, arrive_packet hk, ← hu, hserve]
  rfl

end access

/-! ### Hints and retracts -/

section hints
variable {s u : State} {k : Packet} {i : Nat} {x : Sump} (hu : u = s.take k) (hx : x = u.sump i) (hi : i < 32) (hdidx : k.didx.toNat = 256 + i)

/-- A hint without the rights for one of its stripes. -/
theorem hint_refused {now : Nat} {ss : List (Nat × Nat)} (hready : x.ready = true) (hcls : k.sclass ≠ 4)
    (hno : ∃ e ∈ ss, x.admits k.ctx.toNat e.1 e.2 false = false) : x.hint now k ss = x.refuse k.sclass k.ctx.toNat := by
  have hall : (ss.all fun e => x.admits k.ctx.toNat e.1 e.2 false) = false := by
    obtain ⟨e, he, hf⟩ := hno
    exact List.all_eq_false.mpr ⟨e, he, by simp [hf]⟩
  simp only [Sump.hint, hready, hall, decide_eq_true hcls]
  rfl

theorem hint_staged {now : Nat} {ss : List (Nat × Nat)} (hready : x.ready = true) (hall : ∀ e ∈ ss, x.admits k.ctx.toNat e.1 e.2 false = true) :
    x.hint now k ss = ss.foldl (fun y e => y.stage now (e.1 / 4096) k.src k.seq) x := by
  have hpass : (ss.all fun e => x.admits k.ctx.toNat e.1 e.2 false) = true := List.all_eq_true.mpr hall
  simp only [Sump.hint, hready, hpass, Bool.not_true, Bool.and_false]
  rfl

include hu hx hi hdidx

/-- A hint reaches the sump that its destination index names. -/
theorem hintPkt_sump (hk : isPacket k 9) : execHintPkt k s = .next (u.setSump i (x.hint u.tclk k (hintStripes k i))) := by
  have hin : (256 ≤ k.didx.toNat && k.didx.toNat < 288) = true := by simp [hdidx]; omega
  have hwhich : k.didx.toNat - 256 = i := by omega
  subst hx
  rw [execHintPkt, arrive_packet hk, ← hu]
  simp only [hin, if_true, hwhich]
  rfl

/-- A retract reaches the sump that its destination index names, once the reads in flight that it names are answered. -/
theorem retract_sump {v : State} (hk : isPacket k 8)
    (hv : v = State.send { u with flight := u.flight.filter fun q => !retracts k q 1 && !retracts k q 9 }
      ((u.flight.filter fun q => retracts k q 1).map fun q => readAnswer q (u.answerSrc q) (answerCls (u.answerSrc q)) stRetracted [])) :
    execRetract k s = .next (v.setSump i (x.retract k.src k.seq (nfld k.aux.toNat 15 0))) := by
  have hin : (256 ≤ k.didx.toNat && k.didx.toNat < 288) = true := by simp [hdidx]; omega
  have hwhich : k.didx.toNat - 256 = i := by omega
  subst hx hv
  rw [execRetract, arrive_packet hk, ← hu]
  simp only [hin, if_true, hwhich]
  rfl

end hints

/-- What a lapse does to the lines of a sump at TCLK count `now`. -/
def Sump.lapse (x : Sump) (stripe now : Nat) : Sump :=
  let gone := fun (l : HintLine) => l.stripe = stripe && !l.taken && decide (l.staged + 100000 ≤ now)
  if x.hints.any gone then { x with hints := x.hints.filter (fun l => !gone l), hintStat := satFld x.hintStat 47 32 1 } else x

theorem lapse_due {x : Sump} {l : HintLine} {now : Nat} (hl : x.hints = [l]) (ht : l.taken = false) (hdue : l.staged + 100000 ≤ now) :
    x.lapse l.stripe now = { x with hints := [], hintStat := satFld x.hintStat 47 32 1 } := by
  simp [Sump.lapse, hl, ht, hdue]

theorem lapse_early {x : Sump} {l : HintLine} {now : Nat} (hl : x.hints = [l]) (hdue : now < l.staged + 100000) :
    x.lapse l.stripe now = x := by
  have hnot : ¬ l.staged + 100000 ≤ now := not_le.mpr hdue
  simp [Sump.lapse, hl, hnot]

theorem hintLineLapse_eq (s : State) (i : Stack) (stripe dt : Nat) :
    exec (.hintLineLapse i stripe dt) s = .next ((s.pass dt).setSump i.val ((s.sump i.val).lapse stripe (s.tclk + dt))) := rfl

/-- Settles O30: by the check of R275, by the stripes of the hint, and by the lines and the reads that a retract names. -/
theorem packetsAtStacks : Obligations.PacketsAtStacks := by
  unfold Obligations.PacketsAtStacks
  refine ⟨fun s u k i off x hu hx hready haddr => ⟨?_, ?_, ?_, ?_⟩, fun s u k i x hu hx hready hi hdidx => ⟨?_, ?_, ?_, ?_⟩,
    fun s i dt l hl ht => ⟨fun hdue => ?_, fun hdue => ?_⟩⟩
  · exact fun hk hcls hno => rdReq_stack hu haddr hk (readHbm_refused hx hready hcls hno)
  · exact fun hk hok hclean => rdReq_stack hu haddr hk (readHbm_served hx hready hok hclean)
  · exact fun hk hcls hno => wr_stack hu haddr hk (writeHbm_refused hx hready hcls hno)
  · exact fun hk hok hclean => wr_stack hu haddr hk (writeHbm_served hx hready hok hclean)
  · rintro hk hcls hno
    rw [← hint_refused (now := u.tclk) hready hcls hno]
    exact hintPkt_sump hu hx hi hdidx hk
  · rintro hk hall
    rw [← hint_staged hready hall]
    exact hintPkt_sump hu hx hi hdidx hk
  · rintro hk hflight
    refine retract_sump hu hx hi hdidx hk ?_
    rw [hflight, List.filter_nil, List.filter_nil, List.map_nil, send_nil, ← hflight]
  · rintro q hk hflight hq
    refine retract_sump hu hx hi hdidx hk ?_
    simp [hflight, hq]
  · rw [hintLineLapse_eq, lapse_due hl ht hdue]
    rfl
  · rw [hintLineLapse_eq, lapse_early hl hdue]
    rfl

end Sys2Proof.Machine
end

section
/-! SUPPORT. Packets that arrive at a core, and the combining of multicast answers (R134, R141, R163, R249, R253, R263 to R265). -/

namespace Sys2Proof.Machine

theorem remoteWrite_seq (c : Core) (cls src a : Nat) (bs : List Byte) : (c.remoteWrite cls src a bs).1.seq = c.seq := by
  unfold Core.remoteWrite
  split
  · rfl
  · split <;> rfl

theorem seq_of_remoteWrite {c d : Core} {cls src a : Nat} {bs : List Byte} {st : BitVec 4} (h : c.remoteWrite cls src a bs = (d, st)) :
    d.seq = c.seq := by
  have hd : (c.remoteWrite cls src a bs).1 = d := congrArg Prod.fst h
  rw [← hd, remoteWrite_seq]

theorem ringCount_seq (c : Core) (stream : BitVec 8) (n : Nat) : (c.ringCount stream n).seq = c.seq := by cases c; rfl
theorem setTok_blocked (c : Core) (n v : Nat) : (c.setTok n v).seq.blocked = c.seq.blocked := by cases c; rfl
theorem setCrd_blocked (c : Core) (n v : Nat) : (c.setCrd n v).seq.blocked = c.seq.blocked := by cases c; rfl

/-- The answer of a packet to a core's scratchpad comes from the core that the address names. -/
theorem answerSrc_pad (s : State) {k : Packet} {l off : Nat} (hmc : k.mcx = none) (haddr : decodeAddr k.daddr.toNat = .pad l off) :
    s.answerSrc k = srcCore l := by
  simp only [State.answerSrc, hmc, haddr]

/-! ### What a core makes of a packet -/

section core
variable {u : State} {k : Packet} {p : Nat} {off : Nat}

theorem writeCorePad_fenced (hf : (u.core p).fenced = true) : u.writeCorePad p k off = (u, stAbsent) := by
  simp only [State.writeCorePad, hf, if_true]

/-- A write that is refused changes what the window check changes. -/
theorem writeCorePad_refused {d : Core} {st : BitVec 4} (hf : (u.core p).fenced = false) (hb : (u.core p).seq.blocked = none)
    (h : (u.core p).remoteWrite k.sclass.toNat (k.src.toNat % 0x4000) off (payloadOf k) = (d, st)) (hst : st ≠ 0) :
    u.writeCorePad p k off = (u.setCore p d, st) := by
  have hd : d.seq.blocked = none := (congrArg CoreSeq.blocked (seq_of_remoteWrite h)).trans hb
  simp only [State.writeCorePad, hf, h, if_neg hst, Bool.false_eq_true, if_false, settle_quiet hd]

/-- A write that lands is counted on its stream. -/
theorem writeCorePad_lands {d : Core} (hf : (u.core p).fenced = false) (hb : (u.core p).seq.blocked = none)
    (h : (u.core p).remoteWrite k.sclass.toNat (k.src.toNat % 0x4000) off (payloadOf k) = (d, 0)) :
    u.writeCorePad p k off = (u.setCore p (d.ringCount k.stream (payloadOf k).length), 0) := by
  have hd : (d.ringCount k.stream (payloadOf k).length).seq.blocked = none := by
    rw [ringCount_seq, seq_of_remoteWrite h, hb]
  simp only [State.writeCorePad, hf, h, if_true, Bool.false_eq_true, if_false, settle_quiet hd]

end core

section pads
variable {s u : State} {k : Packet} {l off p : Nat} (hu : u = s.take k) (hlive : u.liveCore l = some p)
  (haddr : decodeAddr k.daddr.toNat = .pad l off) (hmc : k.mcx = none)
include haddr hmc

include hu in
/-- A read of a core's scratchpad is answered with what the core makes of it. -/
theorem rdReq_core {t : State} {st : BitVec 4} {bs : List Byte} (hk : isPacket k 1) (h : u.readPad k l off = (t, .answer st bs)) :
    execRdReq k s = .next (t.send [readAnswer k (srcCore l) (answerCls (srcCore l)) st bs]) := by
  have hserve : u.serveRead k = (t, .answer st bs) := by rw [State.serveRead]; simp only [haddr, h]
  rw [execRdReq, arrive_packet hk, ← hu, State.readArrives, hserve]
  simp only [answerSrc_pad t hmc haddr]

include hu hlive

theorem wr_core {t : State} {st : BitVec 4} (hk : isPacket k 3) (h : u.writeCorePad p k off = (t, st)) :
    execWr k s = .next (t.send [ackOf k (srcCore l) (answerCls (srcCore l)) st]) := by
  have hserve : u.serveWrite k = (t, some st) := by rw [State.serveWrite]; simp only [haddr, hlive, h]
  rw [execWr, arrive_packet hk, ← hu, hserve]
  simp only [State.acknowledge, answerSrc_pad t hmc haddr]

omit hu in
/-- A count packet to a fenced core. -/
theorem countArrives_fenced (hf : (u.core p).fenced = true) (f : Core → Nat → Nat → Core × List Packet) :
    u.countArrives k f = u.send [ackOf k (srcCore l) (answerCls (srcCore l)) stAbsent] := by
  simp only [State.countArrives, haddr, hlive, hf, if_true, State.acknowledge, answerSrc_pad u hmc haddr]

omit hu in
/-- A count packet that a core takes without a packet of its own. -/
theorem countArrives_counts {d : Core} (hf : (u.core p).fenced = false) {f : Core → Nat → Nat → Core × List Packet}
    (h : f (u.core p) (nfld k.aux.toNat 20 16) (nfld k.aux.toNat 15 0) = (d, [])) (hd : d.seq.blocked = none) :
    u.countArrives k f = (u.setCore p d).send [ackOf k (srcCore l) (answerCls (srcCore l)) stOk] := by
  simp only [State.countArrives, haddr, hlive, hf, h, Bool.false_eq_true, if_false, State.acknowledge, settle_quiet hd,
    answerSrc_pad _ hmc haddr]

theorem token_counts {n : Nat} (hk : isPacket k 6) (hf : (u.core p).fenced = false) (hb : (u.core p).seq.blocked = none)
    (hn : n = nfld k.aux.toNat 20 16) (hcb : (u.core p).cbForTok n = none) (hroom : (u.core p).tokCount n + nfld k.aux.toNat 15 0 ≤ 65535) :
    execToken k s = .next ((u.setCore p ((u.core p).setTok n ((u.core p).tokCount n + nfld k.aux.toNat 15 0))).send
      [ackOf k (srcCore l) (answerCls (srcCore l)) stOk]) := by
  have hin : (u.core p).tokenIn n (nfld k.aux.toNat 15 0) = ((u.core p).setTok n ((u.core p).tokCount n + nfld k.aux.toNat 15 0), []) := by
    rw [Core.tokenIn, hcb]
    exact if_pos hroom
  rw [hn] at hin ⊢
  rw [execToken, arrive_packet hk, ← hu, countArrives_counts hlive haddr hmc hf hin ((setTok_blocked _ _ _).trans hb)]

theorem credit_counts {n : Nat} (hk : isPacket k 7) (hf : (u.core p).fenced = false) (hb : (u.core p).seq.blocked = none)
    (hn : n = nfld k.aux.toNat 20 16) (hroom : (u.core p).crdCount n + nfld k.aux.toNat 15 0 ≤ (u.core p).crdLimit n) :
    execCredit k s = .next ((u.setCore p ((u.core p).setCrd n ((u.core p).crdCount n + nfld k.aux.toNat 15 0))).send
      [ackOf k (srcCore l) (answerCls (srcCore l)) stOk]) := by
  have hin : (u.core p).creditIn n (nfld k.aux.toNat 15 0) = ((u.core p).setCrd n ((u.core p).crdCount n + nfld k.aux.toNat 15 0), []) := if_pos hroom
  rw [hn] at hin ⊢
  rw [execCredit, arrive_packet hk, ← hu, countArrives_counts hlive haddr hmc hf hin ((setCrd_blocked _ _ _).trans hb)]

end pads

/-! ### Answers to transfers -/

/-- The last answer of a read transfer lands in the scratchpad. -/
theorem rdRsp_lands {c : Core} {k : Packet} {x : Xfer} {e : Piece} (hx : c.units.xfers = [x]) (hkind : x.kind = .frd) (hspec : x.spec = false)
    (hcan : x.cancelled = false) (hleft : x.left = [e]) (hits : e.hits k = true) (hok : k.status = stOk) (hdata : k.data ≠ [])
    (herr : c.sp.errs = []) (hlen : e.bytes ≤ k.data.length) :
    c.rdRsp k = ({ Core.ringCount { c with units := { c.units with xfers := [{ x with left := [] }] } } k.stream k.data.length with
      sp := { c.sp with mem := Memory.write c.sp.mem (k.daddr.toNat % 0x400000) k.data } }, []) := by
  have hfind : [x].find? (fun x => x.kind = .frd && x.left.any fun e => e.hits k) = some x := by simp [hkind, hleft, hits]
  have hdone : x.answer k = { x with left := [] } := by
    have hstat : firstBad x.status k.status = x.status := by
      rw [hok, firstBad]
      split
      · next h => exact h.symm
      · rfl
    have hnone : (k.status ≠ 0 || decide (e.bytes ≤ k.data.length)) = true := by simp [hlen]
    simp only [Xfer.answer, hstat, hleft, List.filterMap_cons, hits, if_true, hnone, List.filterMap_nil]
  have hstat : ¬ k.status = stUe := by rw [hok]; decide
  rw [Core.rdRsp, hx, hfind]
  simp only [hcan, hspec, hdone, Bool.false_eq_true, if_false, List.map_cons, List.map_nil, if_true, List.isEmpty_eq_false_iff.mpr hdata,
    decide_eq_false hstat, Bool.false_and]
  rw [store_plain (by exact herr)]

/-- A read answer that is for no span peer and not for the TAP reaches the core that its address names. -/
theorem rdRsp_settles {s u : State} {k : Packet} {l off p : Nat} {d : Core} (hu : u = s.take k) (hk : isPacket k 2)
    (htap : ¬ (k.stream = streamTap ∧ k.src.toNat / 0x1000 = 5)) (hgal : ¬ (288 ≤ k.didx.toNat ∧ k.didx.toNat < 292))
    (haddr : decodeAddr k.daddr.toNat = .pad l off) (hlive : u.liveCore l = some p) (hd : (u.core p).rdRsp k = (d, []))
    (hb : d.seq.blocked = none) : execRdRsp k s = .next (u.setCore p d) := by
  have htap' : (decide (k.stream = streamTap) && decide (k.src.toNat / 0x1000 = 5)) = false := by simpa using htap
  have hgal' : (decide (288 ≤ k.didx.toNat) && decide (k.didx.toNat < 292)) = false := by simpa using hgal
  rw [execRdRsp, arrive_packet hk, ← hu]
  simp only [htap', hgal', Bool.false_eq_true, if_false, haddr, hlive, hd, settle_quiet hb]

/-- The acknowledgement of the last piece of the one transfer. -/
theorem ack_last {u : CoreUnits} {k : Packet} {x : Xfer} {e : Piece} (hx : u.xfers = [x]) (hkind : x.kind = .fwr) (hleft : x.left = [e])
    (hits : e.hits k = true) (hcount : nfld k.aux.toNat 47 32 = 1) :
    u.ack k = { u with xfers := [{ x with left := [], status := firstBad x.status k.status, delivered := 0, pruned := 0 }] } := by
  have hnode : (e.node = k.src && e.stream = k.stream) = true := by
    simp only [Piece.hits, Bool.and_eq_true] at hits ⊢
    exact hits.1
  simp [CoreUnits.ack, hx, hkind, hleft, hits, hcount, ackXfers, ackPieces, hnode]

/-! ### Multicast -/

/-- A copy with one selected core that is there is delivered to it. -/
theorem deliverCopy_one {u : State} {k : Packet} {m : McExt} {i n p : Nat} (hctl : m.sctl = false) (hcores : bitsOf 64 m.cores.toNat = [n])
    (hat : ((u.settAt i).bind fun sid => u.coreAt (64 * sid + n)) = some p) (hf : (u.core p).fenced = false) :
    u.deliverCopy k m i = ((u.writeCorePad p k (k.daddr.toNat % 0x400000)).1,
      { delivered := 1, pruned := 0, status := firstBad 0 (u.writeCorePad p k (k.daddr.toNat % 0x400000)).2 }) := by
  simp only [State.deliverCopy, hctl, Bool.false_eq_true, if_false, hcores, List.foldl_cons, List.foldl_nil, hat, hf]

/-- A copy of a multicast reaches its site. -/
theorem mcwPkt_copy {s u : State} {k : Packet} {m : McExt} {i : Nat} (hu : u = s.take k) (hk : isPacket k 5) (hm : k.mcx = some m)
    (hroot : k.didx ≠ m.root) (hi : i < 272) (hdidx : k.didx.toNat = 320 + i) :
    execMcwPkt k s = .next (s.mcCopy k m (rootNode m.root.toNat) i) := by
  obtain ⟨hopc, hok⟩ := hk
  have hop : k.opc = 5 := BitVec.eq_of_toNat_eq hopc
  have hin : (320 ≤ k.didx.toNat && k.didx.toNat < 592) = true := by simp [hdidx]; omega
  have hsite : k.didx.toNat - 320 = i := by omega
  simp only [execMcwPkt, hm, hop, hok, hroot, hin, hsite]
  rfl

/-- The copy counts in the entry that waits for it and for others. -/
theorem mcCopy_counts {s u t : State} {k : Packet} {m : McExt} {root : Node} {i : Nat} {c : Copied} {e : Combine} (hu : u = s.take k)
    (hpow : u.sitePowered i = true) (hdel : u.deliverCopy k m i = (t, c))
    (hfind : (t.router (holderOf root i)).combine.find? (fun z => z.of k.src k.stream k.seq) = some e) (hwait : 2 ≤ e.waiting) :
    s.mcCopy k m root i = t.modRouter (holderOf root i) fun x => { x with combine := x.combine.map fun z => if z = e then
      { e with waiting := e.waiting - 1, delivered := e.delivered + c.delivered, pruned := e.pruned + c.pruned,
               status := firstBad e.status c.status } else z } := by
  have hmore : ¬ e.waiting - 1 = 0 := by omega
  simp only [State.mcCopy, ← hu, hpow, Bool.not_true, Bool.false_eq_true, if_false, hdel, hfind, hmore]

/-- Settles O31: by whether the core is fenced, by the packet's opcode, and by what the packet meets. -/
theorem packetsAtCores : Obligations.PacketsAtCores := by
  unfold Obligations.PacketsAtCores
  refine ⟨?_, ?_, ?_, ?_⟩
  · rintro s u k l off p c a hu rfl hlive haddr rfl hmc
    refine ⟨fun hf => ⟨fun hk => ?_, fun hk => ?_, fun hk => ?_, fun hk => ?_⟩, fun hf => ⟨fun hk hown herr => ?_, fun hk hb hst => ?_,
      fun hk hb hst => ?_, fun hk hb hcb hroom => ?_, fun hk hb hroom => ?_⟩⟩
    · exact rdReq_core hu haddr hmc hk (by simp only [State.readPad, hlive, hf, if_true])
    · exact wr_core hu hlive haddr hmc hk (writeCorePad_fenced hf)
    · exact congrArg Host.Outcome.next ((arrive_packet hk _).trans (hu ▸ countArrives_fenced hlive haddr hmc hf _))
    · exact congrArg Host.Outcome.next ((arrive_packet hk _).trans (hu ▸ countArrives_fenced hlive haddr hmc hf _))
    · refine rdReq_core hu haddr hmc hk ?_
      simp only [State.readPad, hlive, hf, hown, check_nil _ _ herr, Bool.not_true, Bool.false_eq_true, if_false]
      rw [← hf]
    · exact wr_core hu hlive haddr hmc hk (writeCorePad_refused hf hb (Prod.ext rfl hst) (by decide))
    · exact wr_core hu hlive haddr hmc hk (writeCorePad_lands hf hb (Prod.ext rfl hst))
    · exact token_counts hu hlive haddr hmc hk hf hb rfl hcb hroom
    · exact credit_counts hu hlive haddr hmc hk hf hb rfl hroom
  · rintro s u k l off p c x e hu rfl hlive haddr hk htap hgal hb hx hkind hspec hcan hleft hits hok hdata herr hlen
    exact rdRsp_settles hu hk htap hgal haddr hlive (rdRsp_lands hx hkind hspec hcan hleft hits hok hdata herr hlen) hb
  · rintro s u k p c x e hu rfl hk hb hheld hx hkind hleft hits hcount
    refine congrArg Host.Outcome.next ((arrive_packet hk _).trans ?_)
    rw [← hu]
    exact (congrArg (fun v => u.settle p.val ((u.core p.val).withUnits (v, []))) (ack_last hx hkind hleft hits hcount)).trans (settle_quiet hb)
  · rintro s u k m i n p r e h hu hk hm hroot hi hdidx hpow hctl hcores hat hf rfl rfl hfind hwait
    exact (mcwPkt_copy hu hk hm hroot hi hdidx).trans
      (congrArg Host.Outcome.next (mcCopy_counts hu hpow (deliverCopy_one hctl hcores hat hf) hfind hwait))

end Sys2Proof.Machine
end

section
/-! SUPPORT. Where a message of the neighbour mesh ends, and what lanes record (R217, R221 to R224). -/

namespace Sys2Proof.Machine

section land
variable {s gone t : State} {id a p : Nat} {m : MeshMsg} {lanes : List (Nat × Nat)} (hfind : s.mesh.find? (fun m => m.id = id) = some m)
  (hgone : gone = { s with mesh := s.mesh.filter fun x => x.id ≠ id })
include hfind hgone

/-- A message of another pass is dropped, and counted at its source. -/
theorem meshLand_otherPass (htag : m.tag ≠ s.ledger.passNum.setWidth 4) :
    s.meshLand id = gone.modCore m.src fun c => { c with mesh := { c.mesh with stat := satFld c.mesh.stat 15 0 1 } } := by
  subst hgone
  rw [State.meshLand, hfind]
  exact if_pos htag

omit hgone in
theorem meshLand_waits (htag : m.tag = s.ledger.passNum.setWidth 4) (hpath : s.meshPath m = .waits) : s.meshLand id = s := by
  rw [State.meshLand, hfind]
  dsimp only
  rw [if_neg (not_not.mpr htag), hpath]

theorem meshLand_lost (htag : m.tag = s.ledger.passNum.setWidth 4) (hpath : s.meshPath m = .lost) : s.meshLand id = gone := by
  subst hgone
  rw [State.meshLand, hfind]
  dsimp only
  rw [if_neg (not_not.mpr htag), hpath]

variable (htag : m.tag = s.ledger.passNum.setWidth 4) (hpath : s.meshPath m = .lands a lanes) (ht : t = lanes.foldl State.laneGood gone)
  (hat : t.coreAt a = some p)
include htag hpath ht hat

/-- A message that reaches another core than its flow names is dropped there, and counted. -/
theorem meshLand_misrouted (ha : a ≠ m.dest.toNat) :
    s.meshLand id = t.modCore p fun c => { c with mesh := { c.mesh with stat := satFld c.mesh.stat 31 16 1 } } := by
  subst hgone ht
  rw [State.meshLand, hfind]
  dsimp only
  rw [if_neg (not_not.mpr htag), hpath]
  dsimp only
  rw [hat]
  exact if_pos ha

/-- A message lands in the core that its flow names, and is acknowledged. -/
theorem meshLand_lands {src : Nat} (ha : a = m.dest.toNat) (hsrc : t.logicalOf m.src = some src) {r : Core × BitVec 4}
    (hr : r = landMesh src (m.data.length / 128 + 1) (t.core p, stOk) m.off m.data) :
    s.meshLand id = (t.setCore p r.1).send [meshAck m src a r.2] := by
  subst hgone ht hr
  rw [State.meshLand, hfind]
  dsimp only
  rw [if_neg (not_not.mpr htag), hpath]
  dsimp only
  rw [hat]
  dsimp only
  rw [if_neg (not_not.mpr ha), hsrc]
  rfl

end land

/-- Settles O33: by the message's pass and the end of its path, by the ledger's state, and by the count of the lane's failures. -/
theorem meshRows : Obligations.MeshRows := by
  unfold Obligations.MeshRows
  refine ⟨fun s gone id m hfind hgone => ⟨fun htag => ?_, fun htag => ⟨fun hpath => ?_, fun hpath => ?_, ?_⟩⟩,
    fun s i => ⟨fun hidle => ?_, fun he hi => ?_⟩, fun s i lane => ⟨rfl, fun hdead => ?_, fun hfew => ?_⟩⟩
  · exact congrArg Host.Outcome.next (meshLand_otherPass hfind hgone htag)
  · exact congrArg Host.Outcome.next (meshLand_waits hfind htag hpath)
  · exact congrArg Host.Outcome.next (meshLand_lost hfind hgone htag hpath)
  · rintro a lanes t p hpath ht hat
    refine ⟨fun ha => ?_, fun src r ha hsrc hr => ?_⟩
    · exact congrArg Host.Outcome.next (meshLand_misrouted hfind hgone htag hpath ht hat ha)
    · exact congrArg Host.Outcome.next (meshLand_lands hfind hgone htag hpath ht hat ha hsrc hr)
  · exact congrArg Host.Outcome.next (if_pos hidle)
  · exact congrArg Host.Outcome.next (if_neg (not_or.mpr ⟨he, hi⟩))
  · exact congrArg Host.Outcome.next (if_pos hdead)
  · exact congrArg Host.Outcome.next (if_neg (not_le.mpr hfew))

end Sys2Proof.Machine
end

section
/-! SUPPORT. What a ring router does with a packet, and how its links fold (R247, R250 to R257, R266). -/

namespace Sys2Proof.Machine

/-- The virtual channel of a packet that leaves its arriving ring: high after a row (R252). -/
def turnVc (a : Arrival) (g : Ring) : Bool :=
  match a, g with
  | .injected, _ => false
  | _, .row _ => true
  | _, _ => false

section verdict
variable {n : Node} {x : Router} {a : Arrival} {k : Packet} {e : BitVec 32} {code port : Nat} (he : e = x.entryFor k) (hcode : code = entryField e a)
  (hport : port = (if code = 7 then arrivalPort n a else code))

theorem routeVerdict_bad (hok : packetOk k = false) : routeVerdict n x a k = (.badPkt, k) := by
  simp only [routeVerdict, hok]
  rfl

include he hcode

theorem routeVerdict_invalid (hok : packetOk k = true) (h : bit e 31 = false ∨ code = 15) : routeVerdict n x a k = (.routeDrop, k) := by
  have hdrop : (!bit e 31 || decide (code = 15)) = true := by rcases h with h | h <;> simp [h]
  subst hcode he
  simp only [routeVerdict, hok, Bool.not_true, Bool.false_eq_true, if_false]
  exact if_pos hdrop

theorem routeVerdict_deliver (hok : packetOk k = true) (hvalid : bit e 31 = true) (h0 : code = 0) : routeVerdict n x a k = (.deliver, k) := by
  subst hcode he
  simp only [routeVerdict, hok, hvalid, h0]
  rfl

include hport

/-- The verdict on a packet that goes on by a port of a ring: by the folds, and by the date line. -/
theorem routeVerdict_goesOn {g : Ring} {d cross : Bool} {leg : Packet} (hok : packetOk k = true) (hvalid : bit e 31 = true) (h15 : code ≠ 15) (h0 : code ≠ 0)
    (hring : portRing n port = some (g, d))
    (hleg : leg = if code = 7 ∨ port = arrivalPort n a then k else { k with vc := turnVc a g })
    (hcross : cross = (crossesDate n g d && !bit x.ctrl (lineBit n g))) :
    routeVerdict n x a k = if x.folded port then
        (if leg.turned || x.folded (otherPort n port) then (.foldDrop, leg) else (.turn (otherPort n port), { leg with vc := true, turned := true }))
      else if cross && leg.vc && !leg.turned then (.vcErr, leg)
      else (.forward port, if cross && !leg.turned then { leg with vc := true } else leg) := by
  have hkeep : (!bit e 31 || decide (code = 15)) = false := by simp [hvalid, h15]
  have hleg' : leg = if (decide (code = 7) || decide (port = arrivalPort n a)) = true then k else { k with vc := turnVc a g } := by
    rw [hleg]
    congr 1
    simp
  subst hcross hleg' hport hcode he
  simp only [routeVerdict, hok, Bool.not_true, Bool.false_eq_true, if_false, hkeep, h0, hring]
  rfl

end verdict

/-! ### What the verdict does to the state -/

section route
variable {s : State} {n : Node} {a : Arrival} {k k' : Packet} {i port : Nat}

theorem routePacket_gone {v : Verdict} {f : Router → Router} (h : routeVerdict n (s.router n) a k = (v, k'))
    (hv : (v = .badPkt ∧ f = fun x => { x with err := satFld x.err 15 8 1 }) ∨ (v = .vcErr ∧ f = fun x => { x with err := satFld x.err 7 0 1 })
      ∨ v = .foldDrop ∧ f = fun x => { x with err := satFld x.err 63 48 1 }) : s.routePacket n a k = (s.take k).modRouter n f := by
  rw [State.routePacket, h]
  rcases hv with ⟨rfl, rfl⟩ | ⟨rfl, rfl⟩ | ⟨rfl, rfl⟩ <;> rfl

theorem routePacket_dropped (h : routeVerdict n (s.router n) a k = (.routeDrop, k')) :
    s.routePacket n a k = if expectsReply k.opc.toNat then
        ((s.take k).modRouter n fun x => { x with err := satFld x.err 47 32 1 }).send [refuseReply k (s.answerSrc k) 4 stAbsent]
      else (s.take k).modRouter n fun x => { x with err := satFld x.err 47 32 1 } := by
  rw [State.routePacket, h]

variable (hi : i = (if arrivalPort n a = 15 then 0 else arrivalPort n a))
include hi

theorem routePacket_delivered (h : routeVerdict n (s.router n) a k = (.deliver, k')) :
    s.routePacket n a k = (s.modRouter n fun x => { x with pkts := Tab.mod 0 x.pkts 0 (· + 1) }).drift n i 0 := by
  rw [State.routePacket, h, hi]

theorem routePacket_forwarded (h : routeVerdict n (s.router n) a k = (.forward port, k')) :
    s.routePacket n a k = (((s.swap k k').modRouter n fun x => { x with pkts := Tab.mod 0 x.pkts port (· + 1) }).drift n i port).modRouter n fun x =>
      { x with fails := Tab.set 0 x.fails port 0 } := by
  rw [State.routePacket, h, hi]

theorem routePacket_turned (h : routeVerdict n (s.router n) a k = (.turn port, k')) :
    s.routePacket n a k = (((s.swap k k').modRouter n fun x => { x with pkts := Tab.mod 0 x.pkts port (· + 1) }).drift n i port).modRouter n fun x =>
      { x with err := satFld x.err 31 16 1 } := by
  rw [State.routePacket, h, hi]

end route

/-- A packet in flight reaches a router. -/
theorem routePacket_flight {s t : State} {n : Node} {a : Arrival} {k : Packet} (hk : k ∈ s.flight) (h : s.routePacket n a k = t) :
    exec (.routePacket n a k) s = .next t := by
  refine congrArg Host.Outcome.next ((if_pos (List.contains_iff_mem.mpr hk)).trans h)

/-- A row of a link at a port that names one. -/
theorem link_taken {s t : State} {n : Node} {p : Nat} (h : (portRing n p).isSome = true) : (if isLink n p then t else s) = t := if_pos h

theorem ringLinkDead_folds {s : State} {n m : Node} {p : Fin 12} {q : Nat} (hlink : (portRing n p.val).isSome = true)
    (hfails : 16 ≤ Tab.get 0 (s.router n).fails p.val) (hfar : farEnd n p.val = some (m, q)) :
    execRingLinkDead n p s = .next { (((s.modRouter n fun x => x.foldHw p.val).modRouter m fun x => x.foldHw q).modRouter n fun x =>
        { x with links := Tab.mod 0 x.links p.val fun v => setBit v 31 true, fails := Tab.set 0 x.fails p.val 0 }) with
      map := { s.map with waiting := addOnce s.map.waiting (MapItem.deadLink n p.val) } } := by
  have hdead : (isLink n p.val && decide (16 ≤ Tab.get 0 (s.router n).fails p.val)) = true := by
    rw [Bool.and_eq_true]
    exact ⟨hlink, decide_eq_true hfails⟩
  rw [execRingLinkDead, if_pos hdead]
  simp only [State.foldLink, hfar, modRouter_map]

theorem ringLinkDead_early {s : State} {n : Node} {p : Fin 12} (hfails : Tab.get 0 (s.router n).fails p.val < 16) :
    execRingLinkDead n p s = .next s := by
  have halive : (isLink n p.val && decide (16 ≤ Tab.get 0 (s.router n).fails p.val)) = false := by
    rw [decide_eq_false (not_le.mpr hfails), Bool.and_false]
  rw [execRingLinkDead, halive]
  rfl

/-- Settles O34: by the router's verdict, and by the port's link. -/
theorem routerRows : Obligations.RouterRows := by
  unfold Obligations.RouterRows
  refine ⟨?_, fun s n p hlink => ⟨?_, ?_, ?_, ?_, ?_⟩⟩
  · rintro s n a k x e i code port hk rfl hi he hcode hport
    refine ⟨fun hok => ?_, fun hok => ⟨fun hdrop => ⟨fun hno => ?_, fun hyes => ?_⟩, fun hvalid h0 => ?_, ?_⟩⟩
    · exact routePacket_flight hk (routePacket_gone (routeVerdict_bad hok) (.inl ⟨rfl, rfl⟩))
    · exact routePacket_flight hk ((routePacket_dropped (routeVerdict_invalid he hcode hok hdrop)).trans (if_neg (by rw [hno]; decide)))
    · exact routePacket_flight hk ((routePacket_dropped (routeVerdict_invalid he hcode hok hdrop)).trans (if_pos hyes))
    · exact routePacket_flight hk (routePacket_delivered hi (routeVerdict_deliver he hcode hok hvalid h0))
    · rintro g d leg cross hvalid h15 h0 hring hleg hcross
      have hv := routeVerdict_goesOn he hcode hport hok hvalid h15 h0 hring hleg hcross
      refine ⟨fun hopen hpass => ?_, fun hopen hc hvc ht => ?_, fun hfold ht hother => ?_, fun hfold hdrop => ?_⟩
      · have hline : (cross && leg.vc && !leg.turned) = false := by rcases hpass with h | h | h <;> simp [h]
        simp only [hopen, hline, Bool.false_eq_true, if_false] at hv
        refine routePacket_flight hk ((routePacket_forwarded hi hv).trans ?_)
        simp
      · simp only [hopen, hc, hvc, ht, Bool.false_eq_true, if_false] at hv
        exact routePacket_flight hk (routePacket_gone hv (.inr (.inl ⟨rfl, rfl⟩)))
      · simp only [hfold, ht, hother, if_true, Bool.or_false, Bool.false_eq_true, if_false] at hv
        exact routePacket_flight hk (routePacket_turned hi hv)
      · have hboth : (leg.turned || (s.router n).folded (otherPort n port)) = true := by rcases hdrop with h | h <;> simp [h]
        simp only [hfold, hboth, if_true] at hv
        exact routePacket_flight hk (routePacket_gone hv (.inr (.inr ⟨rfl, rfl⟩)))
  · exact congrArg Host.Outcome.next (link_taken hlink)
  · exact congrArg Host.Outcome.next (link_taken hlink)
  · exact congrArg Host.Outcome.next (link_taken hlink)
  · exact fun m q hfails hfar => ringLinkDead_folds hlink hfails hfar
  · exact fun hfails => ringLinkDead_early hfails

end Sys2Proof.Machine
end

section
/-! SUPPORT. What happens to a clock island: references, locks, ACLK and droops (R341 to R349). -/

namespace Sys2Proof.Machine

/-! ### References and locks -/

/-- A change of an island counts by what it makes of that island alone. -/
theorem modIsland_congr {s : State} {n : Node} {f g : Island → Island} (h : f (s.island n) = g (s.island n)) : s.modIsland n f = s.modIsland n g := by
  cases n with
  | sett i => exact congrArg (fun k => s.setSett i.val { s.sett i.val with clk := k }) h
  | sump i => exact congrArg (fun k => s.setSump i.val { s.sump i.val with clk := k }) h
  | gal i => exact congrArg (fun k => s.setGal i.val { s.gal i.val with clk := k }) h

/-- CLK_STATUS of a generator that locks first: LOCKED, with ACLK at FLOOR in a sett whose ACLK does not run. -/
def lockedStatus (st : BitVec 32) (sett : Bool) : BitVec 32 :=
  setFld (if sett ∧ fld st 10 0 = 0 then setFld st 10 0 200 else st) 31 28 2

theorem fld_lockedStatus_state (st : BitVec 32) (sett : Bool) : fld (lockedStatus st sett) 31 28 = 2 :=
  fld_setFld (by decide) (by decide)

/-- A first lock leaves the fields of CLK_STATUS between ACLK and STATE. -/
theorem fld_lockedStatus (st : BitVec 32) (sett : Bool) {hi lo : Nat} (hlo : 10 < lo) (hhi : hi < 28) :
    fld (lockedStatus st sett) hi lo = fld st hi lo := by
  rw [lockedStatus, fld_setFld_ne (by decide) (by decide) (Or.inl hhi)]
  split
  · exact fld_setFld_ne (by decide) (by decide) (Or.inr hlo)
  · rfl

/-- The first lock of a generator starts its island's time at 0 (R349). -/
theorem lock_first {x : Island} (h : fld x.status 31 28 < 2) (now : Nat) (sett : Bool) : x.lock now sett =
    { x with status := lockedStatus x.status sett, timeOff := -(BitVec.ofNat 64 now), slew := 0, slewAt := now } := by
  have hs : x.state < 2 := h
  rw [Island.lock, if_pos hs]
  by_cases hf : sett = true ∧ fld x.status 10 0 = 0
  · simp only [Island.setState, lockedStatus, if_pos hf]
  · simp only [Island.setState, lockedStatus, if_neg hf]

theorem lock_again {x : Island} (h : 2 ≤ fld x.status 31 28) (now : Nat) (sett : Bool) : x.lock now sett = x.setState 2 := by
  have hs : ¬ x.state < 2 := not_lt.mpr h
  rw [Island.lock, if_neg hs]

theorem select_state (x : Island) (i : Nat) : fld (x.select i).status 31 28 = fld x.status 31 28 := by
  unfold Island.select
  split
  · rfl
  · exact fld_setFld_ne (by decide) (by decide) (by decide)

/-- What the loss of a node's generator takes with it (R348). -/
def State.unitDies (s : State) (n : Node) : State :=
  match n with
  | .sett k => s.siteDies k.val
  | .sump k => s.stackDies k.val
  | .gal g => s.galleryDies g.val

section references
variable {s : State} {n : Node} {i : RefInput}

theorem referenceLoss_selected (h : fld (s.island n).status 31 28 = 2) (hi : fld (s.island n).status 27 24 = i.toNat) :
    execReferenceLoss n i s = .next (State.edge (s.modIsland n fun x =>
      ({ x with status := setFld x.status 31 28 3 } : Island).select (nextInput (refList (s.refCfg n)) i.toNat)) 0 594) :=
  congrArg Host.Outcome.next (if_pos ⟨h, hi⟩)

theorem referenceLoss_other (h : fld (s.island n).status 31 28 ≠ 2 ∨ fld (s.island n).status 27 24 ≠ i.toNat) :
    execReferenceLoss n i s = .next s :=
  congrArg Host.Outcome.next (if_neg (not_and_or.mpr h))

theorem inputQualified_unlisted (h : (refList (s.refCfg n)).contains i.toNat = false) : execInputQualified n i s = .next s :=
  congrArg Host.Outcome.next (if_neg (fun hc => by rw [h] at hc; exact absurd hc.1 (by decide)))

/-- The island that acquires takes the input and locks to it. -/
theorem inputQualified_acquiring (hl : (refList (s.refCfg n)).contains i.toNat = true) (h : fld (s.island n).status 31 28 = 1) :
    execInputQualified n i s = .next (s.modIsland n fun x =>
      { x with status := lockedStatus (setFld (s.island n).status 27 24 i.toNat) (isSett n), timeOff := -(BitVec.ofNat 64 s.tclk), slew := 0, slewAt := s.tclk }) := by
  have hacq : (s.island n).state = 1 := h
  have hback : ¬ (n = .gal 0 ∧ (s.island n).state = 3 ∧ i.toNat ≠ fld (s.island n).status 27 24) := by rw [hacq]; simp
  have hfirst : fld (setFld (s.island n).status 27 24 i.toNat) 31 28 < 2 := by
    rw [fld_setFld_ne (by decide) (by decide) (by decide), h]; decide
  refine congrArg Host.Outcome.next ((if_pos ⟨hl, Or.inl hacq, hback⟩).trans (modIsland_congr ?_))
  dsimp only
  rw [if_pos hacq, lock_first (by exact hfirst)]

/-- An island in holdover selects the input and is locked again. -/
theorem inputQualified_holdover (hl : (refList (s.refCfg n)).contains i.toNat = true) (h : fld (s.island n).status 31 28 = 3) (hn : n ≠ .gal 0) :
    execInputQualified n i s = .next (s.modIsland n fun y => (y.select i.toNat).setState 2) := by
  have hhold : (s.island n).state = 3 := h
  have hnot : ¬ (s.island n).state = 1 := by rw [hhold]; decide
  refine congrArg Host.Outcome.next ((if_pos ⟨hl, Or.inr hhold, fun hb => hn hb.1⟩).trans (modIsland_congr ?_))
  dsimp only
  rw [if_neg hnot, lock_again (by rw [select_state, h]; decide)]

theorem vcoLockFail_running (h0 : fld (s.island n).status 31 28 ≠ 0) (h4 : fld (s.island n).status 31 28 ≠ 4) :
    execVcoLockFail n s = .next ((s.modIsland n fun y => y.setState 4).unitDies n) :=
  congrArg Host.Outcome.next (if_neg (not_or.mpr ⟨h0, h4⟩))

theorem vcoLockFail_idle (h : fld (s.island n).status 31 28 = 0 ∨ fld (s.island n).status 31 28 = 4) : execVcoLockFail n s = .next s :=
  congrArg Host.Outcome.next (if_pos h)

end references

/-! ### ACLK -/

section aclk
variable {k : Island} {cur goal : Nat} (hcur : cur = fld k.status 10 0) (hgoal : goal = fld k.aclk 62 56) (hlive : k.live = true)
include hcur hgoal hlive

theorem aclkStep_fractional (hsafe : k.safe = false) : k.aclkStep =
    if cur < 25 * goal then { k with status := setFld k.status 10 0 (cur + 25) }
    else if 25 * goal < cur then { k with status := setFld k.status 10 0 (cur - 25) } else k := by
  subst hcur hgoal
  simp only [Island.aclkStep, hlive, hsafe, Bool.not_true, Bool.false_eq_true, if_false]

theorem aclkStep_safe (hsafe : k.safe = true) : k.aclkStep = if 25 * goal < cur then k.toSafe (safeDiv goal) else k := by
  subst hcur hgoal
  simp only [Island.aclkStep, hlive, hsafe, Bool.not_true, Bool.false_eq_true, if_false, if_true]

theorem violation_eq {now : Nat} {duty : Bool} {st : BitVec 32} {y : Island} (hst : st = setFld k.status 20 19 (if duty then 2 else 1))
    (hy : y = { k with events := if duty then satFld k.events 23 16 1 else satFld k.events 31 24 1
                       status := if k.safe = false ∧ passed k.safeAt now 1000000 = false then setBit st 18 true else st }) :
    k.violation now duty = y.toSafe (safeDiv (if k.safe then min goal (cur / 25) else goal)) := by
  subst hcur hgoal hst hy
  simp only [Island.violation, hlive, Bool.not_true, Bool.false_eq_true, if_false]
  cases k.safeAt with
  | none => simp only [passed, Bool.true_eq_false, and_false, Bool.false_eq_true, if_false]
  | some t =>
    by_cases h : k.safe = false ∧ now < t + 1000000
    · simp only [passed, h, decide_eq_false_iff_not, not_le, Bool.not_false, Bool.true_and, decide_true, if_true, and_self]
    · have hno : (!k.safe && decide (now < t + 1000000)) = false := by simpa using h
      simp only [passed, decide_eq_false_iff_not, not_le, hno, h, Bool.false_eq_true, if_false]

end aclk

theorem safeClear_eq (k : Island) (now : Nat) : k.safeClear now = if k.safe = true ∧ bit k.status 18 = false then
    { k with status := setFld (setBit k.status 23 false) 22 21 0, safeAt := some now } else k := by
  simp only [Island.safeClear, Bool.and_eq_true, Bool.not_eq_true']

section site
variable {s : State} {i : Site} {k : Island}

theorem aclkStep_site (h : (s.sett i.val).clk.aclkStep = k) : execAclkStep i s = .next (s.setSett i.val { s.sett i.val with clk := k }) := by
  rw [← h]; rfl

theorem clockViolation_site {duty : Bool} (h : (s.sett i.val).clk.violation s.tclk duty = k) :
    execClockViolation i duty s = .next (s.setSett i.val { s.sett i.val with clk := k }) := by
  rw [← h]; rfl

theorem safeClear_site (h : (s.sett i.val).clk.safeClear s.tclk = k) : execSafeClear i s = .next (s.setSett i.val { s.sett i.val with clk := k }) := by
  rw [← h]; rfl

theorem droop_site {row : Fin 8} {x : Sett} (hlive : (s.sett i.val).clk.live = true) (h : (s.sett i.val).droop s.tclk = x) :
    execDroop i row s = .next (s.setSett i.val x) := by
  rw [← h]
  exact congrArg Host.Outcome.next (if_pos hlive)

theorem droopRecovery_site {dt : Nat} {x : Sett} (h : (s.sett i.val).droopRise (s.tclk + dt) = x) :
    execDroopRecovery i dt s = .next (State.setSett { s with tclk := s.tclk + dt } i.val x) := by
  rw [← h]; rfl

end site

/-! ### Droops -/

/-- DROOP of a sett, set with the instant of the step. -/
theorem setDroop_step (x : Sett) (stepped : Option Nat) (v : Nat) : Sett.setDroop { x with clk := { x.clk with droopStep := stepped } } v
    = Sett.retarget { x with clk := { x.clk with droopStep := stepped, aclk := setFld x.clk.aclk 30 24 v } } := rfl

/-- The sett with a droop recorded in its island `k`: DROOP falls unless it has just fallen. -/
def Sett.droopOn (x : Sett) (k : Island) (now : Nat) : Sett :=
  if passed k.droopStep now 1000 then
    Sett.setDroop { x with clk := { k with droopStep := some now } } (if fld k.aclk 30 24 = 127 then fld k.aclk 54 48 else fld k.aclk 30 24 - 1)
  else { x with clk := k }

theorem droop_eq (x : Sett) (now : Nat) : x.droop now
    = x.droopOn { x.clk with events := satFld x.clk.events 15 8 1, status := setFld x.clk.status 20 19 3, droopAt := some now } now := rfl

section droop
variable {x y : Sett} {now d : Nat}

/-- A droop within a microsecond of the last step is counted only. -/
theorem droopOn_recent {k : Island} (hrec : passed k.droopStep now 1000 = false) : x.droopOn k now = { x with clk := k } := by
  simp only [Sett.droopOn, hrec, Bool.false_eq_true, if_false]

theorem droopOn_lowers {k : Island} (hrec : passed k.droopStep now 1000 = true) : x.droopOn k now = Sett.retarget { x with clk := { k with
    droopStep := some now
    aclk := setFld k.aclk 30 24 (if fld k.aclk 30 24 = 127 then fld k.aclk 54 48 else fld k.aclk 30 24 - 1) } } := by
  simp only [Sett.droopOn, hrec, if_true]
  exact setDroop_step { x with clk := k } _ _

variable (hd : d = fld x.clk.aclk 30 24)
include hd

theorem droopRise_stays (h : d = 127 ∨ passed x.clk.droopAt now 1000000 = false ∨ passed x.clk.droopStep now 1000000 = false) :
    x.droopRise now = x := by
  have hstay : (decide (d = 127) || !passed x.clk.droopAt now 1000000 || !passed x.clk.droopStep now 1000000) = true := by
    rcases h with h | h | h <;> simp [h]
  subst hd
  simp only [Sett.droopRise, hstay, if_true]

theorem droopRise_raises (h : d ≠ 127) (hat : passed x.clk.droopAt now 1000000 = true) (hstep : passed x.clk.droopStep now 1000000 = true) :
    x.droopRise now = Sett.retarget { x with clk := { x.clk with
      droopStep := some now, aclk := setFld x.clk.aclk 30 24 (if fld x.clk.aclk 54 48 < d + 1 then 127 else d + 1) } } := by
  have hrise : (decide (d = 127) || !passed x.clk.droopAt now 1000000 || !passed x.clk.droopStep now 1000000) = false := by
    simp [h, hat, hstep]
  subst hd
  simp only [Sett.droopRise, hrise, Bool.false_eq_true, if_false, Sett.setDroop]

end droop

/-- Settles O36: each row by the island's state, and by the limit or the instant it asks. -/
theorem clockRows : Obligations.ClockRows := by
  unfold Obligations.ClockRows
  refine ⟨?_, ?_, ?_⟩
  · rintro s n i x rfl
    refine ⟨referenceLoss_selected, referenceLoss_other, fun hl => ⟨fun h => ?_, inputQualified_holdover hl⟩, inputQualified_unlisted,
      vcoLockFail_running, vcoLockFail_idle⟩
    refine ⟨_, inputQualified_acquiring hl h, ?_, ?_, ?_, ?_⟩
    · rw [island_modIsland]
    · rw [island_modIsland]
      exact fld_lockedStatus_state _ _
    · rw [island_modIsland]
      refine (fld_lockedStatus _ _ (by decide) (by decide)).trans ((fld_setFld (by decide) (by decide)).trans (Nat.mod_eq_of_lt i.isLt))
    · rw [island_modIsland]
      exact (fld_lockedStatus _ _ (by decide) (by decide)).trans (fld_setFld_ne (by decide) (by decide) (by decide))
  · rintro s i x k cur goal rfl rfl hlive hcur hgoal
    refine ⟨fun hsafe => ?_, fun hsafe => ?_, fun duty st y hst hy => ?_, ?_, fun row y hy => ⟨fun hrec => ?_, fun hrec => ?_⟩⟩
    · exact aclkStep_site (aclkStep_fractional hcur hgoal hlive hsafe)
    · exact aclkStep_site (aclkStep_safe hcur hgoal hlive hsafe)
    · exact clockViolation_site (violation_eq hcur hgoal hlive hst hy)
    · exact safeClear_site (safeClear_eq _ _)
    · rw [hy]
      exact droop_site (row := row) hlive ((droop_eq _ _).trans (droopOn_recent hrec))
    · rw [hy]
      exact droop_site (row := row) hlive ((droop_eq _ _).trans (droopOn_lowers hrec))
  · rintro s i dt x d now rfl hd rfl
    refine ⟨fun h => ?_, fun hd' hat hstep => ?_⟩
    · exact droopRecovery_site (droopRise_stays hd h)
    · exact droopRecovery_site (droopRise_raises hd hd' hat hstep)

end Sys2Proof.Machine
end

section
/-! SUPPORT. Interrupt controllers: sources, claims and completions (R424 to R427). -/

namespace Sys2Proof.Machine

theorem icu_setIcu (x : Gallery) (n m : Nat) (v : BitVec 32) : (x.setIcu n v).icu m = if m = n then v else x.icu m := by
  unfold Gallery.setIcu Gallery.icu
  dsimp only
  rw [get_set]
  split
  case isTrue h => rw [h, BitVec.xor_assoc, BitVec.xor_self, BitVec.xor_zero]
  case isFalse => rfl

theorem icu_setIcu_same (x : Gallery) (n : Nat) (v : BitVec 32) : (x.setIcu n v).icu n = v := (icu_setIcu x n n v).trans (if_pos rfl)

/-- A wake-up reaches the management cores alone. -/
theorem wakeMc_frame (x : Gallery) (n : Nat) : ∃ st, x.wakeMc n = { x with mcStat := st } := by
  unfold Gallery.wakeMc
  dsimp only
  split
  · exact ⟨_, rfl⟩
  · exact ⟨x.mcStat, rfl⟩

theorem icu_wakeMc (x : Gallery) (n m : Nat) : (x.wakeMc n).icu m = x.icu m := by
  obtain ⟨st, h⟩ := wakeMc_frame x n
  rw [h]
  rfl

theorem icu_edge {x : Gallery} {g n : Nat} (h : hasSource g n = true) (m : Nat) :
    (x.edge g n).icu m = if m = n then setBit (x.icu n) 0 true else x.icu m := by
  rw [Gallery.edge, if_pos h]
  dsimp only
  rw [icu_wakeMc]
  split <;> exact icu_setIcu _ _ _ _

/-- A source in service is claimed by no core (R425). -/
theorem claimable_of_inService {x : Gallery} {n : Nat} (h : bit (x.icu n) 30 = true) (b : Nat) : x.claimable b n = false := by
  simp [Gallery.claimable, h]

/-- GDIS holds every source back (R426). -/
theorem claimable_of_gdis {x : Gallery} (h : bit x.icuCtrl 31 = true) (b n : Nat) : x.claimable b n = false := by
  simp [Gallery.claimable, h]

/-! ### The choice of a claim -/

/-- One step of the search for the source of the highest priority. -/
def Gallery.better (x : Gallery) (a : Option Nat) (n : Nat) : Option Nat :=
  match a with
  | none => some n
  | some m => if fld (x.icu m) 29 27 < fld (x.icu n) 29 27 then some n else a

theorem best_eq (x : Gallery) (b : Nat) : x.best b = ((List.range 1024).filter (x.claimable b)).foldl x.better none := rfl

theorem best_none {x : Gallery} {b : Nat} (h : ∀ n < 1024, x.claimable b n = false) : x.best b = none := by
  rw [best_eq, List.filter_eq_nil_iff.mpr fun n hn => by simp [h n (List.mem_range.mp hn)]]
  rfl

/-- What the search finds so far is of lower priority than `n`. -/
def Gallery.below (x : Gallery) (n : Nat) (a : Option Nat) : Prop := ∀ m, a = some m → fld (x.icu m) 29 27 < fld (x.icu n) 29 27

theorem foldl_better_below {x : Gallery} {n : Nat} (l : List Nat) (a : Option Nat) (ha : x.below n a)
    (hl : ∀ m ∈ l, fld (x.icu m) 29 27 < fld (x.icu n) 29 27) : x.below n (l.foldl x.better a) := by
  induction l generalizing a with
  | nil => exact ha
  | cons k l ih =>
    have hk := hl k List.mem_cons_self
    refine ih _ (fun m hm => ?_) fun m hm => hl m (List.mem_cons_of_mem _ hm)
    cases a with
    | none => exact (Option.some.inj hm) ▸ hk
    | some j =>
      simp only [Gallery.better] at hm
      split at hm
      · exact (Option.some.inj hm) ▸ hk
      · exact ha m hm

theorem better_of_below {x : Gallery} {n : Nat} {a : Option Nat} (ha : x.below n a) : x.better a n = some n := by
  cases a with
  | none => rfl
  | some m => exact if_pos (ha m rfl)

theorem foldl_better_stays {x : Gallery} {n : Nat} (l : List Nat) (hl : ∀ m ∈ l, fld (x.icu m) 29 27 ≤ fld (x.icu n) 29 27) :
    l.foldl x.better (some n) = some n := by
  induction l with
  | nil => rfl
  | cons k l ih =>
    have hk : x.better (some n) k = some n := if_neg (Nat.not_lt.mpr (hl k List.mem_cons_self))
    rw [List.foldl_cons, hk]
    exact ih fun m hm => hl m (List.mem_cons_of_mem _ hm)

/-- The claimable source that no other one precedes is the one a claim takes (R425). -/
theorem best_some {x : Gallery} {b n : Nat} (hn : n < 1024) (hc : x.claimable b n = true)
    (hbest : ∀ m < 1024, x.claimable b m = true →
      fld (x.icu m) 29 27 < fld (x.icu n) 29 27 ∨ (fld (x.icu m) 29 27 = fld (x.icu n) 29 27 ∧ n ≤ m)) : x.best b = some n := by
  have hsorted : ((List.range 1024).filter (x.claimable b)).Pairwise (· < ·) := (List.pairwise_lt_range).filter _
  have hmem : ∀ m ∈ (List.range 1024).filter (x.claimable b), m < 1024 ∧ x.claimable b m = true := fun m hm => by
    simpa using List.mem_filter.mp hm
  obtain ⟨l₁, l₂, hl⟩ := List.append_of_mem (List.mem_filter.mpr ⟨List.mem_range.mpr hn, hc⟩)
  rw [hl] at hsorted hmem
  have hbefore : ∀ m ∈ l₁, fld (x.icu m) 29 27 < fld (x.icu n) 29 27 := fun m hm => by
    have hlt : m < n := (List.pairwise_append.mp hsorted).2.2 m hm n List.mem_cons_self
    obtain ⟨hm1, hm2⟩ := hmem m (List.mem_append_left _ hm)
    exact (hbest m hm1 hm2).resolve_right fun h => absurd h.2 (Nat.not_le.mpr hlt)
  have hafter : ∀ m ∈ l₂, fld (x.icu m) 29 27 ≤ fld (x.icu n) 29 27 := fun m hm => by
    obtain ⟨hm1, hm2⟩ := hmem m (List.mem_append_right _ (List.mem_cons_of_mem _ hm))
    exact (hbest m hm1 hm2).elim Nat.le_of_lt fun h => Nat.le_of_eq h.1
  rw [best_eq, hl, List.foldl_append, List.foldl_cons,
    better_of_below (foldl_better_below l₁ none (fun _ h => nomatch h) hbefore), foldl_better_stays l₂ hafter]

/-! ### Claims and completions -/

theorem claim_none {x : Gallery} {b : Nat} (h : x.best b = none) : x.claim b = (x, 0) := by
  unfold Gallery.claim
  rw [h]

/-- ICU_SRC_n of a source that is claimed: in service, and no longer pending unless it is a level source (R425). -/
def claimedSrc (v : BitVec 32) (n : Nat) : BitVec 32 := if levelSource n then setBit v 30 true else setBit (setBit v 30 true) 0 false

theorem claim_some {x : Gallery} {b n : Nat} (h : x.best b = some n) :
    (x.claim b).2 = BitVec.ofNat 32 (2 ^ 31 + n) ∧ ∀ m, (x.claim b).1.icu m = if m = n then claimedSrc (x.icu n) n else x.icu m := by
  unfold Gallery.claim
  rw [h]
  exact ⟨rfl, fun m => icu_setIcu _ _ _ _⟩

theorem bit_claimedSrc_inService (v : BitVec 32) (n : Nat) : bit (claimedSrc v n) 30 = true := by
  unfold claimedSrc
  split
  · rw [bit_setBit (by decide), if_pos rfl]
  · rw [bit_setBit (by decide), if_neg (by decide), bit_setBit (by decide), if_pos rfl]

theorem bit_claimedSrc_pending {v : BitVec 32} (hv : bit v 0 = true) (n : Nat) : bit (claimedSrc v n) 0 = levelSource n := by
  unfold claimedSrc
  split
  case isTrue h => rw [bit_setBit (by decide), if_neg (by decide), hv, h]
  case isFalse h => rw [bit_setBit (by decide), if_pos rfl, Bool.eq_false_of_not_eq_true h]

theorem pending_of_claimable {x : Gallery} {b n : Nat} (h : x.claimable b n = true) : bit (x.icu n) 0 = true := by
  simp only [Gallery.claimable, Bool.and_eq_true] at h
  exact h.1.1.1.1

/-- ICU_SRC_n of a source whose service is completed (R425). -/
def completedSrc (v : BitVec 32) (n : Nat) (hold : Bool) : BitVec 32 :=
  if levelSource n then setBit (setBit v 30 false) 0 hold else setBit v 30 false

theorem icuComplete_other {s : State} {g b n : Nat} (h : Tab.get 0 (s.gal g).claims n ≠ b + 1) : s.icuComplete g b n = s := if_pos h

theorem icuComplete_gal {s : State} {g b n : Nat} (h : Tab.get 0 (s.gal g).claims n = b + 1) :
    ((s.icuComplete g b n).gal g).icu n = completedSrc ((s.gal g).icu n) n (s.levelHolds g n)
    ∧ Tab.get 0 ((s.icuComplete g b n).gal g).claims n = 0 := by
  rw [State.icuComplete, if_neg (not_not.mpr h)]
  dsimp only
  rw [gal_modGal, if_pos rfl]
  refine ⟨icu_setIcu_same _ _ _, ?_⟩
  dsimp only
  rw [get_set, if_pos rfl]

theorem icuComplete_frame (s : State) (g b n : Nat) : s.icuComplete g b n = { s with gals := (s.icuComplete g b n).gals } := by
  unfold State.icuComplete
  split <;> rfl

theorem bit_completedSrc_inService (v : BitVec 32) (n : Nat) (hold : Bool) : bit (completedSrc v n hold) 30 = false := by
  unfold completedSrc
  split
  · rw [bit_setBit (by decide), if_neg (by decide), bit_setBit (by decide), if_pos rfl]
  · rw [bit_setBit (by decide), if_pos rfl]

theorem bit_completedSrc_level {n : Nat} (h : levelSource n = true) (v : BitVec 32) (hold : Bool) : bit (completedSrc v n hold) 0 = hold := by
  rw [completedSrc, if_pos h, bit_setBit (by decide), if_pos rfl]

theorem bit_completedSrc_edge {n : Nat} (h : levelSource n = false) (v : BitVec 32) (hold : Bool) : bit (completedSrc v n hold) 0 = bit v 0 := by
  rw [completedSrc, if_neg (by simp [h]), bit_setBit (by decide), if_neg (by decide)]

/-! ### Edges and GDIS -/

theorem modGal_frame (s : State) (g : Nat) (f : Gallery → Gallery) : s.modGal g f = { s with gals := (s.modGal g f).gals } := rfl

/-- Every software interrupt names a per-core source that its core has (R424). -/
theorem hasSource_sgi (g : Nat) (v : BitVec 32) : hasSource g (64 * fld v 5 4 + fld v 3 0) = true := by
  have h1 : fld v 5 4 < 4 := Nat.mod_lt _ (by decide)
  have h2 : fld v 3 0 < 16 := Nat.mod_lt _ (by decide)
  have : 64 * fld v 5 4 + fld v 3 0 < 256 ∧ (64 * fld v 5 4 + fld v 3 0) % 64 ≤ 17 := by omega
  unfold hasSource
  rw [decide_eq_true this.1, decide_eq_true this.2]
  rfl

theorem gal_edge {s : State} {g n : Nat} (h : hasSource g n = true) :
    bit (((s.edge g n).gal g).icu n) 0 = true ∧ ∀ m, m ≠ n → ((s.edge g n).gal g).icu m = (s.gal g).icu m := by
  rw [State.edge, gal_modGal, if_pos rfl]
  refine ⟨?_, fun m hm => by rw [icu_edge h, if_neg hm]⟩
  rw [icu_edge h, if_pos rfl, bit_setBit (by decide), if_pos rfl]

theorem gal_edge_other {s : State} {g h n : Nat} (hh : h ≠ g) : (s.edge g n).gal h = s.gal h := by
  rw [State.edge, gal_modGal, if_neg hh]

/-- What a wake-up of the management cores keeps: the sources and ICU_CTRL. -/
def Gallery.sources (x : Gallery) : Tab (BitVec 32) × BitVec 32 := (x.icuSrc, x.icuCtrl)

theorem icuSrc_eq (x : Gallery) : x.icuSrc = x.sources.1 := rfl
theorem icuCtrl_eq (x : Gallery) : x.icuCtrl = x.sources.2 := rfl

theorem sources_wakeMc (x : Gallery) (n : Nat) : (x.wakeMc n).sources = x.sources := by
  obtain ⟨st, h⟩ := wakeMc_frame x n
  rw [h]
  rfl

theorem sources_foldl {f : Gallery → Nat → Gallery} (hf : ∀ x n, (f x n).sources = x.sources) (l : List Nat) (x : Gallery) :
    (l.foldl f x).sources = x.sources := by
  induction l generalizing x with
  | nil => rfl
  | cons n l ih => exact (ih _).trans (hf x n)

theorem sources_writeGdis (x : Gallery) (v : BitVec 32) : (x.writeGdis v).sources = (x.icuSrc, setBit 0 31 (bit v 31)) := by
  unfold Gallery.writeGdis
  refine (sources_foldl (fun y n => ?_) _ _).trans rfl
  split
  · exact sources_wakeMc _ _
  · rfl

theorem icuCtrl_writeGdis (x : Gallery) (v : BitVec 32) : bit (x.writeGdis v).icuCtrl 31 = bit v 31 := by
  have h : (x.writeGdis v).icuCtrl = setBit 0 31 (bit v 31) := (icuCtrl_eq _).trans (by rw [sources_writeGdis])
  rw [h, bit_setBit (by decide), if_pos rfl]

theorem icu_writeGdis (x : Gallery) (v : BitVec 32) (n : Nat) : (x.writeGdis v).icu n = x.icu n := by
  have h : (x.writeGdis v).icuSrc = x.icuSrc := (icuSrc_eq _).trans (by rw [sources_writeGdis])
  rw [Gallery.icu, h, Gallery.icu]

/-! ### The rows -/

theorem icuClaim_none {s : State} {g : Gal} {b : Fin 4} (h : ∀ n < 1024, (s.gal g.val).claimable b.val n = false) :
    execIcuClaim g b s = .next { s.setGal g.val (s.gal g.val) with access := { status := 0, data := leBytes 4 0 } } := by
  rw [execIcuClaim, claim_none (best_none h)]
  rfl

theorem icuClaim_some {s : State} {g : Gal} {b : Fin 4} {n : Nat} (hn : n < 1024) (h : (s.gal g.val).best b.val = some n) :
    execIcuClaim g b s = .next { s.setGal g.val ((s.gal g.val).claim b.val).1 with access := { status := 0, data := leBytes 4 (2 ^ 31 + n) } } := by
  have hval : ((s.gal g.val).claim b.val).2.toNat = 2 ^ 31 + n := by
    rw [(claim_some h).1, BitVec.toNat_ofNat, Nat.mod_eq_of_lt (by omega)]
  rw [execIcuClaim]
  dsimp only
  rw [hval]

/-- Settles O44: the search of a claim splits at the source that nothing precedes; the other rows change ICU_SRC_n of one source. -/
theorem interruptRows : Obligations.InterruptRows := by
  unfold Obligations.InterruptRows
  refine ⟨?_, ?_, ?_, ?_, ?_⟩
  · rintro s g b x rfl
    refine ⟨icuClaim_none, fun n hn hc hbest => ?_⟩
    have hb := best_some hn hc hbest
    obtain ⟨-, hicu⟩ := claim_some hb
    have hserv := bit_claimedSrc_inService ((s.gal g.val).icu n) n
    have hn' : ((s.gal g.val).claim b.val).1.icu n = claimedSrc ((s.gal g.val).icu n) n := (hicu n).trans (if_pos rfl)
    generalize hy : ((s.gal g.val).claim b.val).1 = y at hicu hn'
    have hrow := icuClaim_some hn hb
    rw [hy] at hrow
    have hgal : State.gal { s.setGal g.val y with access := { status := 0, data := leBytes 4 (2 ^ 31 + n) } } g.val = y :=
      (gal_setGal _ _ _ _).trans (if_pos rfl)
    refine ⟨_, hrow, rfl, ?_, ?_, fun m hm => ?_, fun c => ?_⟩
    · rw [hgal, hn', hserv]
    · rw [hgal, hn', bit_claimedSrc_pending (pending_of_claimable hc)]
    · rw [hgal, hicu, if_neg hm]
    · rw [hgal]
      exact claimable_of_inService (by rw [hn', hserv]) c.val
  · rintro s g b v n rfl
    refine ⟨fun h => congrArg Host.Outcome.next (icuComplete_other h), fun h => ?_⟩
    obtain ⟨hicu, hclaims⟩ := icuComplete_gal h
    refine ⟨_, rfl, icuComplete_frame _ _ _ _, ?_, fun hl => ?_, fun hl => ?_, hclaims⟩
    · rw [hicu, bit_completedSrc_inService]
    · rw [hicu, bit_completedSrc_level hl]
    · rw [hicu, bit_completedSrc_edge hl]
  · intro s g n h
    exact ⟨_, rfl, rfl, (gal_edge h).1, (gal_edge h).2, fun i hi => gal_edge_other hi⟩
  · intro s g v
    exact ⟨_, rfl, rfl, (gal_edge (hasSource_sgi _ _)).1, (gal_edge (hasSource_sgi _ _)).2⟩
  · intro s g v
    have hgal : (s.modGal g.val fun x => x.writeGdis v).gal g.val = (s.gal g.val).writeGdis v := (gal_modGal _ _ _ _).trans (if_pos rfl)
    refine ⟨_, rfl, modGal_frame _ _ _, ?_, fun n => ?_, fun hv b n => ?_⟩
    · rw [hgal, icuCtrl_writeGdis]
    · rw [hgal, icu_writeGdis]
    · rw [hgal]
      exact claimable_of_gdis ((icuCtrl_writeGdis _ _).trans hv) b n

end Sys2Proof.Machine
end

section
/-! SUPPORT. Commands of queues in their turn (R309, R313, R320). -/

namespace Sys2Proof.Machine

/-- A command whose turn has not come changes nothing (R309). -/
theorem run_waits {s : State} {c : Cmd} {op : Nat} (h : c.op ≠ op ∨ s.host.toDo.find? (fun d => d.src = c.src) ≠ some c ∨ s.fw.restarting = true)
    (f : State → State) : s.run c op f = s := by
  refine if_neg fun hs => ?_
  simp only [State.startable, Bool.and_eq_true, decide_eq_true_eq, Bool.not_eq_true'] at hs
  obtain ⟨⟨⟨hop, hfind⟩, hfw⟩, -⟩ := hs
  rcases h with h | h | h
  · exact h hop
  · exact h hfind
  · rw [hfw] at h
    cases h

theorem startable_of {s : State} {c : Cmd} {op : Nat} (hop : c.op = op) (hfind : s.host.toDo.find? (fun d => d.src = c.src) = some c)
    (hfw : s.fw.restarting = false) (happ : op = 1 → s.applying = false) : s.startable c op = true := by
  simpa [State.startable, hop, hfind, hfw] using imp_iff_not_or.mp happ

/-- A command whose turn has come is carried out, or answered with the status of the check that stops it (R313, R320). -/
theorem run_starts {s : State} {c : Cmd} {op : Nat} (h : s.startable c op = true) (f : State → State) :
    (s.ctxOk c = false → s.run c op f = (s.started c).completeSt c 0x06)
    ∧ (s.ctxOk c = true → s.unfenced c = false → s.run c op f = (s.started c).completeSt c 0x30)
    ∧ (s.ctxOk c = true → s.unfenced c = true → s.run c op f = f (s.started c)) := by
  have hrun : s.run c op f = match s.tooLate c with
    | some st => (s.started c).completeSt c st
    | none => f (s.started c) := if_pos h
  rw [hrun]
  refine ⟨fun hc => ?_, fun hc hu => ?_, fun hc hu => ?_⟩ <;> simp only [State.tooLate, *] <;> rfl

/-- A command in its turn that no check stops has its effect (R309). -/
theorem run_turn {s u : State} {c : Cmd} {op : Nat} (h : s.turn c op u) (f : State → State) : s.run c op f = f u := by
  obtain ⟨hop, hfind, hfw, happ, hctx, hunf, rfl⟩ := h
  exact (run_starts (startable_of hop hfind hfw happ) f).2.2 hctx hunf

/-- The rows that carry out a command in its turn. -/
def turnRows (c : Cmd) (page : HostRead) : List (Instr × Nat) :=
  [(Instr.ctxOpen c, 0x01), (.ctxClose c, 0x02), (.ctxAttach c, 0x03), (.ctxDetach c, 0x04), (.ctxSet c, 0x05), (.qpCreate c, 0x06), (.qpDelete c, 0x07),
    (.vfQuota c, 0x08), (.regionCreate c, 0x10), (.regionRemove c, 0x11), (.placeRegister c, 0x18), (.placeUnregister c, 0x19), (.resLoad c, 0x1A),
    (.resLoadHost c page, 0x1B), (.resRelease c, 0x1C), (.resHint c, 0x1D), (.resPin c, 0x1E), (.passLaunch c, 0x20), (.abort c, 0x21), (.fence c, 0x31),
    (.unfence c, 0x32), (.shadow c, 0x34), (.panelReset c, 0x36), (.query c, 0x40), (.fwUpdate c page, 0x48)]

/-- Each of those rows is its effect, carried out in the command's turn. -/
theorem turnRows_run {c : Cmd} {page : HostRead} {row : Instr} {op : Nat} (h : (row, op) ∈ turnRows c page) (s : State) :
    ∃ f, exec row s = .next (s.run c op f) := by
  simp only [turnRows, List.mem_cons, List.not_mem_nil, or_false, Prod.mk.injEq] at h
  rcases h with ⟨rfl, rfl⟩ | ⟨rfl, rfl⟩ | ⟨rfl, rfl⟩ | ⟨rfl, rfl⟩ | ⟨rfl, rfl⟩ | ⟨rfl, rfl⟩ | ⟨rfl, rfl⟩ | ⟨rfl, rfl⟩ | ⟨rfl, rfl⟩ | ⟨rfl, rfl⟩
    | ⟨rfl, rfl⟩ | ⟨rfl, rfl⟩ | ⟨rfl, rfl⟩ | ⟨rfl, rfl⟩ | ⟨rfl, rfl⟩ | ⟨rfl, rfl⟩ | ⟨rfl, rfl⟩ | ⟨rfl, rfl⟩ | ⟨rfl, rfl⟩ | ⟨rfl, rfl⟩
    | ⟨rfl, rfl⟩ | ⟨rfl, rfl⟩ | ⟨rfl, rfl⟩ | ⟨rfl, rfl⟩ | ⟨rfl, rfl⟩ <;> exact ⟨_, rfl⟩

/-- Settles O49: every row of the list is `State.run` of its command and opcode. -/
theorem commandTurns : Obligations.CommandTurns := by
  unfold Obligations.CommandTurns
  rintro s u c page row op rfl hrow
  obtain ⟨f, hf⟩ := turnRows_run (c := c) (page := page) hrow s
  rw [hf]
  refine ⟨fun h => congrArg _ (run_waits h f), fun hop hfind hfw happ => ?_⟩
  obtain ⟨hclosed, hfenced, -⟩ := run_starts (startable_of hop hfind hfw happ) f
  exact ⟨fun h => congrArg _ (hclosed h), fun h h' => congrArg _ (hfenced h h')⟩

end Sys2Proof.Machine
end

section
/-! SUPPORT. What records, events and completions leave alone: everything but the host side and the contexts (R307 to R324, R335). -/

namespace Sys2Proof.Machine

/-- The state without the host side and the contexts, which is where records and events go. -/
def State.offHost (s : State) : State := { s with host := State.reset.host, ctxs := [] }

/-- A fold of changes that each leave what `v` shows. -/
theorem view_foldl {α β : Type} (v : State → β) {f : State → α → State} (h : ∀ s a, v (f s a) = v s) (l : List α) (s : State) :
    v (l.foldl f s) = v s := by
  induction l generalizing s with
  | nil => rfl
  | cons a l ih => exact (ih _).trans (h s a)

@[simp] theorem offHost_setQp (s : State) (k : Nat) (q : Option Qp) : (s.setQp k q).offHost = s.offHost := rfl
@[simp] theorem offHost_setCtx (s : State) (n : Nat) (c : Option Ctx) : (s.setCtx n c).offHost = s.offHost := rfl
@[simp] theorem offHost_modFn (s : State) (f : Nat) (g : Fn → Fn) : (s.modFn f g).offHost = s.offHost := rfl
@[simp] theorem offHost_drop (s : State) (c : Cmd) : (s.drop c).offHost = s.offHost := rfl
@[simp] theorem offHost_host (s : State) (h : HostSide) : State.offHost { s with host := h } = s.offHost := rfl

@[simp] theorem offHost_modQp (s : State) (k : Nat) (g : Qp → Qp) : (s.modQp k g).offHost = s.offHost := by
  unfold State.modQp
  split <;> rfl

@[simp] theorem offHost_modCtx (s : State) (n : Nat) (g : Ctx → Ctx) : (s.modCtx n g).offHost = s.offHost := by
  unfold State.modCtx
  split <;> rfl

@[simp] theorem offHost_emit (s : State) (src : Src) (r : Rec) : (s.emit src r).offHost = s.offHost := by
  unfold State.emit
  split
  · exact offHost_modQp _ _ _
  · rfl

@[simp] theorem offHost_logFinal (s : State) (c : Cmd) (r : Rec) : (s.logFinal c r).offHost = s.offHost := by
  unfold State.logFinal
  split
  · rfl
  · exact view_foldl State.offHost (fun u w => by rw [offHost_emit, offHost_drop]) _ _

@[simp] theorem offHost_complete0 (s : State) (c : Cmd) (r : Rec) : (s.complete0 c r).offHost = s.offHost := by
  unfold State.complete0
  split
  · rw [offHost_logFinal, offHost_emit, offHost_drop]
  · rfl

@[simp] theorem offHost_finishDelete (s : State) (k : Nat) : (s.finishDelete k).offHost = s.offHost := by
  unfold State.finishDelete
  split
  · rfl
  · split
    · exact view_foldl State.offHost (fun _ _ => offHost_complete0 _ _ _) _ _
    · rfl

@[simp] theorem offHost_complete (s : State) (c : Cmd) (r : Rec) : (s.complete c r).offHost = s.offHost := by
  unfold State.complete
  dsimp only
  split
  · rw [offHost_finishDelete, offHost_complete0]
  · exact offHost_complete0 _ _ _

@[simp] theorem offHost_completeSt (s : State) (c : Cmd) (st : Nat) : (s.completeSt c st).offHost = s.offHost := offHost_complete _ _ _

@[simp] theorem offHost_completeAll (s : State) (cs : List Cmd) (st : Nat) : (s.completeAll cs st).offHost = s.offHost :=
  view_foldl State.offHost (fun _ _ => offHost_completeSt _ _ _) _ _

@[simp] theorem offHost_pumpCtx (s : State) (n : Nat) : (s.pumpCtx n).offHost = s.offHost := by
  unfold State.pumpCtx
  split
  · rfl
  · split
    · rfl
    · split <;> rfl

@[simp] theorem offHost_pumpFn (s : State) (f : Nat) : (s.pumpFn f).offHost = s.offHost := by
  unfold State.pumpFn
  split <;> rfl

@[simp] theorem offHost_ctxEvent (s : State) (n : Nat) (e : EventRec) : (s.ctxEvent n e).offHost = s.offHost := by
  rw [State.ctxEvent, offHost_pumpCtx, offHost_modCtx]

@[simp] theorem offHost_fnEvent (s : State) (f : Nat) (e : EventRec) : (s.fnEvent f e).offHost = s.offHost := by
  rw [State.fnEvent, offHost_pumpFn, offHost_modFn]

@[simp] theorem offHost_panelEvent (s : State) (e : EventRec) : (s.panelEvent e).offHost = s.offHost := by
  unfold State.panelEvent
  dsimp only
  split <;> exact offHost_fnEvent _ _ _

@[simp] theorem offHost_ctxEvents (s : State) (p : Nat → Bool) (e : EventRec) : (s.ctxEvents p e).offHost = s.offHost :=
  view_foldl State.offHost (fun _ _ => offHost_ctxEvent _ _ _) _ _

end Sys2Proof.Machine
end

section
/-! SUPPORT. Authorised operations and the debug level (R432 to R437). -/

namespace Sys2Proof.Machine

/-! ### The registers of an operation -/

theorem setState_state (x : Sec) {st : Nat} (h : st < 8) (err : Nat) : (x.setState st err).state = st := by
  unfold Sec.setState Sec.state
  dsimp only
  rw [fld_setFld_ne (by decide) (by decide) (by decide), fld_setFld (by decide) (by decide)]
  exact Nat.mod_eq_of_lt h

theorem setState_op (x : Sec) (st err : Nat) : fld (x.setState st err).authCtrl 7 0 = fld x.authCtrl 7 0 := by
  unfold Sec.setState
  dsimp only
  rw [fld_setFld_ne (by decide) (by decide) (by decide), fld_setFld_ne (by decide) (by decide) (by decide)]

theorem setOp_op (x : Sec) {op : Nat} (h : op < 256) : fld (x.setOp op).authCtrl 7 0 = op := by
  unfold Sec.setOp
  dsimp only
  rw [fld_setFld (by decide) (by decide)]
  exact Nat.mod_eq_of_lt h

/-! ### GO -/

/-- The rows that submit an operation, with its OP. -/
def authRowList : List (Instr × Nat) :=
  [(Instr.unlockFull, 1), (.provision, 2), (.claim, 3), (.keyAdd, 4), (.keyRevoke, 5), (.svnCommit, 6), (.retire, 7), (.listsClear, 8)]

theorem authRow_go {row : Instr} {op : Nat} (h : (row, op) ∈ authRowList) {s : State} (hs : s.sec.state ≠ 3) : exec row s = .next (s.authGo op) := by
  simp only [authRowList, List.mem_cons, List.not_mem_nil, or_false, Prod.mk.injEq] at h
  rcases h with ⟨rfl, rfl⟩ | ⟨rfl, rfl⟩ | ⟨rfl, rfl⟩ | ⟨rfl, rfl⟩ | ⟨rfl, rfl⟩ | ⟨rfl, rfl⟩ | ⟨rfl, rfl⟩ | ⟨rfl, rfl⟩
  case inl | inr.inr.inr.inr.inr.inr.inl => exact congrArg Host.Outcome.next (if_neg hs)
  all_goals rfl

/-- The state in which the checks of GO are made. -/
def State.asked (s : State) (op : Nat) : State := { s with sec := s.sec.setOp op }

section
variable {s : State} {op : Nat}

theorem authGo_ignored (h : s.sec.state ≠ 1) : s.authGo op = s := if_pos h

/-- The checks of GO, in their order (R432 to R434). -/
theorem authGo_ready (h : s.sec.state = 1) : s.authGo op =
    if (s.asked op).authBusy then (s.asked op).authFail 5
    else if !opAllowed op s.nv.lifecycle then (s.asked op).authFail 1
    else if s.sec.nonceAt + 600000000000 < s.tclk then (s.asked op).authFail 3
    else if !(s.asked op).authSigned op then (s.asked op).authFail 2
    else if (s.asked op).argBad op then (s.asked op).authFail 4
    else (s.asked op).authApply op := if_neg (not_not.mpr h)

variable (h : s.sec.state = 1)
include h

theorem authGo_busy (hb : s.authBusy = true) : s.authGo op = (s.asked op).authFail 5 := by
  rw [authGo_ready h, if_pos (show (s.asked op).authBusy = true from hb)]

variable (hb : s.authBusy = false)
include hb

theorem authGo_lifecycle (hl : opAllowed op s.nv.lifecycle = false) : s.authGo op = (s.asked op).authFail 1 := by
  rw [authGo_ready h, if_neg (by exact Bool.eq_false_iff.mp hb), if_pos (by simp [hl])]

variable (hl : opAllowed op s.nv.lifecycle = true)
include hl

theorem authGo_late (ht : s.sec.nonceAt + 600000000000 < s.tclk) : s.authGo op = (s.asked op).authFail 3 := by
  rw [authGo_ready h, if_neg (by exact Bool.eq_false_iff.mp hb), if_neg (by simp [hl]), if_pos ht]

variable (ht : s.tclk ≤ s.sec.nonceAt + 600000000000)
include ht

theorem authGo_unsigned (hs : (s.asked op).authSigned op = false) : s.authGo op = (s.asked op).authFail 2 := by
  rw [authGo_ready h, if_neg (by exact Bool.eq_false_iff.mp hb), if_neg (by simp [hl]), if_neg (Nat.not_lt.mpr ht), if_pos (by simp [hs])]

theorem authGo_signed (hs : (s.asked op).authSigned op = true) : s.authGo op =
    if (s.asked op).argBad op then (s.asked op).authFail 4 else (s.asked op).authApply op := by
  rw [authGo_ready h, if_neg (by exact Bool.eq_false_iff.mp hb), if_neg (by simp [hl]), if_neg (Nat.not_lt.mpr ht), if_neg (by simp [hs])]

end

/-! ### What a verified operation does -/

theorem emptySlot_some {s : State} {n : Nat} (hn : n < 4) (hu : bit s.nv.fleetUsed n = false) (hr : bit s.nv.fleetRevoked n = false)
    (hmin : ∀ m < n, bit s.nv.fleetUsed m = true ∨ bit s.nv.fleetRevoked m = true) : s.emptySlot = some n := by
  refine List.find?_range_eq_some.mpr ⟨by simp [hu, hr], List.mem_range.mpr hn, fun m hm => ?_⟩
  rcases hmin m hm with h | h <;> simp [h]

theorem authApply_keyAdd {s : State} {n : Nat} (h : s.emptySlot = some n) : s.authApply 4 = (s.putKey n).authDone := by
  rw [State.authApply, h]

theorem authApply_keyRevoke {s : State} (h : s.argBad 5 = false) : s.authApply 5 =
    State.authDone { s with nv := { s.nv with fleetRevoked := setBit s.nv.fleetRevoked s.sec.arg.toNat true } } := by
  have harg : ¬ 3 < s.sec.arg.toNat := fun h' => by simp [State.argBad, h'] at h
  rw [State.authApply, Nat.mod_eq_of_lt (by omega : s.sec.arg.toNat < 4)]

/-! ### Operations that close every context first (R434, R437) -/

theorem openCtxs_nil {s : State} (h : s.ctxs = []) : s.openCtxs = [] := congrArg (List.map Prod.fst) h

theorem openCtxs_isEmpty {s : State} : s.openCtxs.isEmpty = true ↔ s.ctxs = [] := by simp [State.openCtxs]

theorem authEnd_waits {s : State} {op : Nat} (h : s.ctxs ≠ [] ∨ fld s.sec.authCtrl 7 0 ≠ op) : s.authEnd op = s := by
  refine if_neg fun hc => ?_
  obtain ⟨-, hop, hopen⟩ := hc
  exact h.elim (fun h => h (openCtxs_isEmpty.mp hopen)) fun h => h hop

theorem authEnd_done {s : State} {op : Nat} (hs : s.sec.state = 3) (hop : fld s.sec.authCtrl 7 0 = op) (hc : s.ctxs = []) :
    s.authEnd op = if op = 1 then s.unlockEnd else (s.stepLife 3).authDone := if_pos ⟨hs, hop, openCtxs_isEmpty.mpr hc⟩

/-- The state in which such an operation starts to apply. -/
def State.applied (s : State) (op : Nat) : State := { s with sec := s.sec.setState 3 0, sched := { s.sched with held := s.sched.held || op = 1 } }

/-- With no context open nothing is left to close. -/
theorem authClose_noCtx {s : State} {op : Nat} (hc : s.ctxs = []) : s.authClose op = (s.applied op).authEnd op := by
  have hopen : (s.applied op).openCtxs = [] := openCtxs_nil hc
  have hstart : ((s.applied op).openCtxs.filter fun n => ((s.applied op).ctx n).any fun c => !c.closing).foldl State.startClose (s.applied op)
      = s.applied op := by
    rw [hopen]
    rfl
  have hclose : (s.applied op).closeStep = s.applied op := by
    rw [State.closeStep, hopen]
    rfl
  unfold State.authClose
  change State.authEnd (State.closeStep (((s.applied op).openCtxs.filter fun n => ((s.applied op).ctx n).any fun c => !c.closing).foldl
    State.startClose (s.applied op))) op = _
  rw [hstart, hclose]

theorem authClose_done {s : State} {op : Nat} (h : op < 256) (hc : s.ctxs = []) :
    (s.asked op).authClose op = if op = 1 then ((s.asked op).applied op).unlockEnd else (((s.asked op).applied op).stepLife 3).authDone := by
  refine (authClose_noCtx (s := s.asked op) hc).trans (authEnd_done (setState_state _ (by decide) 0) ?_ hc)
  exact (setState_op _ _ _).trans (setOp_op _ h)

/-! ### Unlock to FULL (R437) -/

/-- A fold that changes cores leaves a core that it names, or that is so already, as `P` says. -/
theorem foldl_modCore_core {P : Core → Prop} {f : Nat → Core → Core} {p : Nat} (hf : ∀ c, P (f p c)) (l : List Nat) (s : State)
    (h : p ∈ l ∨ P (s.core p)) : P ((l.foldl (fun t q => t.modCore q (f q)) s).core p) := by
  induction l generalizing s with
  | nil => exact h.resolve_left List.not_mem_nil
  | cons q l ih =>
    refine ih _ ?_
    rw [core_modCore]
    by_cases hq : p = q
    · subst hq
      rw [if_pos rfl]
      exact .inr (hf _)
    · rw [if_neg hq]
      exact h.imp_left fun h => (List.mem_cons.mp h).resolve_left hq

theorem get_of_not_mem {α : Type} {d : α} {t : Tab α} {i : Nat} (h : i ∉ t.map Prod.fst) : Tab.get d t i = d := by
  induction t with
  | nil => rfl
  | cons e t ih =>
    rw [List.map_cons, List.mem_cons, not_or] at h
    obtain ⟨k, v⟩ := e
    exact (if_neg fun hk => h.1 hk.symm).trans (ih h.2)

/-- Every core that is not as reset is as `P` says after `mapCores`, and so is one that is as reset when the reset values are. -/
theorem mapCores_core {P : Core → Prop} {s : State} {f : Nat → Core → Core} {p : Nat} (h0 : P Core.reset) (hf : ∀ c, P (f p c)) :
    P ((s.mapCores f).core p) := by
  refine foldl_modCore_core hf _ _ ?_
  by_cases hp : p ∈ s.cores.map Prod.fst
  · exact .inl hp
  · exact .inr (by rw [State.core, get_of_not_mem hp]; exact h0)

/-- What a change of cores and setts leaves: everything else. -/
def State.offUnits (s : State) : State := { s with cores := [], setts := [] }

theorem offUnits_mapCores (s : State) (f : Nat → Core → Core) : (s.mapCores f).offUnits = s.offUnits :=
  view_foldl State.offUnits (f := fun t p => t.modCore p (f p)) (fun _ _ => rfl) _ _

theorem offUnits_mapSetts (s : State) (f : Nat → Sett → Sett) : (s.mapSetts f).offUnits = s.offUnits :=
  view_foldl State.offUnits (f := fun t i => t.modSett i (f i)) (fun _ _ => rfl) _ _

theorem mapSetts_cores (s : State) (f : Nat → Sett → Sett) : (s.mapSetts f).cores = s.cores :=
  view_foldl State.cores (f := fun t i => t.modSett i (f i)) (fun _ _ => rfl) _ _

/-- The state of the panel once an unlock has wiped cores and edge switches. -/
def State.wipedUnits (s : State) : State :=
  State.mapSetts (s.mapCores fun p c => if (s.logicalOf p).isSome then c.wiped else c) fun _ x => { x with meshH0 := none, meshH1 := none }

theorem wipedUnits_offUnits (s : State) : s.wipedUnits.offUnits = s.offUnits := (offUnits_mapSetts _ _).trans (offUnits_mapCores _ _)

theorem wipedUnits_nv (s : State) : s.wipedUnits.nv = s.nv := by
  have h := congrArg State.nv (wipedUnits_offUnits s)
  exact h

/-- A core without residencies and with empty memories. -/
def Core.bare (c : Core) : Prop := c.sp.mem = [] ∧ c.istore = [] ∧ c.res0 = .reset ∧ c.res1 = .reset

theorem wipedUnits_core {s : State} {p : Nat} (h : (s.logicalOf p).isSome = true) : (s.wipedUnits.core p).bare := by
  have hc : s.wipedUnits.core p = (s.mapCores fun p c => if (s.logicalOf p).isSome then c.wiped else c).core p := by
    rw [State.core, State.wipedUnits, mapSetts_cores]
    rfl
  rw [hc]
  refine mapCores_core ⟨rfl, rfl, rfl, rfl⟩ fun c => ?_
  rw [if_pos h]
  exact ⟨rfl, rfl, rfl, rfl⟩

theorem unlockEnd_eq (s : State) : s.unlockEnd = State.authDone { s.wipedUnits with
    nv := { s.wipedUnits.nv with fullCount := s.wipedUnits.nv.fullCount + 1 }, sched := { s.wipedUnits.sched with held := false }
    sec := { s.wipedUnits.sec with fullSince := true, level := 2 } } := rfl

theorem unlockEnd_spec (s : State) : s.unlockEnd.nv = { s.nv with fullCount := s.nv.fullCount + 1 } ∧ s.unlockEnd.sec.state = 4
    ∧ s.unlockEnd.sec.level = 2 ∧ s.unlockEnd.sec.fullSince = true ∧ s.unlockEnd.sched.held = false
    ∧ ∀ p, (s.logicalOf p).isSome = true → (s.unlockEnd.core p).bare := by
  rw [unlockEnd_eq]
  refine ⟨?_, setState_state _ (by decide) 0, rfl, rfl, rfl, fun p hp => wipedUnits_core hp⟩
  exact congrArg (fun v : NonVol => { v with fullCount := v.fullCount + 1 }) (wipedUnits_nv s)

/-! ### NEW and the debug level -/

theorem authNew_eq {s : State} (h : s.sec.state ≠ 3) : s.authNew = { s with
    free := s.free + 1, sec := { s.sec with authCtrl := setFld (setFld s.sec.authCtrl 29 27 1) 23 20 0, nonce := Config.fresh s.free, nonceAt := s.tclk } } := by
  unfold State.authNew
  rw [if_neg h]
  unfold Sec.setState State.fresh
  rfl

theorem dbgWrite_ignored {x : Sec} {v : BitVec 32} (h : x.level = 2 ∨ 2 ≤ fld v 1 0) : x.dbgWrite v = x := if_pos (by simpa using h)

theorem dbgWrite_level {x : Sec} {v : BitVec 32} (h : x.level ≠ 2) (hv : fld v 1 0 < 2) :
    x.dbgWrite v = { x with level := BitVec.ofNat 2 (fld v 1 0) } := if_neg (by simpa using ⟨h, Nat.le_of_lt_succ hv⟩)

/-- Settles O48: GO makes its checks in their order, and each operation is one update of the security state. -/
theorem authRows : Obligations.AuthRows := by
  unfold Obligations.AuthRows
  refine ⟨fun s => ⟨fun h => congrArg Host.Outcome.next (authNew_eq h), fun h => congrArg Host.Outcome.next (if_pos h), fun v => ⟨fun h => ?_, fun h hv => ?_⟩⟩,
    ?_, fun s hs => ?_⟩
  · exact congrArg (fun x => Host.Outcome.next { s with sec := x }) (dbgWrite_ignored h)
  · exact congrArg (fun x => Host.Outcome.next { s with sec := x }) (dbgWrite_level h hv)
  · intro s u row op hrow hu
    have hgo : s.sec.state ≠ 3 → exec row s = .next (s.authGo op) := authRow_go hrow
    have hu : u = s.asked op := hu
    subst hu
    refine ⟨fun h1 h3 => (hgo h3).trans (congrArg _ (authGo_ignored h1)), fun h => ?_⟩
    rw [hgo (by rw [h]; decide)]
    refine ⟨fun hb => congrArg _ (authGo_busy h hb), fun hb hl => congrArg _ (authGo_lifecycle h hb hl), fun hb hl =>
      ⟨fun ht => congrArg _ (authGo_late h hb hl ht), fun ht => ⟨fun hs => congrArg _ (authGo_unsigned h hb hl ht hs), fun hs hbad => ?_, fun hs hbad => ?_⟩⟩⟩
    · exact congrArg _ ((authGo_signed h hb hl ht hs).trans (if_pos hbad))
    · have happly : s.authGo op = (s.asked op).authApply op := (authGo_signed h hb hl ht hs).trans (if_neg (Bool.eq_false_iff.mp hbad))
      rw [happly]
      refine ⟨?_, ?_, ?_, ?_, ?_, ?_, ?_, ?_⟩
      · rintro rfl
        rfl
      · rintro rfl
        rfl
      · rintro n rfl hn hused hrev hmin
        exact congrArg _ (authApply_keyAdd (s := s.asked 4) (emptySlot_some hn hused hrev hmin))
      · rintro rfl
        exact congrArg _ (authApply_keyRevoke hbad)
      · rintro rfl
        rfl
      · rintro rfl
        rfl
      · rintro rfl hc
        have hdone : (s.asked 7).authApply 7 = (((s.asked 7).applied 7).stepLife 3).authDone := (authClose_done (by decide) hc).trans (if_neg (by decide))
        exact ⟨_, congrArg _ hdone, rfl, setState_state _ (by decide) 0⟩
      · rintro rfl hc
        have hdone : (s.asked 1).authApply 1 = ((s.asked 1).applied 1).unlockEnd := (authClose_done (by decide) hc).trans (if_pos rfl)
        exact ⟨_, congrArg _ hdone, unlockEnd_spec _⟩
  · have hunlock : exec .unlockFull s = .next (s.authEnd 1) := congrArg Host.Outcome.next (if_pos hs)
    have hretire : exec .retire s = .next (s.authEnd 7) := congrArg Host.Outcome.next (if_pos hs)
    rw [hunlock, hretire]
    refine ⟨fun h => congrArg _ (authEnd_waits h), fun h => congrArg _ (authEnd_waits h), fun hc hop => ?_, fun hc hop => ?_⟩
    · exact congrArg _ ((authEnd_done hs hop hc).trans (if_neg (by decide)))
    · obtain ⟨hnv, hstate, hlevel, -⟩ := unlockEnd_spec s
      exact ⟨_, congrArg _ ((authEnd_done hs hop hc).trans (if_pos rfl)), hlevel, hstate, congrArg NonVol.fullCount hnv⟩

end Sys2Proof.Machine
end

section
/-! SUPPORT. The MCTP endpoint and its SPDM responder (R317, R443, R445). -/

namespace Sys2Proof.Machine

/-! ### Answers -/

section
variable {s : State} {first : Bool} {f : State → SpdmAns × State}

theorem spdmAnswer_busy (h : s.fw.restarting = true ∨ s.applying = true) : s.spdmAnswer first f = s.mctpSend (.spdm .busy) :=
  if_pos (Bool.or_eq_true_iff.mpr h)

variable (hfw : s.fw.restarting = false) (happ : s.applying = false)
include hfw happ

theorem spdmAnswer_idle : s.spdmAnswer first f =
    if s.spdmLimited && !first then s.mctpSend (.spdm .unsupported) else (f s).2.mctpSend (.spdm (f s).1) := if_neg (by simp [hfw, happ])

theorem spdmAnswer_first : s.spdmAnswer true f = (f s).2.mctpSend (.spdm (f s).1) := by
  rw [spdmAnswer_idle hfw happ, if_neg (by simp)]

theorem spdmAnswer_limited (h : s.nv.lifecycle = 0 ∨ s.nv.lifecycle = 3) : s.spdmAnswer false f = s.mctpSend (.spdm .unsupported) := by
  rw [spdmAnswer_idle hfw happ, if_pos (by simpa [State.spdmLimited] using h)]

theorem spdmAnswer_open (h0 : s.nv.lifecycle ≠ 0) (h3 : s.nv.lifecycle ≠ 3) : s.spdmAnswer false f = (f s).2.mctpSend (.spdm (f s).1) := by
  rw [spdmAnswer_idle hfw happ, if_neg (by simpa [State.spdmLimited] using ⟨h0, h3⟩)]

end

/-! ### Requests while the endpoint is down or up -/

/-- A row that is the endpoint's `t` while the endpoint is up. -/
theorem endpoint_down {s t : State} (h : s.mctpUp = false) : Host.Outcome.next (φ := Fault) (ρ := Refusal) (if s.mctpUp then t else s) = .next s :=
  congrArg _ (if_neg (Bool.eq_false_iff.mp h))

theorem endpoint_up {s t u : State} (h : s.mctpUp = true) (ht : t = u) :
    Host.Outcome.next (φ := Fault) (ρ := Refusal) (if s.mctpUp then t else s) = .next u := congrArg _ ((if_pos h).trans ht)

/-! ### Messages -/

theorem mctpMessage_up {s : State} (h : s.mctpUp = true) (type : BitVec 8) (body : List Byte) : execMctpMessage type body s = .next
    (if type = 0 then (s.edge 0 261).mctpControl body else if type = 5 then (s.edge 0 261).mctpSpdm body
      else if type = 0x7E then (s.edge 0 261).mctpVendor body else s.edge 0 261) := congrArg _ (if_neg (by simp [h]))

theorem mctpControl_setEid (t : State) {e a : Byte} (h0 : e ≠ 0) (h1 : e ≠ 0xFF) : t.mctpControl [0x80, 1, a, e] =
    { t with host := { t.host with eid := some e, mctp := t.host.mctp ++ [MctpOut.control [0, 1, 0, 0, e, 0]] } } := by
  have he : ¬ (decide (e = 0) || decide (e = 0xFF)) = true := by simpa using ⟨h0, h1⟩
  unfold State.mctpControl
  dsimp only [List.headD_cons, List.drop_succ_cons, List.drop_zero]
  rw [if_neg (by decide)]
  exact (if_pos rfl).trans ((if_neg (show ¬ 4 < 4 by decide)).trans ((if_neg he).trans rfl))

theorem mctpVendor_desc {t : State} {body : List Byte} (h : body.length = 64) :
    t.mctpVendor body = t.acceptCmd { src := .mctp, desc := descOf body none } := if_pos h

theorem mctpVendor_ext {t : State} {body : List Byte} (h : body.length = 128) :
    t.mctpVendor body = t.acceptCmd { src := .mctp, desc := descOf (body.take 64) (some (body.drop 64)) } :=
  (if_neg (by omega)).trans (if_pos h)

theorem mctpVendor_none {t : State} {body : List Byte} (h : body.length ≠ 64) (h' : body.length ≠ 128) : t.mctpVendor body = t :=
  (if_neg h).trans (if_neg h')

/-- Settles O47: every request goes through `spdmAnswer`, and a message through the function of its type. -/
theorem spdmRows : Obligations.SpdmRows := by
  unfold Obligations.SpdmRows
  refine ⟨fun s h => ?_, ?_, ?_⟩
  · refine ⟨endpoint_down h, endpoint_down h, endpoint_down h, endpoint_down h, fun _ _ => endpoint_down h, fun _ => endpoint_down h,
      fun _ _ => endpoint_down h, fun _ _ => ?_⟩
    exact congrArg _ (if_pos (by simp [h]))
  · rintro s say rfl hup
    refine ⟨fun h => ?_, fun hfw happ => ⟨?_, ?_, ?_, fun h => ?_, ?_⟩⟩
    · exact ⟨endpoint_up hup (spdmAnswer_busy h), endpoint_up hup (spdmAnswer_busy h), fun _ _ => endpoint_up hup (spdmAnswer_busy h)⟩
    · exact endpoint_up hup (spdmAnswer_first hfw happ)
    · exact endpoint_up hup (spdmAnswer_first hfw happ)
    · exact endpoint_up hup (spdmAnswer_first hfw happ)
    · exact ⟨endpoint_up hup (spdmAnswer_limited hfw happ h), fun _ _ => endpoint_up hup (spdmAnswer_limited hfw happ h),
        fun _ => endpoint_up hup (spdmAnswer_limited hfw happ h), fun _ _ => endpoint_up hup (spdmAnswer_limited hfw happ h)⟩
    · rintro d h0 h3 rfl
      refine ⟨endpoint_up hup (spdmAnswer_open hfw happ h0 h3), fun _ _ => endpoint_up hup (spdmAnswer_open hfw happ h0 h3), ?_, ?_⟩
      · rintro n m rfl
        exact endpoint_up hup (spdmAnswer_open hfw happ h0 h3)
      · rintro i n m bl rfl rfl
        exact endpoint_up hup (spdmAnswer_open hfw happ h0 h3)
  · rintro s t body hup rfl
    refine ⟨fun ty h0 h5 hv => ?_, ?_, fun h => ?_, fun h => ?_, fun h h' => ?_, fun ht a rest => ?_⟩
    · exact (mctpMessage_up hup _ _).trans (congrArg _ ((if_neg h0).trans ((if_neg h5).trans (if_neg hv))))
    · rintro e a rfl h0 h1
      exact (mctpMessage_up hup _ _).trans (congrArg _ ((if_pos rfl).trans (mctpControl_setEid _ h0 h1)))
    · exact (mctpMessage_up hup _ _).trans (congrArg _ (mctpVendor_desc h))
    · exact (mctpMessage_up hup _ _).trans (congrArg _ (mctpVendor_ext h))
    · exact (mctpMessage_up hup _ _).trans (congrArg _ (mctpVendor_none h h'))
    · exact ⟨(mctpMessage_up hup _ _).trans (endpoint_up ht rfl).symm, (mctpMessage_up hup _ _).trans (endpoint_up ht rfl).symm,
        (mctpMessage_up hup _ _).trans (endpoint_up ht rfl).symm, (mctpMessage_up hup _ _).trans (endpoint_up ht rfl).symm⟩

end Sys2Proof.Machine
end

section
/-! SUPPORT. What happens at a stack by itself (R269, R270, R275, R278, R281 to R288). -/

namespace Sys2Proof.Machine

/-- States that show the same off the host side and the contexts differ in these alone. -/
theorem offHost_frame {t u : State} (h : t.offHost = u.offHost) : ∃ x c, t = { u with host := x, ctxs := c } := by
  refine ⟨t.host, t.ctxs, ?_⟩
  exact congrArg (fun v : State => { v with host := t.host, ctxs := t.ctxs }) h

theorem ready_state {x : Sump} (h : x.ready = true) : x.state = 2 := by simpa [Sump.ready] using h

theorem ready_not_failed {x : Sump} (h : x.ready = true) : x.state ≠ 3 := by rw [ready_state h]; decide

theorem putSump_alive {s : State} {k : Nat} {x : Sump} (h : x.state ≠ 3) : s.putSump k x = s.setSump k x := if_neg h

section
variable {s : State} {k : Stack}

/-! ### Training, readout, refresh -/

theorem hbmTraining_idle {r : Option (BitVec 2)} {lanes : BitVec 8} (h : fld s.boot.status 63 60 ≠ 3 ∨ (s.sump k.val).state ≠ 1) :
    execHbmTraining k r lanes s = .next s := congrArg _ (if_pos h)

theorem hbmTraining_rate {r : BitVec 2} {lanes : BitVec 8} (hp : fld s.boot.status 63 60 = 3) (hx : (s.sump k.val).state = 1) (hr : r ≠ 3) :
    execHbmTraining k (some r) lanes s = .next (s.setSump k.val { s.sump k.val with
      status := setFld (setFld (setFld (s.sump k.val).status 31 28 2) 27 26 r.toNat) 23 16 lanes.toNat }) := by
  unfold execHbmTraining
  rw [if_neg (by simp [hp, hx])]
  dsimp only
  rw [if_neg hr]
  rfl

theorem hbmTraining_failed {lanes : BitVec 8} (hp : fld s.boot.status 63 60 = 3) (hx : (s.sump k.val).state = 1) :
    execHbmTraining k none lanes s = .next (s.setSump k.val { s.sump k.val with status := setFld (s.sump k.val).status 31 28 3, told := true }) := by
  unfold execHbmTraining
  rw [if_neg (by simp [hp, hx])]
  rfl

theorem stackReadout_ready {v : BitVec 8} (h : (s.sump k.val).ready = true) : execStackReadout k (some v) s = .next (s.setSump k.val { s.sump k.val with
    ref := setBit (s.sump k.val).ref 8 (85 < v.toNat)
    status := if fld s.boot.status 63 60 = 6 then setFld (s.sump k.val).status 15 8 v.toNat else (s.sump k.val).status }) := congrArg _ (if_pos h)

theorem stackReadout_idle {v : Option (BitVec 8)} (h : v = none ∨ (s.sump k.val).ready = false) : execStackReadout k v s = .next s := by
  cases v with
  | none => rfl
  | some v => exact congrArg _ (if_neg (Bool.eq_false_iff.mp (h.resolve_left (nomatch ·))))

theorem refresh_counts {rfm : Bool} {bank : Nat} (hr : (s.sump k.val).ready = true) (hp : (s.sump k.val).paused (bank % 32 / 8) = false) :
    execRefresh k rfm bank s = .next (s.setSump k.val { s.sump k.val with refreshed := (s.sump k.val).refreshed + 1 }) :=
  congrArg _ (if_pos (by simp [hr, hp]))

theorem refresh_idle {rfm : Bool} {bank : Nat} (h : (s.sump k.val).ready = false ∨ (s.sump k.val).paused (bank % 32 / 8) = true) :
    execRefresh k rfm bank s = .next s := congrArg _ (if_neg (by rcases h with h | h <;> simp [h]))

/-! ### Patrol and repair -/

/-- The stack after the bit errors that a patrol step meets. -/
def Sump.struck (x : Sump) (ups : List Upset) : Sump :=
  { x with errs := (ups.filter fun (u : Upset) => decide (u.word < 2 ^ 33)).foldl strike x.errs }

theorem patrol_retired {x : Sump} {ups : List Upset} (h : (x.struck ups).retiredAt (x.scrubPos * 128) 128 = true) :
    x.patrol ups = { x.struck ups with scrubPos := (x.scrubPos + 1) % 2 ^ 29 } :=
  congrArg (fun z : Sump => { z with scrubPos := (x.scrubPos + 1) % 2 ^ 29 }) (if_pos h)

theorem patrol_checks {x : Sump} {ups : List Upset} (h : (x.struck ups).retiredAt (x.scrubPos * 128) 128 = false) :
    x.patrol ups = { ((x.struck ups).check (x.scrubPos * 128) 128).1 with scrubPos := (x.scrubPos + 1) % 2 ^ 29 } :=
  congrArg (fun z : Sump => { z with scrubPos := (x.scrubPos + 1) % 2 ^ 29 }) (if_neg (Bool.eq_false_iff.mp h))

theorem patrolScrub_reads {ups : List Upset} {dt : Nat} {y : Sump} (hr : (s.sump k.val).ready = true) (hon : bit (s.sump k.val).scrub 31 = true)
    (hy : (s.sump k.val).patrol ups = y) (hs : y.state ≠ 3) : execPatrolScrub k ups dt s = .next ((s.pass dt).setSump k.val y) := by
  have hgo : ((s.sump k.val).ready && bit (s.sump k.val).scrub 31) = true := by rw [hr, hon]; rfl
  subst hy
  exact congrArg _ ((if_pos hgo).trans (putSump_alive hs))

theorem patrolScrub_idle {ups : List Upset} {dt : Nat} (h : (s.sump k.val).ready = false ∨ bit (s.sump k.val).scrub 31 = false) :
    execPatrolScrub k ups dt s = .next (s.pass dt) := by
  have hgo : ¬ ((s.sump k.val).ready && bit (s.sump k.val).scrub 31) = true := by rcases h with h | h <;> simp [h]
  exact congrArg _ (if_neg hgo)

theorem hbmRowRepair_goes {u : BitVec 21} {res : Bool} (hr : (s.sump k.val).ready = true) (hu : (s.sump k.val).spall.contains u.toNat = true)
    (hs : ((s.sump k.val).repairRow u.toNat res).state ≠ 3) : execHbmRowRepair k u res s = .next
      (if res then { s.setSump k.val ((s.sump k.val).repairRow u.toNat res) with nv := { s.nv with hbmSpall := addOnce s.nv.hbmSpall (k.val, u.toNat) } }
      else { s.setSump k.val ((s.sump k.val).repairRow u.toNat res) with
        nv := { s.nv with hbmSpall := s.nv.hbmSpall.erase (k.val, u.toNat), hbmRetired := addOnce s.nv.hbmRetired (k.val, u.toNat) } }) := by
  have hgo : ((s.sump k.val).ready && (s.sump k.val).spall.contains u.toNat) = true := by rw [hr, hu]; rfl
  unfold execHbmRowRepair
  rw [if_pos hgo, putSump_alive hs]
  rfl

theorem hbmRowRepair_idle {u : BitVec 21} {res : Bool} (h : (s.sump k.val).ready = false ∨ (s.sump k.val).spall.contains u.toNat = false) :
    execHbmRowRepair k u res s = .next s := by
  have hgo : ¬ ((s.sump k.val).ready && (s.sump k.val).spall.contains u.toNat) = true := by
    rcases h with h | h <;> rw [h]
    · exact Bool.false_ne_true
    · rw [Bool.and_false]; exact Bool.false_ne_true
  exact congrArg _ (if_neg hgo)

end

/-! ### Failure and zero-fill -/

theorem stackDies_told {s : State} {k : Nat} (h : (s.sump k).told = true) : s.stackDies k = s := if_pos h

theorem stackDies_offHost {s : State} {k : Nat} (h : (s.sump k).told = false) : (s.stackDies k).offHost =
    (s.setSump k { s.sump k with status := setFld (setFld (s.sump k).status 31 28 3) 15 8 0, told := true }).offHost := by
  unfold State.stackDies
  rw [if_neg (Bool.eq_false_iff.mp h)]
  exact offHost_ctxEvents _ _ _

theorem finishCreates_none {s : State} (h : s.host.inProg = []) : s.finishCreates = s := by
  unfold State.finishCreates
  rw [h]
  rfl

/-- The stack once the oldest fill of a new region is done. -/
def Sump.filled (x : Sump) (f : RegionFill) (rest : List RegionFill) : Sump :=
  let y := x.zeroFill (fld f.entry 23 0 * 4096) ((fld f.entry 47 24 + 1 - fld f.entry 23 0) * 4096)
  { y with fills := rest, regions := Tab.set 0 y.regions f.index f.entry }

theorem regionZeroFillDone_none {s : State} {k : Stack} (h : (s.sump k.val).fills = []) : execRegionZeroFillDone k s = .next s := by
  unfold execRegionZeroFillDone
  rw [h]

theorem regionZeroFillDone_next {s : State} {k : Stack} {f : RegionFill} {rest : List RegionFill} (h : (s.sump k.val).fills = f :: rest)
    (hp : s.host.inProg = []) : execRegionZeroFillDone k s = .next (s.setSump k.val ((s.sump k.val).filled f rest)) := by
  unfold execRegionZeroFillDone
  rw [h]
  exact congrArg _ (finishCreates_none (s := s.setSump k.val ((s.sump k.val).filled f rest)) hp)

/-- Settles O41: each row changes one stack; the patrol, the repair and the zero-fill by the operations of the stack itself. -/
theorem stackRows : Obligations.StackRows := by
  unfold Obligations.StackRows
  rintro s k x rfl
  refine ⟨fun r lanes hp hx hr => hbmTraining_rate (lanes := lanes) hp hx hr, fun lanes hp hx => hbmTraining_failed (lanes := lanes) hp hx, fun r lanes h => hbmTraining_idle (r := r) (lanes := lanes) h,
    fun v h => stackReadout_ready h, fun v h => stackReadout_idle h, fun rfm bank hr hp => refresh_counts (rfm := rfm) hr hp, fun rfm bank h => refresh_idle (rfm := rfm) h,
    ?_, fun ups dt h => patrolScrub_idle (ups := ups) (dt := dt) h, fun u hr hu => ⟨?_, ?_⟩, fun u res h => hbmRowRepair_idle (res := res) h, fun h => congrArg _ (stackDies_told h), fun h => ?_,
    regionZeroFillDone_none, fun f rest h hp => ?_⟩
  · intro ups dt y hr hon hy
    have hy : y = (s.sump k.val).struck ups := hy
    subst hy
    refine ⟨fun h => ?_, ?_⟩
    · exact patrolScrub_reads hr hon (patrol_retired h) (ready_not_failed (x := s.sump k.val) hr)
    · rintro z h rfl hs
      exact patrolScrub_reads hr hon (patrol_checks h) hs
  · exact (hbmRowRepair_goes (res := true) hr hu (ready_not_failed (x := s.sump k.val) hr)).trans (congrArg _ (if_pos rfl))
  · rintro z rfl hs
    exact (hbmRowRepair_goes (res := false) hr hu hs).trans (congrArg _ (if_neg Bool.false_ne_true))
  · obtain ⟨x, c, hx⟩ := offHost_frame (stackDies_offHost h)
    refine ⟨_, rfl, ?_⟩
    rw [hx]
    exact ⟨rfl, rfl, rfl, rfl, rfl⟩
  · have hsump : (s.setSump k.val ((s.sump k.val).filled f rest)).sump k.val = (s.sump k.val).filled f rest := (sump_setSump _ _ _ _).trans (if_pos rfl)
    refine ⟨_, regionZeroFillDone_next h hp, rfl, fun j hj => (sump_setSump _ _ _ _).trans (if_neg hj), ?_, ?_, fun a => ?_⟩
    · rw [hsump]
      rfl
    · rw [hsump]
      rfl
    · rw [hsump]
      exact memory_get_zero _ _ _ a

end Sys2Proof.Machine
end

section
/-! SUPPORT. What aborts, dead sites and e-fuse trips leave alone (R42 to R44, R347, R365, R366). -/

namespace Sys2Proof.Machine

/-! ### Aborts and dead sites -/

/-- The state without the ledger and the galleries, which is where an abort goes. -/
def State.offLedger (s : State) : State := { s with ledger := State.reset.ledger, gals := [] }

theorem offLedger_frame {t u : State} (h : t.offLedger = u.offLedger) : ∃ led gals, t = { u with ledger := led, gals := gals } :=
  ⟨t.ledger, t.gals, congrArg (fun v : State => { v with ledger := t.ledger, gals := t.gals }) h⟩

theorem offLedger_checkQuiesced (s : State) : s.checkQuiesced.offLedger = s.offLedger := by
  obtain ⟨st, h⟩ := checkQuiesced_frame s
  rw [h]
  rfl

theorem offLedger_loseCore (s : State) (p : Nat) : (s.loseCore p).offLedger = s.offLedger := by
  obtain ⟨l, f, w, h, -⟩ := loseCore_frame s p
  rw [h]
  rfl

/-- An abort event reaches the ledger, and G0's interrupt controller. -/
theorem offLedger_recordAbort (s : State) (reason : Nat) (lost : List Nat) : (s.recordAbort reason lost).offLedger = s.offLedger := by
  have hlose : ∀ t : State, (lost.foldl State.loseCore t).checkQuiesced.offLedger = t.offLedger := fun t =>
    (offLedger_checkQuiesced _).trans (view_foldl State.offLedger offLedger_loseCore lost t)
  unfold State.recordAbort
  dsimp only
  split
  · rfl
  case h_2 | h_3 => exact (hlose _).trans rfl
  · exact (hlose _).trans rfl
  · rfl

theorem recordAbort_frame (s : State) (reason : Nat) (lost : List Nat) :
    ∃ led gals, s.recordAbort reason lost = { s with ledger := led, gals := gals } := offLedger_frame (offLedger_recordAbort s reason lost)

/-- An abort that is raised only when a pass is under way changes no more. -/
theorem recordAbort_if_frame (b : Prop) [Decidable b] (s : State) (reason : Nat) (lost : List Nat) :
    ∃ led gals, (if b then s else s.recordAbort reason lost) = { s with ledger := led, gals := gals } := by
  split
  · exact ⟨s.ledger, s.gals, rfl⟩
  · exact recordAbort_frame s reason lost

/-- Of the state a fold over cores changes the cores. -/
theorem foldl_modCore_frame (f : Core → Core) (ps : List Nat) (s : State) :
    ∃ cores, ps.foldl (fun t p => t.modCore p f) s = { s with cores := cores } := by
  induction ps generalizing s with
  | nil => exact ⟨s.cores, rfl⟩
  | cons p ps ih =>
    obtain ⟨cores, h⟩ := ih (s.modCore p f)
    exact ⟨cores, h⟩

/-- A dead site: its cores are fenced, and the map loses it at the next change (R347, R374). -/
theorem siteDies_spec (s : State) (i : Nat) : (s.siteDies i).setts = s.setts ∧ (s.siteDies i).nv = s.nv
    ∧ MapItem.deadSite i ∈ (s.siteDies i).map.waiting ∧ ∀ p ∈ s.coresOfSite i, ((s.siteDies i).core p).fenced = true := by
  have hcore := fun p => fenceCores_core (s.coresOfSite i) s p
  obtain ⟨cores, hfold⟩ := foldl_modCore_frame (fun c => { c with fenced := true }) (s.coresOfSite i) s
  unfold State.siteDies
  dsimp only
  rw [hfold] at hcore ⊢
  obtain ⟨led, gals, h⟩ := recordAbort_if_frame (s.ledger.state = .idle) { s with
    cores := cores, map := { s.map with waiting := addOnce s.map.waiting (MapItem.deadSite i) } } abSett (s.coresOfSite i)
  rw [h]
  refine ⟨rfl, rfl, mem_addOnce.mpr (Or.inl rfl), fun p hp => ?_⟩
  have := hcore p
  rw [if_pos hp] at this
  exact congrArg Core.fenced this

/-! ### Meadows -/

/-- What an e-fuse trip is told by: the meadows, GAL_ALERT, the map, the thermal state, the pins and the cores. -/
structure Grid where
  meadow  : Tab (BitVec 64)
  alert   : BitVec 32
  map     : StructMap
  thermal : Thermal
  pins    : Pins
  cores   : Tab Core

/-- That part of a state. -/
def State.grid (s : State) : Grid :=
  { meadow := s.power.meadow, alert := s.alert, map := s.map, thermal := s.thermal, pins := s.pins, cores := s.cores }

theorem grid_of_offHost {t u : State} (h : t.offHost = u.offHost) : t.grid = u.grid := by
  obtain ⟨x, c, hx⟩ := offHost_frame h
  rw [hx]
  rfl

theorem grid_modRouter (s : State) (n : Node) (f : Router → Router) : (s.modRouter n f).grid = s.grid := by
  cases n <;> rfl

theorem grid_foldAround (s : State) (m : Nat) : (s.foldAround m).grid = s.grid := by
  unfold State.foldAround
  refine view_foldl State.grid (fun t n => view_foldl State.grid (fun t p => ?_) _ t) _ s
  split
  · split
    · exact grid_modRouter _ _ _
    · rfl
  · rfl

theorem grid_recordAbort_if (b : Prop) [Decidable b] (s : State) (reason : Nat) (lost : List Nat) :
    (if b then s else s.recordAbort reason lost).grid = s.grid := by
  obtain ⟨led, gals, h⟩ := recordAbort_if_frame b s reason lost
  rw [h]
  rfl

theorem grid_finishMeadowJobs (s : State) : s.finishMeadowJobs.grid = s.grid := by
  unfold State.finishMeadowJobs
  exact (view_foldl State.grid (fun t j => grid_of_offHost (offHost_complete _ _ _)) _ _).trans rfl

theorem grid_meadowOff (s : State) (m : Nat) :
    (s.meadowOff m).grid = { s.grid with cores := s.cores.filter fun e => meadowOf (siteOf e.1) ≠ m } := by
  have h : ((sitesOf m).foldl (fun t i => t.modSett i fun x => x.unpowered s.nv.part) s).grid = s.grid :=
    view_foldl State.grid (f := fun t i => t.modSett i fun x => x.unpowered s.nv.part) (fun _ _ => rfl) _ _
  unfold State.meadowOff
  exact congrArg (fun g : Grid => { g with cores := s.cores.filter fun e => meadowOf (siteOf e.1) ≠ m }) h

/-- PWR_MEADOW_m after its e-fuses have opened (R365). -/
def trippedReg (locked : Bool) (cause : Nat) (x : BitVec 64) : BitVec 64 :=
  setFld (satFld (setFld (setFld x 63 60 (if locked then 6 else 5)) 47 32 0) 15 8 1) 3 0 cause

theorem fld_trippedReg_state (locked : Bool) (cause : Nat) (x : BitVec 64) : fld (trippedReg locked cause x) 63 60 = if locked then 6 else 5 := by
  unfold trippedReg satFld
  rw [fld_setFld_ne (by decide) (by decide) (by decide), fld_setFld_ne (by decide) (by decide) (by decide),
    fld_setFld_ne (by decide) (by decide) (by decide), fld_setFld (by decide) (by decide)]
  cases locked <;> rfl

theorem fld_trippedReg_cause (locked : Bool) {cause : Nat} (h : cause < 16) (x : BitVec 64) : fld (trippedReg locked cause x) 3 0 = cause := by
  unfold trippedReg
  rw [fld_setFld (by decide) (by decide)]
  exact Nat.mod_eq_of_lt h

theorem fld_trippedReg_count (locked : Bool) (cause : Nat) (x : BitVec 64) :
    fld (trippedReg locked cause x) 15 8 = min 255 (fld x 15 8 + 1) := by
  unfold trippedReg satFld
  rw [fld_setFld_ne (by decide) (by decide) (by decide), fld_setFld (by decide) (by decide),
    fld_setFld_ne (by decide) (by decide) (by decide), fld_setFld_ne (by decide) (by decide) (by decide)]
  exact Nat.mod_eq_of_lt (by omega)

theorem fld_trippedReg_grant (locked : Bool) (cause : Nat) (x : BitVec 64) : fld (trippedReg locked cause x) 47 32 = 0 := by
  unfold trippedReg satFld
  rw [fld_setFld_ne (by decide) (by decide) (by decide), fld_setFld_ne (by decide) (by decide) (by decide), fld_setFld (by decide) (by decide), Nat.zero_mod]

/-- Whether a trip on a cause is the second SHORT of a meadow within one hour (R365). -/
def State.shortAgain (s : State) (m cause : Nat) : Bool :=
  cause = 1 && (match (Tab.get 0 s.power.shortAt m) with
    | 0 => false
    | a + 1 => s.tclk ≤ a + 3600000000000)

theorem shortAgain_locks {s : State} {m a : Nat} (ha : Tab.get 0 s.power.shortAt m = a + 1) (h : s.tclk ≤ a + 3600000000000) :
    s.shortAgain m 1 = true := by
  unfold State.shortAgain
  rw [ha]
  simpa using h

theorem shortAgain_trips {s : State} {m cause : Nat}
    (h : cause ≠ 1 ∨ ∀ a, Tab.get 0 s.power.shortAt m = a + 1 → a + 3600000000000 < s.tclk) : s.shortAgain m cause = false := by
  unfold State.shortAgain
  rcases h with h | h
  · simp [h]
  · split
    · simp
    case h_2 a ha => simp [h a ha]

/-- The state at the moment the e-fuses open: the meadow's register and the time of a SHORT. -/
def State.opened (s : State) (m cause : Nat) : State :=
  let t := (s.jobDark m).modMeadow m (trippedReg (s.shortAgain m cause) cause)
  if cause = 1 then { t with power := { t.power with shortAt := Tab.set 0 t.power.shortAt m (s.tclk + 1) } } else t

theorem grid_opened (s : State) (m cause : Nat) :
    (s.opened m cause).grid = { s.grid with meadow := Tab.mod 0 s.power.meadow m (trippedReg (s.shortAgain m cause) cause) } := by
  unfold State.opened
  dsimp only
  split <;> rfl

/-- The state once the meadow has gone dark around its e-fuses. -/
def State.dark (s : State) (m cause : Nat) : State :=
  ((if s.meadowOn m then (s.opened m cause).loseMeadow m else s.opened m cause).meadowOff m).foldAround m

/-- The map state while it waits to lose a meadow. -/
def StructMap.losing (x : StructMap) (m : Nat) : StructMap :=
  { x with waiting := addOnce (x.waiting.erase (MapItem.meadowLit m)) (MapItem.meadowDark m) }

/-- What a trip leaves of the grid. -/
def Grid.tripped (x : Grid) (m cause : Nat) (locked lit : Bool) : Grid :=
  { x with meadow := Tab.mod 0 x.meadow m (trippedReg locked cause), map := if lit then x.map.losing m else x.map,
           alert := if cause = 6 then x.alert else setBit x.alert 4 true, cores := x.cores.filter fun e => meadowOf (siteOf e.1) ≠ m }

theorem grid_alertBit (s : State) (n : Nat) : (s.alertBit n).grid = { s.grid with alert := setBit s.grid.alert n true } := rfl
theorem grid_edge (s : State) (g n : Nat) : (s.edge g n).grid = s.grid := rfl
theorem grid_panelEvent (s : State) (e : EventRec) : (s.panelEvent e).grid = s.grid := grid_of_offHost (offHost_panelEvent s e)
theorem grid_ctxEvents (s : State) (p : Nat → Bool) (e : EventRec) : (s.ctxEvents p e).grid = s.grid := grid_of_offHost (offHost_ctxEvents s p e)

theorem grid_dark (s : State) (m cause : Nat) : (s.dark m cause).grid = { s.grid with
    meadow := Tab.mod 0 s.power.meadow m (trippedReg (s.shortAgain m cause) cause), map := if s.meadowOn m then s.map.losing m else s.map
    cores := s.cores.filter fun e => meadowOf (siteOf e.1) ≠ m } := by
  have hopen := grid_opened s m cause
  have hmap : (s.opened m cause).map = s.map := congrArg Grid.map hopen
  have hcores : (s.opened m cause).cores = s.cores := congrArg Grid.cores hopen
  unfold State.dark
  rw [grid_foldAround, grid_meadowOff]
  split
  · have hlose : ((s.opened m cause).loseMeadow m).grid = { (s.opened m cause).grid with map := (s.opened m cause).map.losing m } := rfl
    have hcores' : ((s.opened m cause).loseMeadow m).cores = s.cores := hcores
    rw [hlose, hcores', hopen, hmap]
  · rw [hopen, hcores]
    rfl

/-- The e-fuses of a meadow that is powered open (R365, R366). -/
theorem tripMeadow_grid {s : State} {m cause : Nat} (hlo : 2 ≤ s.meadowState m) (hhi : s.meadowState m ≤ 4) :
    (s.tripMeadow m cause).grid = s.grid.tripped m cause (s.shortAgain m cause) (s.meadowOn m) := by
  have hlive : ¬ (s.meadowState m ≤ 1 || 5 ≤ s.meadowState m) = true := by
    rw [Bool.or_eq_true, decide_eq_true_eq, decide_eq_true_eq]
    omega
  have halert : ∀ t : State, ((if cause = 6 then t else t.alertBit 4).edge 0 595).grid =
      { t.grid with alert := if cause = 6 then t.grid.alert else setBit t.grid.alert 4 true } := fun t => by
    rw [grid_edge]
    split
    · rfl
    · exact grid_alertBit t 4
  unfold State.tripMeadow
  rw [if_neg hlive]
  dsimp only
  rw [grid_finishMeadowJobs, grid_ctxEvents, grid_panelEvent, grid_recordAbort_if]
  refine (halert (s.dark m cause)).trans ?_
  rw [grid_dark]
  rfl

end Sys2Proof.Machine
end

section
/-! SUPPORT. E-fuses, connectors, phases and regulators that fail (R362 to R369, R374, R375, R381). -/

namespace Sys2Proof.Machine

/-! ### E-fuses -/

/-- What the e-fuses of a meadow that is powered leave of it. -/
theorem tripMeadow_meadow {s : State} {m cause : Nat} (hlo : 2 ≤ s.meadowState m) (hhi : s.meadowState m ≤ 4) (k : Nat) :
    (s.tripMeadow m cause).meadow k = if k = m then trippedReg (s.shortAgain m cause) cause (s.meadow m) else s.meadow k := by
  have h : (s.tripMeadow m cause).power.meadow = Tab.mod 0 s.power.meadow m (trippedReg (s.shortAgain m cause) cause) :=
    congrArg Grid.meadow (tripMeadow_grid hlo hhi)
  rw [State.meadow, h, get_mod]
  rfl

theorem tripMeadow_meadow_same {s : State} {m cause : Nat} (hlo : 2 ≤ s.meadowState m) (hhi : s.meadowState m ≤ 4) :
    (s.tripMeadow m cause).meadow m = trippedReg (s.shortAgain m cause) cause (s.meadow m) :=
  (tripMeadow_meadow hlo hhi m).trans (if_pos rfl)

theorem tripMeadow_state {s : State} {m cause : Nat} (hlo : 2 ≤ s.meadowState m) (hhi : s.meadowState m ≤ 4) :
    (s.tripMeadow m cause).meadowState m = if s.shortAgain m cause then 6 else 5 := by
  rw [State.meadowState, tripMeadow_meadow_same hlo hhi, fld_trippedReg_state]

theorem efuseTrip_none {s : State} {r : Fin 9} {cause : BitVec 4} (h : cause = 0 ∨ 6 < cause.toNat) : execEfuseTrip r cause s = .next s :=
  congrArg _ (if_pos h)

theorem efuse_cause {cause : BitVec 4} (h1 : 1 ≤ cause.toNat) (h6 : cause.toNat ≤ 6) : ¬ (cause = 0 ∨ 6 < cause.toNat) := by
  rintro (h | h)
  · rw [h] at h1
    exact absurd h1 (by decide)
  · omega

theorem efuseTrip_meadow {s : State} {r : Fin 9} {cause : BitVec 4} (h1 : 1 ≤ cause.toNat) (h6 : cause.toNat ≤ 6) (hr : r.val < 8) :
    execEfuseTrip r cause s = .next (s.tripMeadow r.val cause.toNat) :=
  congrArg _ ((if_neg (efuse_cause h1 h6)).trans (if_neg (by omega)))

theorem efuseTrip_rim {s : State} {cause : BitVec 4} (h1 : 1 ≤ cause.toNat) (h6 : cause.toNat ≤ 6) : execEfuseTrip 8 cause s = .next s.rimLoss :=
  congrArg _ ((if_neg (efuse_cause h1 h6)).trans (if_pos rfl))

/-! ### Connectors -/

/-- What a lost connector leaves of the power state: the feeds, the meadows and the planned darkness. -/
theorem regionLimit_congr {s t : State} (hf : t.power.feed = s.power.feed) (hc : t.power.safeCa = s.power.safeCa) (r : Nat) :
    t.regionLimit r = s.regionLimit r := by
  unfold State.regionLimit State.liveFeeds State.feed
  rw [hf, hc]

/-- A region has four connectors of at most 80 A. -/
theorem regionLimit_lt (s : State) (r : Nat) : s.regionLimit r < 65536 := by
  have hlen : (s.liveFeeds r).length ≤ 4 := (List.length_filter_le _ _).trans_eq (List.length_range' ..)
  have heach : ∀ (l : List Nat) (a : Nat), l.foldl (fun a n => if bit (s.feed n) 62 then min a (Tab.get 8000 s.power.safeCa n / 10) else a) a ≤ a := by
    intro l
    induction l with
    | nil => exact fun a => Nat.le_refl a
    | cons n l ih =>
      intro a
      refine (ih _).trans ?_
      dsimp only
      split
      · exact Nat.min_le_left _ _
      · exact Nat.le_refl a
  have h := Nat.mul_le_mul hlen (heach (s.liveFeeds r) 800)
  unfold State.regionLimit
  dsimp only
  omega

/-- The state in which an open connector is counted and told, before its region is judged. -/
def State.counted (s : State) (n : Nat) : State :=
  ((s.modFeed n fun x => setBit x 61 true).alertBit 5).panelEvent { event 0x84 n 0 with dataA := 0xFFFFFFFFFFFFFFFF }

/-- The state with the limit of a meadow's region set. -/
def State.limited (s : State) (r : Nat) : State := if r < 8 then s.modMeadow r fun x => setFld x 31 16 (s.regionLimit r) else s

/-- What follows when a region has fewer than two connectors left. -/
def State.regionFails (s : State) (r : Nat) : State :=
  (if s.ledger.state = .idle || !s.meadowOn r then s else s.recordAbort abMeadow []).planOff r

theorem connectorOpen_eq {s : State} {n : Fin 36} (h : bit (s.feed n.val) 61 = false) : execConnectorOpen n s = .next
    (if 1 < (((s.counted n.val).limited (n.val / 4)).liveFeeds (n.val / 4)).length then (s.counted n.val).limited (n.val / 4)
      else if n.val / 4 = 8 then ((s.counted n.val).limited (n.val / 4)).rimLoss else ((s.counted n.val).limited (n.val / 4)).regionFails (n.val / 4)) := by
  unfold execConnectorOpen State.counted State.limited State.regionFails
  dsimp only
  rw [if_neg (Bool.eq_false_iff.mp h)]

theorem alertBit_frame (s : State) {n : Nat} (hn : n < 32) : ∃ a, bit a n = true ∧ s.alertBit n = { s with alert := a } :=
  ⟨_, (bit_setBit hn n).trans (if_pos rfl), rfl⟩

theorem modFeed_frame (s : State) (n : Nat) (f : BitVec 64 → BitVec 64) :
    ∃ fd, fd = Tab.mod 0 s.power.feed n f ∧ s.modFeed n f = { s with power := { s.power with feed := fd } } := ⟨_, rfl, rfl⟩

theorem counted_frame (s : State) (n : Nat) : ∃ fd a x c, fd = Tab.mod 0 s.power.feed n (fun x => setBit x 61 true) ∧ bit a 5 = true
    ∧ s.counted n = { s with power := { s.power with feed := fd }, alert := a, host := x, ctxs := c } := by
  obtain ⟨fd, hfd, hfeed⟩ := modFeed_frame s n fun x => setBit x 61 true
  unfold State.counted
  rw [hfeed]
  obtain ⟨a, hbit, ha⟩ := alertBit_frame { s with power := { s.power with feed := fd } } (n := 5) (by decide)
  rw [ha]
  obtain ⟨x, c, h⟩ := offHost_frame (offHost_panelEvent { s with power := { s.power with feed := fd }, alert := a }
    { event 0x84 n 0 with dataA := 0xFFFFFFFFFFFFFFFF })
  exact ⟨fd, a, x, c, hfd, hbit, h⟩

/-- What an open connector leaves: its mark, GAL_ALERT, the limit of its region; and nothing else of the power state. -/
structure OpenCounted (s t : State) (n r : Nat) : Prop where
  feed    : t.power.feed = Tab.mod 0 s.power.feed n fun x => setBit x 61 true
  safe    : t.power.safeCa = s.power.safeCa
  turnOff : t.power.turnOff = s.power.turnOff
  alert   : bit t.alert 5 = true
  pins    : t.pins.panelResetN = s.pins.panelResetN
  state   : ∀ m, t.meadowState m = s.meadowState m
  limit   : r < 8 → fld (t.meadow r) 31 16 = t.regionLimit r

theorem modMeadow_meadow (s : State) (r m : Nat) (f : BitVec 64 → BitVec 64) :
    (s.modMeadow r f).meadow m = if m = r then f (s.meadow r) else s.meadow m := get_mod _ _ _ _ _

theorem limited_state (s : State) (r m : Nat) : (s.limited r).meadowState m = s.meadowState m := by
  unfold State.limited
  split
  · rw [State.meadowState, modMeadow_meadow]
    split
    case isTrue hm => rw [hm, fld_setFld_ne (by decide) (by decide) (by decide)]; rfl
    case isFalse => rfl
  · rfl

/-- The limit of a region changes PWR_MEADOW. -/
theorem limited_frame (s : State) (r : Nat) : ∃ w, s.limited r = { s with power := { s.power with meadow := w } } := by
  unfold State.limited
  split
  · exact ⟨_, rfl⟩
  · exact ⟨s.power.meadow, rfl⟩

theorem limited_limit (s : State) {r : Nat} (hr : r < 8) : fld ((s.limited r).meadow r) 31 16 = (s.limited r).regionLimit r := by
  have h : (s.limited r).regionLimit r = s.regionLimit r := by
    obtain ⟨w, hw⟩ := limited_frame s r
    rw [hw]
    exact regionLimit_congr rfl rfl r
  rw [h]
  unfold State.limited
  rw [if_pos hr, modMeadow_meadow, if_pos rfl, fld_setFld (by decide) (by decide)]
  exact Nat.mod_eq_of_lt (regionLimit_lt s r)

theorem counted_open (s : State) (n r : Nat) : OpenCounted s ((s.counted n).limited r) n r := by
  have hstate := limited_state (s.counted n) r
  have hlimit : r < 8 → _ := limited_limit (s.counted n)
  obtain ⟨w, hw⟩ := limited_frame (s.counted n) r
  obtain ⟨fd, a, x, c, hfd, hbit, h⟩ := counted_frame s n
  refine ⟨?_, ?_, ?_, ?_, ?_, fun m => ?_, hlimit⟩
  · rw [hw, h]
    exact hfd
  · rw [hw, h]
  · rw [hw, h]
  · rw [hw, h]
    exact hbit
  · rw [hw, h]
  · rw [hstate, h]
    rfl

theorem open_feed {s t : State} {n r : Nat} (h : OpenCounted s t n r) (k : Nat) : t.feed k = if k = n then setBit (s.feed n) 61 true else s.feed k := by
  rw [State.feed, h.feed, get_mod]
  rfl

/-- The connectors that are left. -/
theorem open_left {s t : State} {n r : Nat} (h : OpenCounted s t n r) : t.liveFeeds r = (feedsOf r).filter fun k => k ≠ n && !bit (s.feed k) 61 := by
  refine List.filter_congr fun k _ => ?_
  rw [open_feed h]
  split
  case isTrue hk =>
    rw [bit_setBit (by decide), if_pos rfl]
    simp [hk]
  case isFalse hk => simp [hk]

theorem planOff_turnOff (s : State) (m : Nat) :
    (s.planOff m).power.turnOff = if s.meadowState m = 3 then addOnce s.power.turnOff m else s.power.turnOff := by
  unfold State.planOff
  split <;> rfl

/-- Planned darkness changes the list of the meadows to turn off. -/
theorem planOff_frame (s : State) (m : Nat) : ∃ l, s.planOff m = { s with power := { s.power with turnOff := l } } := by
  unfold State.planOff
  split
  · exact ⟨_, rfl⟩
  · exact ⟨s.power.turnOff, rfl⟩

theorem regionFails_spec {s t : State} {n r : Nat} (h : OpenCounted s t n r) : (t.regionFails r).feed n = setBit (s.feed n) 61 true
    ∧ bit (t.regionFails r).alert 5 = true ∧ (r < 8 → fld ((t.regionFails r).meadow r) 31 16 = (t.regionFails r).regionLimit r)
    ∧ (t.regionFails r).power.turnOff = if s.meadowState r = 3 then addOnce s.power.turnOff r else s.power.turnOff := by
  obtain ⟨led, gals, habort⟩ := recordAbort_if_frame ((t.ledger.state = .idle || !t.meadowOn r) = true) t abMeadow []
  have hturn := planOff_turnOff { t with ledger := led, gals := gals } r
  have hstate : State.meadowState { t with ledger := led, gals := gals } r = s.meadowState r := h.state r
  have hoff : (State.power { t with ledger := led, gals := gals }).turnOff = s.power.turnOff := h.turnOff
  obtain ⟨l, hplan⟩ := planOff_frame { t with ledger := led, gals := gals } r
  unfold State.regionFails
  rw [habort]
  refine ⟨?_, ?_, fun hr => ?_, ?_⟩
  · rw [hplan]
    exact (open_feed h n).trans (if_pos rfl)
  · rw [hplan]
    exact h.alert
  · rw [hplan]
    exact (h.limit hr).trans (regionLimit_congr rfl rfl r)
  · rw [hturn, hstate, hoff]

theorem connectorOpen_open {s : State} {n : Fin 36} (h : bit (s.feed n.val) 61 = true) : execConnectorOpen n s = .next s := congrArg _ (if_pos h)

/-! ### Estimates -/

/-- The state in which an estimate is judged: its time, and the connector's current. -/
def State.measured (s : State) (n : Nat) (amp : BitVec 16) (dt : Nat) : State := (s.pass dt).modFeed n fun x => setFld x 15 0 amp.toNat

theorem modFeed_feed (s : State) (n k : Nat) (f : BitVec 64 → BitVec 64) : (s.modFeed n f).feed k = if k = n then f (s.feed n) else s.feed k :=
  get_mod _ _ _ _ _

theorem measured_base (s : State) (n : Nat) (amp : BitVec 16) (dt : Nat) : fld ((s.measured n amp dt).feed n) 31 16 = fld (s.feed n) 31 16 := by
  have h : (s.measured n amp dt).feed n = setFld (s.feed n) 15 0 amp.toNat := (modFeed_feed _ _ _ _).trans (if_pos rfl)
  rw [h, fld_setFld_ne (by decide) (by decide) (by decide)]

/-- What an estimate does with a baseline of `base` (R368, R369). -/
def State.estimate (s : State) (n base ohm amp : Nat) : State :=
  if base = 0 then
    let l := Tab.get [] s.power.feedSum n ++ [ohm]
    if l.length < 6000 then { s with power := { s.power with feedSum := Tab.set [] s.power.feedSum n l } }
    else ({ s with power := { s.power with feedSum := Tab.erase s.power.feedSum n } }).modFeed n fun x => setFld x 31 16 (min 65535 (median l))
  else s.ratioActs n ohm (ohm * 1000 / base) amp

theorem connectorEstimate_low {s : State} {n : Fin 36} {ohm dt : Nat} {amp : BitVec 16} (h : amp.toNat ≤ 2000) :
    execConnectorEstimate n ohm amp dt s = .next (s.measured n.val amp dt) := congrArg _ (if_pos h)

theorem connectorEstimate_high {s : State} {n : Fin 36} {ohm dt base : Nat} {amp : BitVec 16} (h : 2000 < amp.toNat)
    (hb : base = fld (s.feed n.val) 31 16) :
    execConnectorEstimate n ohm amp dt s = .next ((s.measured n.val amp dt).estimate n.val base ohm amp.toNat) := by
  rw [hb, ← measured_base s n.val amp dt]
  exact congrArg _ (if_neg (Nat.not_le.mpr h))

section
variable {s : State} {n ohm amp base : Nat} {l : List Nat}

theorem estimate_collects (hl : l = Tab.get [] s.power.feedSum n) (h : l.length < 5999) :
    s.estimate n 0 ohm amp = { s with power := { s.power with feedSum := Tab.set [] s.power.feedSum n (l ++ [ohm]) } } := by
  subst hl
  exact (if_pos rfl).trans (if_pos (by rw [List.length_append]; exact Nat.succ_lt_succ h))

theorem estimate_baseline (hl : l = Tab.get [] s.power.feedSum n) (h : 5999 ≤ l.length) : s.estimate n 0 ohm amp =
    State.modFeed { s with power := { s.power with feedSum := Tab.erase s.power.feedSum n } } n fun x => setFld x 31 16 (min 65535 (median (l ++ [ohm]))) := by
  subst hl
  exact (if_pos rfl).trans (if_neg (by rw [List.length_append, List.length_singleton]; omega))

theorem estimate_ratio (hb : base ≠ 0) : s.estimate n base ohm amp = s.ratioActs n ohm (ohm * 1000 / base) amp := if_neg hb

end

/-- Since when a connector's ratio has been high (R369). -/
def State.highSince (s : State) (n ratio : Nat) : Nat :=
  if ratio ≤ 1500 then 0 else if Tab.get 0 s.power.highAt n = 0 then s.tclk + 1 else Tab.get 0 s.power.highAt n

/-- The state with a ratio entered (R369). -/
def State.rated (s : State) (n ratio ca hi : Nat) : State :=
  State.modFeed { s with power := { s.power with lastEst := Tab.set 0 s.power.lastEst n ratio, lastCur := Tab.set 0 s.power.lastCur n ca,
                                                 highAt := Tab.set 0 s.power.highAt n hi } } n fun x => setFld x 47 32 (min 65535 ratio)

/-- A connector whose ratio has been high for 10 s is SUSPECT (R369). -/
def State.suspected (t : State) (n ratio hi now : Nat) : State :=
  if hi ≠ 0 && hi + 10000000000 ≤ now + 1 && !bit (t.feed n) 63 then
    ((t.modFeed n fun x => setBit x 63 true).alertBit 5).panelEvent (event 0x84 n ratio)
  else t

/-- A connector whose ratio is above 3 is capped (R369). -/
def State.capped (t : State) (n est ratio : Nat) : State :=
  if 3000 < ratio then
    State.limited (State.modFeed { t with power := { t.power with
      safeCa := Tab.set 8000 t.power.safeCa n (sqrtN (64000000 * fld (t.feed n) 31 16 / max 1 est)) } } n fun x => setBit x 62 true) (n / 4)
  else t

/-- Whether a ratio has stepped up at an unchanged current (R369). -/
def State.stepped (s : State) (n ratio ca : Nat) : Bool :=
  let last := Tab.get 0 s.power.lastEst n
  let lastCa := Tab.get 0 s.power.lastCur n
  last ≠ 0 && last + 500 < ratio && 10 * (max ca lastCa - min ca lastCa) < lastCa

/-- The state with a ratio entered and its marks set. -/
def State.judged (s : State) (n est ratio ca : Nat) : State :=
  ((s.rated n ratio ca (s.highSince n ratio)).suspected n ratio (s.highSince n ratio) s.tclk).capped n est ratio

theorem capped_eq (t : State) (n est ratio : Nat) : t.capped n est ratio = (if 3000 < ratio then
      let u := { t with power := { t.power with safeCa := Tab.set 8000 t.power.safeCa n (sqrtN (64000000 * fld (t.feed n) 31 16 / max 1 est)) } }
      let u := u.modFeed n fun x => setBit x 62 true
      if n / 4 < 8 then u.modMeadow (n / 4) fun x => setFld x 31 16 (u.regionLimit (n / 4)) else u
    else t) := by
  unfold State.capped State.limited
  rfl

theorem ratioActs_eq (s : State) (n est ratio ca : Nat) : s.ratioActs n est ratio ca =
    if s.stepped n ratio ca then (if n / 4 = 8 then (s.judged n est ratio ca).rimLoss else (s.judged n est ratio ca).tripMeadow (n / 4) 5)
    else s.judged n est ratio ca := by
  unfold State.judged
  rw [capped_eq]
  unfold State.ratioActs
  rfl

theorem judged_low {s : State} {n est ratio ca : Nat} (h : ratio ≤ 1500) : s.judged n est ratio ca = s.rated n ratio ca 0 := by
  have hsince : s.highSince n ratio = 0 := if_pos h
  have hsus : (s.rated n ratio ca 0).suspected n ratio 0 s.tclk = s.rated n ratio ca 0 := if_neg (by simp)
  unfold State.judged
  rw [hsince, hsus]
  exact if_neg (by omega)

theorem ratioActs_quiet {s : State} {n est ratio ca : Nat} (h : ratio ≤ 1500) (hstep : ratio ≤ Tab.get 0 s.power.lastEst n + 500) :
    s.ratioActs n est ratio ca = State.modFeed { s with power := { s.power with
      lastEst := Tab.set 0 s.power.lastEst n ratio, lastCur := Tab.set 0 s.power.lastCur n ca, highAt := Tab.set 0 s.power.highAt n 0 } } n
        fun x => setFld x 47 32 ratio := by
  have hno : ¬ s.stepped n ratio ca = true := by simp [State.stepped, Nat.not_lt.mpr hstep]
  rw [ratioActs_eq, if_neg hno, judged_low h, State.rated, Nat.min_eq_right (by omega)]

theorem suspected_state (t : State) (n ratio hi now m : Nat) : (t.suspected n ratio hi now).meadowState m = t.meadowState m := by
  unfold State.suspected
  split
  · obtain ⟨fd, -, hfeed⟩ := modFeed_frame t n fun x => setBit x 63 true
    rw [hfeed]
    obtain ⟨a, -, ha⟩ := alertBit_frame { t with power := { t.power with feed := fd } } (n := 5) (by decide)
    rw [ha]
    obtain ⟨x, c, h⟩ := offHost_frame (offHost_panelEvent { t with power := { t.power with feed := fd }, alert := a } (event 0x84 n ratio))
    rw [h]
    rfl
  · rfl

theorem modFeed_state (s : State) (n m : Nat) (f : BitVec 64 → BitVec 64) : (s.modFeed n f).meadowState m = s.meadowState m := by
  obtain ⟨fd, -, h⟩ := modFeed_frame s n f
  rw [h]
  rfl

theorem safeCa_state (t : State) (safe : Tab Nat) (m : Nat) :
    State.meadowState { t with power := { t.power with safeCa := safe } } m = t.meadowState m := rfl

theorem capped_state (t : State) (n est ratio m : Nat) : (t.capped n est ratio).meadowState m = t.meadowState m := by
  unfold State.capped
  split
  · rw [limited_state, modFeed_state, safeCa_state]
  · rfl

theorem rated_state (s : State) (n ratio ca hi m : Nat) : (s.rated n ratio ca hi).meadowState m = s.meadowState m := by
  obtain ⟨fd, -, hfeed⟩ := modFeed_frame { s with power := { s.power with
    lastEst := Tab.set 0 s.power.lastEst n ratio, lastCur := Tab.set 0 s.power.lastCur n ca, highAt := Tab.set 0 s.power.highAt n hi } } n
      fun x => setFld x 47 32 (min 65535 ratio)
  rw [State.rated, hfeed]
  rfl

theorem judged_state (s : State) (n est ratio ca m : Nat) : (s.judged n est ratio ca).meadowState m = s.meadowState m := by
  rw [State.judged, capped_state, suspected_state, rated_state]

theorem ratioActs_steps {s : State} {n est ratio ca : Nat} (h0 : Tab.get 0 s.power.lastEst n ≠ 0) (hup : Tab.get 0 s.power.lastEst n + 500 < ratio)
    (hca : ca = Tab.get 0 s.power.lastCur n) (hpos : 0 < ca) (hn : n < 32) :
    s.ratioActs n est ratio ca = (s.judged n est ratio ca).tripMeadow (n / 4) 5 := by
  have hstep : s.stepped n ratio ca = true := by
    unfold State.stepped
    dsimp only
    rw [← hca, Nat.max_self, Nat.min_self, Nat.sub_self]
    simp [h0, hup, hpos]
  rw [ratioActs_eq, if_pos hstep, if_neg (by omega)]

/-! ### Phases and regulators -/

theorem sett_congr {s t : State} (hs : t.setts = s.setts) (hn : t.nv = s.nv) (i : Nat) : t.sett i = s.sett i := by
  rw [State.sett, State.settDefault, hs, hn]
  rfl

/-- A site whose power is gone is DEAD (R374, R375). -/
theorem sittDead_spec (s : State) (i : Nat) : fld ((s.sittDead i).sett i).pwrStat 23 20 = 3 ∧ MapItem.deadSite i ∈ (s.sittDead i).map.waiting
    ∧ ∀ p ∈ s.coresOfSite i, ((s.sittDead i).core p).fenced = true := by
  obtain ⟨hsetts, hnv, hmap, hcores⟩ := siteDies_spec (s.modSett i fun x => { x with pwrStat := setFld x.pwrStat 23 20 3 }) i
  refine ⟨?_, hmap, hcores⟩
  rw [State.sittDead, sett_congr hsetts hnv, sett_modSett, if_pos rfl]
  exact (fld_setFld (by decide) (by decide)).trans (by decide)

/-- The sett with a phase lost. -/
def Sett.losePhase (x : Sett) (ph : Nat) : Sett := { x with pwrStat := setBit x.pwrStat (40 + ph) false }

/-- The sett with its cap lowered to what its phases allow (R374). -/
def Sett.capped (y : Sett) : Sett := { y with cap := setFld y.cap 15 0 (min (fld y.cap 15 0) (phaseMax y.phases)) }

theorem phases_capped (y : Sett) : y.capped.phases = y.phases := rfl

theorem phaseFail_lost {s : State} {i : Site} {ph : Fin 8} (h : bit (s.sett i.val).pwrStat (40 + ph.val) = false) : execPhaseFail i ph s = .next s :=
  congrArg _ (if_pos (by simp [h]))

theorem phaseFail_eq {s : State} {i : Site} {ph : Fin 8} (h : bit (s.sett i.val).pwrStat (40 + ph.val) = true) : execPhaseFail i ph s = .next
    (if ((s.sett i.val).losePhase ph.val).phases = 0 then (s.setSett i.val ((s.sett i.val).losePhase ph.val).capped).sittDead i.val
      else s.setSett i.val ((s.sett i.val).losePhase ph.val).capped) := by
  have hsett : (s.setSett i.val ((s.sett i.val).losePhase ph.val).capped).sett i.val = ((s.sett i.val).losePhase ph.val).capped :=
    (sett_setSett _ _ _ _).trans (if_pos rfl)
  have hphases : ((s.setSett i.val ((s.sett i.val).losePhase ph.val).capped).sett i.val).phases = ((s.sett i.val).losePhase ph.val).phases :=
    (congrArg Sett.phases hsett).trans (phases_capped _)
  unfold execPhaseFail
  rw [if_neg (not_not.mpr h), ← hphases]
  rfl

/-- The sett with the failure of a regulator recorded. -/
def Sett.loseIvr (x : Sett) (v : Nat) : Sett := { x with pwrStat := setBit x.pwrStat (31 + v) true }

/-- The sett with the rows of failed regulators joined to their neighbours (R375). -/
def Sett.tied (x : Sett) (ties tieMax : Nat) : Sett :=
  ({ x with pwrStat := setFld x.pwrStat 30 24 ties, cap := setFld x.cap 22 16 (if ties = 0 then 127 else tieMax) } : Sett).retarget

/-- Rows of a site go dark: their cores are fenced, and the map loses them at the next change (R375). -/
def State.rowsDark (s : State) (i : Nat) (rows : List Nat) : State :=
  let ps := (s.coresOfSite i).filter fun p => rows.contains (rowOf p)
  let t := ps.foldl (fun t p => t.modCore p fun c => { c with fenced := true }) s
  let t := { t with map := { t.map with waiting := rows.foldl (fun l r => addOnce l (MapItem.darkRow i r)) t.map.waiting } }
  if rows.isEmpty || t.ledger.state = .idle then t else t.recordAbort abCore ps

theorem rowsDark_spec (s : State) (i : Nat) (rows : List Nat) : (s.rowsDark i rows).setts = s.setts ∧ (s.rowsDark i rows).nv = s.nv
    ∧ (∀ r ∈ rows, MapItem.darkRow i r ∈ (s.rowsDark i rows).map.waiting)
    ∧ ∀ p ∈ s.coresOfSite i, rowOf p ∈ rows → ((s.rowsDark i rows).core p).fenced = true := by
  have hcore := fun p => fenceCores_core ((s.coresOfSite i).filter fun p => rows.contains (rowOf p)) s p
  obtain ⟨cores, hfold⟩ := foldl_modCore_frame (fun c => { c with fenced := true }) ((s.coresOfSite i).filter fun p => rows.contains (rowOf p)) s
  unfold State.rowsDark
  dsimp only
  rw [hfold] at hcore ⊢
  obtain ⟨led, gals, h⟩ := recordAbort_if_frame ((rows.isEmpty || s.ledger.state = .idle) = true) { s with
    cores := cores, map := { s.map with waiting := rows.foldl (fun l r => addOnce l (MapItem.darkRow i r)) s.map.waiting } } abCore
      ((s.coresOfSite i).filter fun p => rows.contains (rowOf p))
  rw [h]
  refine ⟨rfl, rfl, fun r hr => (mem_foldl_addOnce (MapItem.darkRow i) rows _ _).mpr (Or.inr ⟨r, hr, rfl⟩), fun p hp hrow => ?_⟩
  have hmem : p ∈ (s.coresOfSite i).filter fun p => rows.contains (rowOf p) := List.mem_filter.mpr ⟨hp, List.contains_iff_mem.mpr hrow⟩
  have := hcore p
  rw [if_pos hmem] at this
  exact congrArg Core.fenced this

theorem ivrFail_known {s : State} {i : Site} {v : Fin 9} {tm : BitVec 7} (h : bit (s.sett i.val).pwrStat (31 + v.val) = true) :
    execIvrFail i v tm s = .next s := congrArg _ (if_pos h)

theorem ivrFail_uncore {s : State} {i : Site} {v : Fin 9} {tm : BitVec 7} (h : bit (s.sett i.val).pwrStat (31 + v.val) = false) (hv : v.val = 8) :
    execIvrFail i v tm s = .next ((s.setSett i.val ((s.sett i.val).loseIvr v.val)).sittDead i.val) :=
  congrArg _ ((if_neg (Bool.eq_false_iff.mp h)).trans (if_pos hv))

/-- The rows that newly go dark with a failed regulator. -/
def Sett.newDark (x : Sett) (v : Nat) : List Nat :=
  (darkRows (fld (x.loseIvr v).pwrStat 38 31)).filter fun r => !(darkRows (fld x.pwrStat 38 31)).contains r

theorem ivrFail_row {s : State} {i : Site} {v : Fin 9} {tm : BitVec 7} (h : bit (s.sett i.val).pwrStat (31 + v.val) = false) (hv : v.val < 8) :
    execIvrFail i v tm s = .next (((s.setSett i.val ((s.sett i.val).loseIvr v.val)).modSett i.val fun x =>
      x.tied (tiesOf (fld ((s.sett i.val).loseIvr v.val).pwrStat 38 31)) tm.toNat).rowsDark i.val ((s.sett i.val).newDark v.val)) := by
  have hsett : (s.setSett i.val ((s.sett i.val).loseIvr v.val)).sett i.val = (s.sett i.val).loseIvr v.val := (sett_setSett _ _ _ _).trans (if_pos rfl)
  have hfails : fld ((s.setSett i.val ((s.sett i.val).loseIvr v.val)).sett i.val).pwrStat 38 31 = fld ((s.sett i.val).loseIvr v.val).pwrStat 38 31 := by
    rw [hsett]
  unfold Sett.newDark
  rw [← hfails]
  unfold execIvrFail
  dsimp only
  rw [if_neg (Bool.eq_false_iff.mp h), if_neg (Nat.ne_of_lt hv)]
  rfl

/-- Settles O37: the trip goes through the grid of the meadows, a connector through the count of its region, and a site's loss through its map item. -/
theorem powerFailureRows : Obligations.PowerFailureRows := by
  unfold Obligations.PowerFailureRows
  refine ⟨?_, ?_, ?_, ?_, ?_, ?_⟩
  · rintro s r cause m rfl
    refine ⟨efuseTrip_none, fun h1 h6 hr hlo hhi => ⟨_, efuseTrip_meadow h1 h6 hr, ?_, ?_, ?_, ?_, ?_, ?_, ?_, ?_, ?_⟩⟩
    · rintro a rfl ha hat
      have hlock : s.shortAgain r.val (BitVec.toNat (1 : BitVec 4)) = true := shortAgain_locks ha hat
      rw [tripMeadow_state hlo hhi, if_pos hlock]
    · intro h
      have hno : s.shortAgain r.val cause.toNat = false := shortAgain_trips (h.imp_left fun h h' => h (BitVec.eq_of_toNat_eq h'))
      rw [tripMeadow_state hlo hhi, hno, if_neg Bool.false_ne_true]
    · rw [tripMeadow_meadow_same hlo hhi, fld_trippedReg_cause _ cause.isLt]
    · rw [tripMeadow_meadow_same hlo hhi, fld_trippedReg_count]
    · rw [tripMeadow_meadow_same hlo hhi, fld_trippedReg_grant]
    · intro k hk
      rw [tripMeadow_meadow hlo hhi, if_neg hk]
    · exact congrArg Grid.cores (tripMeadow_grid hlo hhi)
    · intro h
      have hc : ¬ cause.toNat = 6 := fun h' => h (BitVec.eq_of_toNat_eq h')
      have halert : (s.tripMeadow r.val cause.toNat).alert = setBit s.alert 4 true :=
        (congrArg Grid.alert (tripMeadow_grid hlo hhi)).trans (if_neg hc)
      rw [halert, bit_setBit (by decide), if_pos rfl]
    · intro hlit
      have hmap : (s.tripMeadow r.val cause.toNat).map = s.map.losing r.val := (congrArg Grid.map (tripMeadow_grid hlo hhi)).trans (if_pos hlit)
      rw [hmap]
      exact mem_addOnce.mpr (Or.inl rfl)
  · rintro s t rfl
    exact ⟨rfl, fun cause h1 h6 => efuseTrip_rim h1 h6⟩
  · rintro s n r left rfl rfl
    have hopen := counted_open s n.val (n.val / 4)
    have hlen := congrArg List.length (open_left hopen)
    generalize hleft : ((feedsOf (n.val / 4)).filter fun k => k ≠ n.val && !bit (s.feed k) 61).length = left at hlen
    refine ⟨connectorOpen_open, fun h hcase => ?_, fun h hl hr => ?_⟩
    · by_cases hl : 2 ≤ left
      · refine ⟨_, (connectorOpen_eq h).trans (congrArg _ (if_pos (by omega))), (open_feed hopen _).trans (if_pos rfl), hopen.alert, hopen.limit, ?_⟩
        rw [hopen.turnOff, if_neg (by omega)]
      · have hr : n.val / 4 ≠ 8 := by omega
        obtain ⟨hfeed, halert, hlimit, hturn⟩ := regionFails_spec hopen
        refine ⟨_, (connectorOpen_eq h).trans (congrArg _ ((if_neg (by omega)).trans (if_neg hr))), hfeed, halert, hlimit, ?_⟩
        rw [hturn]
        simp only [show left < 2 by omega, true_and]
    · exact ⟨_, (connectorOpen_eq h).trans (congrArg _ ((if_neg (by omega)).trans (if_pos hr))), rfl, rfl, rfl, rfl⟩
  · rintro s u n ohm amp dt base ratio l rfl hbase rfl rfl
    refine ⟨connectorEstimate_low, fun h => ⟨?_, ?_, fun hb h15 hstep => ?_, fun hb h0 hup hca hn hst => ?_⟩⟩
    · rintro rfl hl
      exact (connectorEstimate_high h hbase).trans (congrArg _ (estimate_collects (s := s.measured n.val amp dt) rfl hl))
    · rintro rfl hl
      exact (connectorEstimate_high h hbase).trans (congrArg _ (estimate_baseline (s := s.measured n.val amp dt) rfl hl))
    · exact (connectorEstimate_high h hbase).trans (congrArg _ ((estimate_ratio hb).trans (ratioActs_quiet (s := s.measured n.val amp dt) h15 hstep)))
    · have hacts := ratioActs_steps (s := s.measured n.val amp dt) (est := ohm) h0 hup hca (by omega) hn
      have hstate : ((s.measured n.val amp dt).judged n.val ohm (ohm * 1000 / base) amp.toNat).meadowState (n.val / 4) = 3 := by
        rw [judged_state, State.measured, modFeed_state]
        exact hst
      refine ⟨_, (connectorEstimate_high h hbase).trans (congrArg _ ((estimate_ratio hb).trans hacts)), ?_, ?_⟩
      · rw [tripMeadow_state (by omega) (by omega), shortAgain_trips (Or.inl (by decide)), if_neg Bool.false_ne_true]
      · rw [tripMeadow_meadow_same (by omega) (by omega), fld_trippedReg_cause _ (by decide)]
  · rintro s i ph x y rfl rfl
    refine ⟨phaseFail_lost, fun h hy => (phaseFail_eq h).trans (congrArg _ (if_neg hy)), fun h hy => ?_⟩
    exact ⟨_, (phaseFail_eq h).trans (congrArg _ (if_pos hy)), sittDead_spec _ _⟩
  · rintro s i v tm x fails rfl rfl
    refine ⟨ivrFail_known, fun h hv => ?_, fun h hv => ?_⟩
    · obtain ⟨hstate, hmap, -⟩ := sittDead_spec (s.setSett i.val ((s.sett i.val).loseIvr v.val)) i.val
      exact ⟨_, ivrFail_uncore h hv, hstate, hmap⟩
    · obtain ⟨hsetts, hnv, hmap, hcores⟩ := rowsDark_spec ((s.setSett i.val ((s.sett i.val).loseIvr v.val)).modSett i.val fun x =>
        x.tied (tiesOf (fld ((s.sett i.val).loseIvr v.val).pwrStat 38 31)) tm.toNat) i.val ((s.sett i.val).newDark v.val)
      refine ⟨_, ivrFail_row h hv, ?_, fun r hr hold => ?_⟩
      · rw [sett_congr hsetts hnv, sett_modSett, if_pos rfl, sett_setSett, if_pos rfl]
        rfl
      · have hnew : r ∈ (s.sett i.val).newDark v.val := List.mem_filter.mpr ⟨hr, by simpa using hold⟩
        exact ⟨hmap r hnew, fun p hp hrow => hcores p hp (hrow ▸ hnew)⟩

end Sys2Proof.Machine
end

section
/-! SUPPORT. Coolant, sensors, the guard, the thermal manager and the hardware trip (R382 to R394). -/

namespace Sys2Proof.Machine

/-! ### Aborts of a running pass -/

/-- An abort event ends a running pass as ABORTED with its reason (R42 to R44). -/
theorem recordAbort_running {s : State} (h : s.ledger.state = .running) (reason : Nat) (lost : List Nat) :
    (s.recordAbort reason lost).ledger.outcome = .aborted ∧ (s.recordAbort reason lost).ledger.reason = BitVec.ofNat 8 reason := by
  have hkeeps : ∀ t : State, (lost.foldl State.loseCore t).checkQuiesced.ledger.outcome = t.ledger.outcome
      ∧ (lost.foldl State.loseCore t).checkQuiesced.ledger.reason = t.ledger.reason := fun t => by
    obtain ⟨l, f, w, hlose, -⟩ := loseCores_frame lost t
    obtain ⟨st, hq⟩ := checkQuiesced_frame (lost.foldl State.loseCore t)
    rw [hq, hlose]
    exact ⟨rfl, rfl⟩
  unfold State.recordAbort
  dsimp only
  rw [h]
  exact hkeeps _

/-! ### THERM -/

/-- The sett with CLK_ACLK replaced. -/
def Sett.withAclk (x : Sett) (a : BitVec 64) : Sett := { x with clk := { x.clk with aclk := a } }

theorem retarget_frame (x : Sett) : ∃ a, fld a 46 40 = fld x.clk.aclk 46 40 ∧ x.retarget = x.withAclk a :=
  ⟨setFld x.clk.aclk 62 56 (aclkTarget x.clk.aclk (fld x.cap 22 16)), fld_setFld_ne (by decide) (by decide) (by decide), rfl⟩

theorem retarget_withAclk_frame (x : Sett) (b : BitVec 64) : ∃ a, fld a 46 40 = fld b 46 40 ∧ (x.withAclk b).retarget = x.withAclk a := by
  obtain ⟨a, ha, h⟩ := retarget_frame (x.withAclk b)
  exact ⟨a, ha, h⟩

theorem setTherm_eq (x : Sett) (v : Nat) : x.setTherm v = (x.withAclk (setFld x.clk.aclk 46 40 (max 8 (v % 128)))).retarget := by
  unfold Sett.setTherm Sett.withAclk
  rfl

theorem setTherm_frame (x : Sett) (v : Nat) : ∃ a, fld a 46 40 = max 8 (v % 128) ∧ x.setTherm v = x.withAclk a := by
  have hb : fld (setFld x.clk.aclk 46 40 (max 8 (v % 128))) 46 40 = max 8 (v % 128) := by
    refine (fld_setFld (by decide) (by decide)).trans (Nat.mod_eq_of_lt ?_)
    show max 8 (v % 128) < 128
    omega
  obtain ⟨a, ha, h⟩ := retarget_withAclk_frame x (setFld x.clk.aclk 46 40 (max 8 (v % 128)))
  exact ⟨a, ha.trans hb, (setTherm_eq x v).trans h⟩

theorem setTherm_therm (x : Sett) (v : Nat) : fld (x.setTherm v).clk.aclk 46 40 = max 8 (v % 128) := by
  obtain ⟨a, ha, h⟩ := setTherm_frame x v
  rw [h]
  exact ha

/-! ### A coolant stop -/

/-- THERM at FLOOR where a sett runs. -/
def Sett.floored (x : Sett) : Prop := fld x.clk.aclk 46 40 = 8

/-- One step of the flooring of all setts. -/
def State.floorOne (t : State) (i : Nat) : State := if (t.sett i).clk.live then t.modSett i fun x => x.setTherm 8 else t

theorem floorOne_sett (t : State) (i j : Nat) :
    (t.floorOne i).sett j = if j = i ∧ (t.sett i).clk.live = true then (t.sett i).setTherm 8 else t.sett j := by
  unfold State.floorOne
  split
  case isTrue h => rw [sett_modSett]; simp [h]
  case isFalse h => simp [h]

theorem foldl_floorOne {i : Nat} (l : List Nat) (s : State) (h : (i ∈ l ∧ (s.sett i).clk.live = true) ∨ (s.sett i).floored) :
    ((l.foldl State.floorOne s).sett i).floored := by
  induction l generalizing s with
  | nil => exact h.resolve_left fun h => List.not_mem_nil h.1
  | cons k l ih =>
    refine ih _ ?_
    rw [floorOne_sett]
    split
    case isTrue hk => exact Or.inr (setTherm_therm _ 8)
    case isFalse hk => exact h.imp_left fun h => ⟨(List.mem_cons.mp h.1).resolve_left fun hi => hk ⟨hi, hi ▸ h.2⟩, h.2⟩

theorem floorAll_sett {s : State} {i : Nat} (hi : i < 272) (h : (s.sett i).clk.live = true) : (s.floorAll.sett i).floored :=
  foldl_floorOne (List.range 272) s (Or.inl ⟨List.mem_range.mpr hi, h⟩)

theorem floorAll_frame (s : State) : ∃ st, s.floorAll = { s with setts := st } := by
  have h : ∀ (l : List Nat) (t : State), ∃ st, l.foldl State.floorOne t = { t with setts := st } := by
    intro l
    induction l with
    | nil => exact fun t => ⟨t.setts, rfl⟩
    | cons k l ih =>
      intro t
      obtain ⟨st, hst⟩ := ih (t.floorOne k)
      obtain ⟨st', hst'⟩ : ∃ st', t.floorOne k = { t with setts := st' } := by
        unfold State.floorOne
        split
        · exact ⟨_, rfl⟩
        · exact ⟨t.setts, rfl⟩
      exact ⟨st, by rw [List.foldl_cons, hst, hst']⟩
  exact h (List.range 272) s

theorem coolingLost_frame (s : State) : ∃ gals x c, s.coolingLost = { s with
    ledger := if s.ledger.state = .idle then s.ledger else (s.recordAbort abCooling []).ledger, gals := gals, host := x, ctxs := c } := by
  obtain ⟨led, gals, h⟩ := recordAbort_if_frame (s.ledger.state = .idle) s abCooling []
  have hled : (if s.ledger.state = .idle then s else s.recordAbort abCooling []).ledger =
      if s.ledger.state = .idle then s.ledger else (s.recordAbort abCooling []).ledger := by split <;> rfl
  rw [← hled, h]
  unfold State.coolingLost
  dsimp only
  rw [h]
  obtain ⟨x, c, hx⟩ := offHost_frame ((offHost_ctxEvents _ _ _).trans (offHost_panelEvent { s with ledger := led, gals := gals } (event 0x87 0 s.g0Time.toNat)))
  exact ⟨gals, x, c, hx⟩

/-- Requests that can no longer be granted leave their meadows dark. -/
def State.undefer (t : State) (r : InrushReq) : State := if t.meadowState r.meadow = 1 then t.setMeadow r.meadow 0 else t

theorem foldl_undefer_frame (l : List InrushReq) (s : State) : ∃ w, l.foldl State.undefer s = { s with power := { s.power with meadow := w } } := by
  induction l generalizing s with
  | nil => exact ⟨s.power.meadow, rfl⟩
  | cons r l ih =>
    obtain ⟨w, hw⟩ := ih (s.undefer r)
    obtain ⟨w', hw'⟩ : ∃ w', s.undefer r = { s with power := { s.power with meadow := w' } } := by
      unfold State.undefer
      split
      · exact ⟨_, rfl⟩
      · exact ⟨s.power.meadow, rfl⟩
    exact ⟨w, by rw [List.foldl_cons, hw, hw']⟩

/-- A meadow that is not DEFERRED keeps its register. -/
theorem foldl_undefer_meadow {m : Nat} (l : List InrushReq) (s : State) (h : s.meadowState m ≠ 1) : (l.foldl State.undefer s).meadow m = s.meadow m := by
  induction l generalizing s with
  | nil => rfl
  | cons r l ih =>
    have hone : (s.undefer r).meadow m = s.meadow m := by
      unfold State.undefer
      split
      case isTrue hr => exact (modMeadow_meadow _ _ _ _).trans (if_neg fun hm => h (by rw [hm]; exact hr))
      case isFalse => rfl
    have hst : (s.undefer r).meadowState m ≠ 1 := by
      rw [State.meadowState, hone]
      exact h
    exact (ih _ hst).trans hone

/-- The state without the requests and jobs of commands. -/
def State.refused (s : State) : State :=
  { s with power := { s.power with requests := s.power.requests.filter (fun r => r.cmd.isNone),
                                   jobs := s.power.jobs.filter fun j => !((s.power.requests.filterMap InrushReq.cmd).dedup).contains j.cmd } }

theorem refuseWaiting_eq (s : State) : s.refuseWaiting =
    ((s.power.requests.filter fun r => r.cmd.isSome).foldl State.undefer s.refused).completeAll ((s.power.requests.filterMap InrushReq.cmd).dedup) 5 := rfl

theorem refuseWaiting_frame (s : State) : ∃ pw x c, s.refuseWaiting = { s with power := pw, host := x, ctxs := c } := by
  obtain ⟨w, hw⟩ := foldl_undefer_frame (s.power.requests.filter fun r => r.cmd.isSome) s.refused
  rw [refuseWaiting_eq, hw]
  obtain ⟨x, c, h⟩ := offHost_frame (offHost_completeAll { s.refused with power := { s.refused.power with meadow := w } }
    ((s.power.requests.filterMap InrushReq.cmd).dedup) 5)
  exact ⟨_, x, c, h⟩

theorem refuseWaiting_meadow {s : State} {m : Nat} (h : s.meadowState m ≠ 1) : s.refuseWaiting.meadow m = s.meadow m := by
  have hm := foldl_undefer_meadow (m := m) (s.power.requests.filter fun r => r.cmd.isSome) s.refused h
  obtain ⟨x, c, hx⟩ := offHost_frame (offHost_completeAll ((s.power.requests.filter fun r => r.cmd.isSome).foldl State.undefer s.refused)
    ((s.power.requests.filterMap InrushReq.cmd).dedup) 5)
  rw [refuseWaiting_eq, hx]
  exact hm

/-- FLOOR at every running sett, the abort of the pass, and the requests that are refused (R391, R393). -/
theorem coolingStops_spec (s : State) : s.floorAll.coolingLost.refuseWaiting.thermal = s.thermal
    ∧ s.floorAll.coolingLost.refuseWaiting.alert = s.alert
    ∧ (∀ i < 272, (s.sett i).clk.live = true → (s.floorAll.coolingLost.refuseWaiting.sett i).floored)
    ∧ (s.ledger.state = .running → s.floorAll.coolingLost.refuseWaiting.ledger.outcome = .aborted
      ∧ s.floorAll.coolingLost.refuseWaiting.ledger.reason = BitVec.ofNat 8 abCooling) := by
  have hfloor := fun i hi => floorAll_sett (s := s) (i := i) hi
  obtain ⟨setts, hsetts⟩ := floorAll_frame s
  obtain ⟨gals, x, c, hcool⟩ := coolingLost_frame s.floorAll
  obtain ⟨pw, x', c', hrefuse⟩ := refuseWaiting_frame s.floorAll.coolingLost
  rw [hsetts] at hfloor hcool hrefuse ⊢
  rw [hcool] at hrefuse ⊢
  rw [hrefuse]
  refine ⟨rfl, rfl, fun i hi hlive => hfloor i hi hlive, fun hrun => ?_⟩
  have hidle : ¬ s.ledger.state = .idle := by rw [hrun]; exact nofun
  dsimp only
  rw [if_neg hidle]
  exact recordAbort_running (s := { s with setts := setts }) hrun abCooling []

/-- The state in which a coolant stop is declared, with TH_STATUS as given. -/
def State.declared (s : State) (st : BitVec 64) : State := State.alertBit { s with thermal := { s.thermal with status := st, lostAt := s.tclk } } 1

theorem declared_spec (s : State) {st : BitVec 64} (h : bit st 62 = true) : bit (s.declared st).thermal.status 62 = true
    ∧ (s.declared st).thermal.lostAt = s.tclk ∧ bit (s.declared st).alert 1 = true ∧ (∀ i, (s.declared st).sett i = s.sett i)
    ∧ (s.declared st).ledger = s.ledger := by
  obtain ⟨a, hbit, ha⟩ := alertBit_frame { s with thermal := { s.thermal with status := st, lostAt := s.tclk } } (n := 1) (by decide)
  rw [State.declared, ha]
  exact ⟨h, rfl, hbit, fun _ => rfl, rfl⟩

theorem coolantStop_eq {s : State} (h : bit s.thermal.status 62 = false) :
    s.coolantStop = (s.declared (setBit s.thermal.status 62 true)).floorAll.coolingLost.refuseWaiting := if_neg (Bool.eq_false_iff.mp h)

/-- A coolant stop is declared: COOL_LOST and its time, the alert, FLOOR at every running sett, and the abort of the pass (R391). -/
theorem coolantStop_spec {s : State} (h : bit s.thermal.status 62 = false) : bit s.coolantStop.thermal.status 62 = true
    ∧ s.coolantStop.thermal.lostAt = s.tclk ∧ bit s.coolantStop.alert 1 = true
    ∧ (∀ i < 272, (s.sett i).clk.live = true → (s.coolantStop.sett i).floored)
    ∧ (s.ledger.state = .running → s.coolantStop.ledger.outcome = .aborted ∧ s.coolantStop.ledger.reason = BitVec.ofNat 8 abCooling) := by
  obtain ⟨hstatus, hlost, halert, hsett, hledger⟩ :=
    declared_spec s (st := setBit s.thermal.status 62 true) ((bit_setBit (by decide) _).trans (if_pos rfl))
  rw [coolantStop_eq h]
  generalize s.declared (setBit s.thermal.status 62 true) = u at hstatus hlost halert hsett hledger
  obtain ⟨hthermal', halert', hsetts', hled'⟩ := coolingStops_spec u
  rw [hthermal', halert']
  rw [hledger] at hled'
  exact ⟨hstatus, hlost, halert, fun i hi hlive => hsetts' i hi (by rw [hsett]; exact hlive), hled'⟩

end Sys2Proof.Machine
end

section
/-! SUPPORT. The rows of coolant, sensors, guard, manager and hardware trip (R383 to R394). -/

namespace Sys2Proof.Machine

/-! ### Coolant -/

/-- The state in which a coolant read is judged. -/
def State.reading (s : State) (dt : Nat) : State := (s.pass dt).edge 0 598

theorem read_lowRun (x : Thermal) (inl out flow : BitVec 16) (now : Nat) :
    (x.read inl out flow now).lowRun = if x.stopFlow flow.toNat then x.lowRun + 1 else 0 := rfl

theorem read_coolLost (x : Thermal) (inl out flow : BitVec 16) (now : Nat) : bit (x.read inl out flow now).status 62 = bit x.status 62 := by
  unfold Thermal.read
  dsimp only
  split
  · rw [bit_setBit (by decide), if_neg (by decide)]
  · rfl

theorem read_stops {x : Thermal} {inl out flow : BitVec 16} {now : Nat} : (x.rises out || 6 ≤ (x.read inl out flow now).lowRun) = true ↔
    x.rises out = true ∨ (x.stopFlow flow.toNat = true ∧ 5 ≤ x.lowRun) := by
  rw [read_lowRun, Bool.or_eq_true, decide_eq_true_eq]
  refine or_congr_right ?_
  split
  case isTrue h => simp [h]
  case isFalse h => simp [h]

theorem coolantRead_good (s : State) (inl out flow : BitVec 16) (dt : Nat) : execCoolantRead (some (inl, out, flow)) dt s = .next
    (if (s.thermal.rises out || 6 ≤ (s.thermal.read inl out flow (s.reading dt).tclk).lowRun) = true then
      State.coolantStop { s.reading dt with thermal := s.thermal.read inl out flow (s.reading dt).tclk }
    else { s.reading dt with thermal := s.thermal.read inl out flow (s.reading dt).tclk }) := rfl

theorem coolantRead_failed {s : State} {dt : Nat} (h : s.thermal.badRun ≠ 4) : execCoolantRead none dt s = .next { s.reading dt with thermal := { s.thermal with
    coolant := satFld s.thermal.coolant 7 0 1, badRun := s.thermal.badRun + 1, lowRun := 0, outlets := s.thermal.outlets.drop 1 } } :=
  congrArg _ (if_neg fun h' : s.thermal.badRun + 1 = 5 => h (Nat.succ.inj h'))

theorem coolantRead_stale {s : State} {dt : Nat} (h : s.thermal.badRun = 4) : execCoolantRead none dt s = .next
    ((State.alertBit { s.reading dt with thermal := { s.thermal with coolant := setBit (satFld s.thermal.coolant 7 0 1) 15 true, badRun := 5, lowRun := 0
                                                                     outlets := s.thermal.outlets.drop 1, ratedAt := none, goodAt := none } } 3).panelEvent
      (event 0x86 0xFFFFFFFF 0)) := by
  have h5 : s.thermal.badRun + 1 = 5 := by rw [h]
  rw [← h5]
  exact congrArg _ (if_pos h5)

/-! ### FLOW_LOW, the end of a stop, the release of the guard -/

/-- Whether a FLOW_LOW event is posted again (R390). -/
def Thermal.postsFlow (x : Thermal) (now : Nat) : Bool :=
  match x.flowEvAt with
  | some a => !bit x.status 61 || a + 10000000000 ≤ now
  | none => true

/-- The state with FLOW_LOW set. -/
def State.flowLow (t : State) (at_ : Option Nat) : State :=
  State.alertBit { t with thermal := { t.thermal with status := setBit t.thermal.status 61 true, flowEvAt := at_ } } 2

/-- Whether something has held for a time `d`. -/
def heldFor (o : Option Nat) (d now : Nat) : Bool := o.any fun a => decide (a + d ≤ now)

theorem heldFor_true {o : Option Nat} {a d now : Nat} (ha : o = some a) (h : a + d ≤ now) : heldFor o d now = true := by
  rw [ha]
  exact decide_eq_true h

theorem heldFor_false {o : Option Nat} {d now : Nat} (h : ∀ a, o = some a → now < a + d) : heldFor o d now = false := by
  cases o with
  | none => rfl
  | some a => exact decide_eq_false (Nat.not_le.mpr (h a rfl))

/-- The FLOW_LOW condition at a time (R390). -/
def State.flowJudged (t : State) : State :=
  let post := t.thermal.postsFlow t.tclk
  let u := t.flowLow (if post then some t.tclk else t.thermal.flowEvAt)
  if post then u.panelEvent u.thermal.flowEvent else u

theorem flowLow_eq (s : State) (dt : Nat) :
    execFlowLow dt s = .next (if (!heldFor s.thermal.slowAt 1000000000 (s.pass dt).tclk) = true then s.pass dt else (s.pass dt).flowJudged) := rfl

theorem flowLow_early {s : State} {dt : Nat} (h : ∀ a, s.thermal.slowAt = some a → (s.pass dt).tclk < a + 1000000000) :
    execFlowLow dt s = .next (s.pass dt) := by
  rw [flowLow_eq, heldFor_false h]
  rfl

theorem flowLow_due {s : State} {dt a : Nat} (ha : s.thermal.slowAt = some a) (hdue : a + 1000000000 ≤ (s.pass dt).tclk) :
    execFlowLow dt s = .next (s.pass dt).flowJudged := by
  rw [flowLow_eq, heldFor_true ha hdue]
  rfl

theorem flowJudged_posts {t : State} (h : t.thermal.flowEvAt = none ∨ bit t.thermal.status 61 = false) :
    t.flowJudged = (t.flowLow (some t.tclk)).panelEvent (t.flowLow (some t.tclk)).thermal.flowEvent := by
  have hpost : t.thermal.postsFlow t.tclk = true := by
    unfold Thermal.postsFlow
    rcases h with h | h
    · rw [h]
    · split <;> simp [h]
  unfold State.flowJudged
  dsimp only
  rw [hpost, if_pos rfl, if_pos rfl]

theorem postsFlow_soon {x : Thermal} {b now : Nat} (hb : x.flowEvAt = some b) (hlow : bit x.status 61 = true) (hsoon : now < b + 10000000000) :
    x.postsFlow now = false := by
  unfold Thermal.postsFlow
  rw [hb]
  dsimp only
  rw [hlow, decide_eq_false (Nat.not_le.mpr hsoon)]
  rfl

theorem flowJudged_silent {t : State} (h : t.thermal.postsFlow t.tclk = false) : t.flowJudged = t.flowLow t.thermal.flowEvAt := by
  unfold State.flowJudged
  dsimp only
  rw [h, if_neg Bool.false_ne_true, if_neg Bool.false_ne_true]

theorem coolLostClear_eq (s : State) (dt : Nat) : execCoolLostClear dt s = .next (if heldFor s.thermal.ratedAt 1000000000 (s.pass dt).tclk = true then
    { s.pass dt with thermal := { s.thermal with status := setBit s.thermal.status 62 false, lowRun := 0 } } else s.pass dt) := rfl

theorem coolLostClear_due {s : State} {dt a : Nat} (ha : s.thermal.ratedAt = some a) (hdue : a + 1000000000 ≤ (s.pass dt).tclk) :
    execCoolLostClear dt s = .next { s.pass dt with thermal := { s.thermal with status := setBit s.thermal.status 62 false, lowRun := 0 } } := by
  rw [coolLostClear_eq, if_pos (heldFor_true ha hdue)]

theorem coolLostClear_early {s : State} {dt : Nat} (h : ∀ a, s.thermal.ratedAt = some a → (s.pass dt).tclk < a + 1000000000) :
    execCoolLostClear dt s = .next (s.pass dt) := by
  rw [coolLostClear_eq, heldFor_false h, if_neg Bool.false_ne_true]

/-- The sett with its guard released when it has been cool for 1 ms (R389). -/
def Sett.release (x : Sett) (now : Nat) : Sett :=
  match x.guardOn, x.coolAt with
  | true, some a => if a + 1000000 ≤ now then { x with guardOn := false, coolAt := none } else x
  | _, _ => x

theorem guardRelease_eq (s : State) (i : Site) (dt : Nat) :
    execGuardRelease i dt s = .next ((s.pass dt).setSett i.val ((s.sett i.val).release (s.pass dt).tclk)) := rfl

theorem release_due {x : Sett} {now a : Nat} (hg : x.guardOn = true) (ha : x.coolAt = some a) (h : a + 1000000 ≤ now) :
    x.release now = { x with guardOn := false, coolAt := none } := by
  unfold Sett.release
  rw [hg, ha]
  exact if_pos h

theorem release_stays {x : Sett} {now : Nat} (h : x.guardOn = false ∨ ∀ a, x.coolAt = some a → now < a + 1000000) : x.release now = x := by
  unfold Sett.release
  split
  case h_1 a hg ha =>
    rcases h with h | h
    · rw [h] at hg
      cases hg
    · exact if_neg (Nat.not_le.mpr (h a ha))
  case h_2 => rfl

/-! ### Sensors -/

theorem comparePair_frame (x : Sett) (p now : Nat) : ∃ d, x.comparePair p now = { x with disagree := d } := by
  unfold Sett.comparePair
  dsimp only
  split
  · split
    · exact ⟨_, rfl⟩
    · exact ⟨x.disagree, rfl⟩
  · exact ⟨_, rfl⟩

theorem retherm_frame (x : Sett) (v : BitVec 16) : ∃ th, x.retherm v = { x with therm := th } := ⟨_, rfl⟩

/-- Whether a governing sensor reads 108 °C (R389). -/
def Sett.hot (x : Sett) : Bool := x.governing.any fun k => decide (1728 ≤ x.reading k)

/-- The sett whose guard has come on. -/
def Sett.alarmed (x : Sett) : Sett := if x.hot && !x.guardOn then { x with guardOn := true, therm := satFld x.therm 15 8 1 } else x

theorem guard_eq (x : Sett) (now : Nat) : ∃ c, x.guard now = { (if x.hot then x.alarmed.setTherm 8 else x.alarmed) with coolAt := c } := ⟨_, rfl⟩

theorem alarmed_frame (x : Sett) : ∃ g th, x.alarmed = { x with guardOn := g, therm := th } ∧ (x.hot = true → g = true) := by
  unfold Sett.alarmed
  split
  case isTrue => exact ⟨true, _, rfl, fun _ => rfl⟩
  case isFalse h => exact ⟨x.guardOn, x.therm, rfl, fun hh => by simpa [hh] using h⟩

/-- What the guard changes; at 108 °C it is on and THERM at FLOOR (R389). -/
theorem guard_frame (x : Sett) (now : Nat) : ∃ g th a c, x.guard now = { x.withAclk a with guardOn := g, therm := th, coolAt := c }
    ∧ (x.hot = true → g = true ∧ fld a 46 40 = 8) := by
  obtain ⟨c, hguard⟩ := guard_eq x now
  obtain ⟨g, th, halarm, hon⟩ := alarmed_frame x
  rw [hguard, halarm]
  by_cases hhot : x.hot = true
  · obtain ⟨a, ha, hset⟩ := setTherm_frame { x with guardOn := g, therm := th } 8
    rw [if_pos hhot, hset]
    exact ⟨g, th, a, c, rfl, fun _ => ⟨hon hhot, ha⟩⟩
  · rw [if_neg hhot]
    exact ⟨g, th, x.clk.aclk, c, rfl, fun h => absurd h hhot⟩

/-- The register of a sensor after a sample (R384). -/
def sampledReg (v : BitVec 32) (temp : BitVec 16) : BitVec 32 :=
  setBit (setFld v 15 0 temp.toNat) 31 (decide (-640 ≤ temp.toInt) && decide (temp.toInt ≤ 2400))

theorem sampledReg_spec (v : BitVec 32) (temp : BitVec 16) : fld (sampledReg v temp) 15 0 = temp.toNat ∧ bit (sampledReg v temp) 30 = bit v 30
    ∧ (bit (sampledReg v temp) 31 = true ↔ -640 ≤ temp.toInt ∧ temp.toInt ≤ 2400) := by
  unfold sampledReg
  refine ⟨?_, ?_, ?_⟩
  · rw [fld_setBit_ne (by decide) (by decide), fld_setFld (by decide) (by decide)]
    exact Nat.mod_eq_of_lt temp.isLt
  · rw [bit_setBit (by decide), if_neg (by decide), bit_setFld_ne (by decide) (by decide) (by decide)]
  · rw [bit_setBit (by decide), if_pos rfl, Bool.and_eq_true, decide_eq_true_eq, decide_eq_true_eq]

/-- The sett after a sample of sensor k, with what an unknown hot spot reads as. -/
def Sett.sampled (x : Sett) (k : Nat) (temp v : BitVec 16) (now : Nat) : Sett :=
  ((((x.sample k temp).comparePair (k / 2) now).retherm v).guard now)

theorem sampled_spec (x : Sett) (k : Nat) (temp v : BitVec 16) (now : Nat) :
    (∀ j, (x.sampled k temp v now).temp j = if j = k then sampledReg (x.temp k) temp else x.temp j)
    ∧ ∀ j ∈ (x.sampled k temp v now).governing, 1728 ≤ (x.sampled k temp v now).reading j →
      (x.sampled k temp v now).guardOn = true ∧ (x.sampled k temp v now).floored := by
  have htemp : ∀ j, (x.sample k temp).temp j = if j = k then sampledReg (x.temp k) temp else x.temp j := fun j => get_set _ _ _ _ _
  unfold Sett.sampled
  obtain ⟨d, hd⟩ := comparePair_frame (x.sample k temp) (k / 2) now
  rw [hd]
  generalize x.sample k temp = w at htemp
  obtain ⟨th, hth⟩ := retherm_frame { w with disagree := d } v
  rw [hth]
  obtain ⟨g, th', a, c, hguard, hhot⟩ := guard_frame { w with disagree := d, therm := th } now
  rw [hguard]
  refine ⟨htemp, fun j hj hr => hhot ?_⟩
  exact List.any_eq_true.mpr ⟨j, hj, decide_eq_true hr⟩

theorem sensorSample_off {s : State} {i : Site} {k : Fin 16} {temp : BitVec 16} (h : (s.sett i.val).powered = false) :
    execSensorSample i k temp s = .next s := congrArg _ (if_neg (Bool.eq_false_iff.mp h))

/-- What an unknown hot spot reads as is a free value. -/
theorem drawn_frame (s : State) (known : Bool) : ∃ v n, (if known then ((0 : BitVec 256), s) else s.fresh) = (v, { s with free := n }) := by
  cases known
  · exact ⟨_, s.free + 1, rfl⟩
  · exact ⟨0, s.free, rfl⟩

/-- The sett once a sample of sensor k has been compared with its pair. -/
def Sett.compared (x : Sett) (k : Nat) (temp : BitVec 16) (now : Nat) : Sett := (x.sample k temp).comparePair (k / 2) now

theorem sampled_eq (x : Sett) (k : Nat) (temp v : BitVec 16) (now : Nat) :
    x.sampled k temp v now = ((x.compared k temp now).retherm v).guard now := rfl

theorem sensorSample_on {s : State} {i : Site} {k : Fin 16} {temp : BitVec 16} (h : (s.sett i.val).powered = true) :
    ∃ v n, execSensorSample i k temp s = .next (State.setSett { s with free := n } i.val ((s.sett i.val).sampled k.val temp v s.tclk)) := by
  simp only [sampled_eq]
  unfold execSensorSample
  rw [if_pos h]
  extract_lets x
  have hx : (s.sett i.val).compared k.val temp s.tclk = x := rfl
  rw [hx]
  obtain ⟨v, n, hdrawn⟩ := drawn_frame s x.hotSpot.isSome
  rw [hdrawn]
  exact ⟨v.setWidth 16, n, rfl⟩

/-! ### Suspect sensors -/

/-- The sett with a sensor set aside (R385). -/
def Sett.suspecting (x : Sett) (k p : Nat) : Sett :=
  { x with temps := Tab.mod 0 x.temps k fun v => setBit v 30 true, disagree := Tab.set 0 x.disagree p 0 }

theorem suspecting_spec (x : Sett) (k p : Nat) : bit ((x.suspecting k p).temp k) 30 = true ∧ Tab.get 0 (x.suspecting k p).disagree p = 0 := by
  constructor
  · have h : (x.suspecting k p).temp k = setBit (x.temp k) 30 true := by
      unfold Sett.suspecting Sett.temp
      rw [get_mod, if_pos rfl]
    rw [h, bit_setBit (by decide), if_pos rfl]
  · unfold Sett.suspecting
    rw [get_set, if_pos rfl]

theorem sensorDisagree_waits {s : State} {i : Site} {p : Fin 8} {est : BitVec 16}
    (h : Tab.get 0 (s.sett i.val).disagree p.val = 0 ∨ s.tclk + 1 ≤ Tab.get 0 (s.sett i.val).disagree p.val + 100000000) :
    execSensorDisagree i p est s = .next s := congrArg _ (if_pos h)

/-- The state in which a suspect sensor is told of, with TH_STATUS as given. -/
def State.suspectTold (u : State) (st : BitVec 64) (e : EventRec) : State :=
  (State.alertBit { u with thermal := { u.thermal with status := st } } 6).panelEvent e

theorem sensorDisagree_due {s : State} {i : Site} {p : Fin 8} {est : BitVec 16} (h0 : Tab.get 0 (s.sett i.val).disagree p.val ≠ 0)
    (h : Tab.get 0 (s.sett i.val).disagree p.val + 100000000 < s.tclk + 1) {k : Nat} (hk : k = (s.sett i.val).farther p.val est.toInt) :
    execSensorDisagree i p est s = .next ((s.setSett i.val (((s.sett i.val).suspecting k p.val).retherm 0)).suspectTold
      (satFld s.thermal.status 39 32 1) (event 0x85 i.val k)) := by
  subst hk
  exact congrArg _ (if_neg (not_or.mpr ⟨h0, Nat.not_le.mpr h⟩))

theorem retherm_keeps {y : Sett} {k p : Nat} {v : BitVec 16} (hbit : bit (y.temp k) 30 = true) (hdis : Tab.get 0 y.disagree p = 0) :
    bit ((y.retherm v).temp k) 30 = true ∧ Tab.get 0 (y.retherm v).disagree p = 0 := by
  obtain ⟨th, hth⟩ := retherm_frame y v
  rw [hth]
  exact ⟨hbit, hdis⟩

theorem suspecting_retherm (x : Sett) (k p : Nat) (v : BitVec 16) :
    bit (((x.suspecting k p).retherm v).temp k) 30 = true ∧ Tab.get 0 ((x.suspecting k p).retherm v).disagree p = 0 := by
  obtain ⟨hbit, hdis⟩ := suspecting_spec x k p
  exact retherm_keeps hbit hdis

/-- What telling of a suspect sensor leaves: the setts, the alert, and TH_STATUS. -/
theorem suspectTold_spec (u : State) (st : BitVec 64) (e : EventRec) (i : Nat) : (u.suspectTold st e).sett i = u.sett i
    ∧ bit (u.suspectTold st e).alert 6 = true ∧ (u.suspectTold st e).thermal.status = st := by
  obtain ⟨a, halert, ha⟩ := alertBit_frame { u with thermal := { u.thermal with status := st } } (n := 6) (by decide)
  rw [State.suspectTold, ha]
  obtain ⟨x, c, hx⟩ := offHost_frame (offHost_panelEvent { u with thermal := { u.thermal with status := st }, alert := a } e)
  rw [hx]
  exact ⟨rfl, halert, rfl⟩

/-! ### The manager's tick -/

theorem noteHottest_frame (s : State) : ∃ st, s.noteHottest = { s with thermal := { s.thermal with status := st } } := by
  unfold State.noteHottest
  split
  · exact ⟨_, rfl⟩
  · exact ⟨s.thermal.status, rfl⟩

/-- The state after the tick of one powered sett. -/
def State.ticked (s : State) (f : Forecast) (dt : Nat) (lost : Bool) : State := ((s.pass dt).modSett f.site.val fun x => x.tick lost f).noteHottest

theorem thermalTick_one {s : State} {f : Forecast} {dt : Nat} (h : (s.sett f.site.val).powered = true) : execThermalTick [f] dt s = .next
    (if bit s.thermal.status 62 && [f].any Forecast.crosses then (s.ticked f dt (bit s.thermal.status 62)).darken
      else s.ticked f dt (bit s.thermal.status 62)) := by
  have hfold : ([f].foldl (fun t f => if (t.sett f.site.val).powered then t.modSett f.site.val (fun x => x.tick (bit s.thermal.status 62) f) else t)
      (s.pass dt)) = (s.pass dt).modSett f.site.val fun x => x.tick (bit s.thermal.status 62) f := if_pos h
  unfold State.ticked
  rw [← hfold]
  rfl

theorem ticked_sett (s : State) (f : Forecast) (dt : Nat) (lost : Bool) :
    (s.ticked f dt lost).sett f.site.val = (s.sett f.site.val).tick lost f := by
  obtain ⟨st, h⟩ := noteHottest_frame ((s.pass dt).modSett f.site.val fun x => x.tick lost f)
  have hsett : ((s.pass dt).modSett f.site.val fun x => x.tick lost f).sett f.site.val = (s.sett f.site.val).tick lost f :=
    (sett_modSett _ _ _ _).trans (if_pos rfl)
  rw [State.ticked, h, ← hsett]
  rfl

theorem ticked_frame (s : State) (f : Forecast) (dt : Nat) (lost : Bool) :
    ∃ setts th, s.ticked f dt lost = { s with tclk := s.tclk + dt, setts := setts, thermal := th } := by
  obtain ⟨st, h⟩ := noteHottest_frame ((s.pass dt).modSett f.site.val fun x => x.tick lost f)
  exact ⟨_, _, h⟩

/-- THERM after a tick without a coolant stop (R387, R389). -/
theorem tick_runs {x y : Sett} {f : Forecast} (hy : y = { x with therm := setFld x.therm 63 48 f.temp.toNat }) : x.tick false f =
    if y.guardOn then y.setTherm 8 else if f.maxStep.toNat < fld y.clk.aclk 46 40 then y.setTherm f.maxStep.toNat
      else y.setTherm (min (fld y.clk.aclk 46 40 + 1) f.maxStep.toNat) := by
  subst hy
  unfold Sett.tick
  dsimp only
  rw [Bool.false_or]

theorem tick_floored (x : Sett) (f : Forecast) : (x.tick true f).floored := by
  have h : x.tick true f = Sett.setTherm { x with therm := setFld x.therm 63 48 f.temp.toNat } 8 := by
    unfold Sett.tick
    exact if_pos (Bool.true_or _)
  rw [h]
  exact setTherm_therm _ 8

theorem foldl_planOff_frame (l : List Nat) (s : State) : ∃ k, l.foldl State.planOff s = { s with power := { s.power with turnOff := k } } := by
  induction l generalizing s with
  | nil => exact ⟨s.power.turnOff, rfl⟩
  | cons m l ih =>
    obtain ⟨k, hk⟩ := ih (s.planOff m)
    obtain ⟨k', hk'⟩ := planOff_frame s m
    exact ⟨k, by rw [List.foldl_cons, hk, hk']⟩

theorem planOff_mem {s : State} {m k : Nat} (h : (m = k ∧ s.meadowState m = 3) ∨ m ∈ s.power.turnOff) : m ∈ (s.planOff k).power.turnOff := by
  rw [planOff_turnOff]
  split
  · exact mem_addOnce.mpr (h.imp_left And.left)
  case isFalse hk => exact h.resolve_left fun h => hk (h.1 ▸ h.2)

theorem foldl_planOff_mem {m : Nat} (l : List Nat) (s : State) (h : (m ∈ l ∧ s.meadowState m = 3) ∨ m ∈ s.power.turnOff) :
    m ∈ (l.foldl State.planOff s).power.turnOff := by
  induction l generalizing s with
  | nil => exact h.resolve_left fun h => List.not_mem_nil h.1
  | cons k l ih =>
    obtain ⟨o, ho⟩ := planOff_frame s k
    have hstate : (s.planOff k).meadowState m = s.meadowState m := by rw [ho]; rfl
    refine ih _ ?_
    rw [hstate]
    by_cases hk : m = k
    · exact Or.inr (planOff_mem (h.imp_left fun h => ⟨hk, h.2⟩))
    · exact h.imp (fun h => ⟨(List.mem_cons.mp h.1).resolve_left hk, h.2⟩) fun h => planOff_mem (Or.inr h)

theorem nextDark_on {s : State} {m : Nat} (h : m ∈ s.nextDark) : s.meadowState m = 3 := by
  unfold State.nextDark at h
  cases hb : (([[3, 4], [2, 5], [1, 6], [0, 7]].map fun b => b.filter fun m => s.meadowState m = 3 && !s.power.turnOff.contains m).find? fun b => !b.isEmpty) with
  | none =>
    rw [hb] at h
    exact absurd h List.not_mem_nil
  | some b =>
    rw [hb] at h
    obtain ⟨l, -, rfl⟩ := List.mem_map.mp (List.mem_of_find?_eq_some hb)
    have hm := (List.mem_filter.mp h).2
    rw [Bool.and_eq_true, decide_eq_true_eq] at hm
    exact hm.1

theorem darken_idle {s : State} (h : s.ledger.state = .idle) : s.darken = s.nextDark.foldl State.planOff s := if_pos h

/-! ### The hardware trip -/

/-- What opening e-fuses for heat leaves of the grid: the thermal state, the pins and GAL_ALERT. -/
theorem tripMeadow_hot (s : State) (m : Nat) : (s.tripMeadow m 6).thermal = s.thermal ∧ (s.tripMeadow m 6).pins = s.pins
    ∧ (s.tripMeadow m 6).alert = s.alert := by
  by_cases h : 2 ≤ s.meadowState m ∧ s.meadowState m ≤ 4
  · have hg := tripMeadow_grid (cause := 6) h.1 h.2
    have halert : (s.grid.tripped m 6 (s.shortAgain m 6) (s.meadowOn m)).alert = s.alert := by
      unfold Grid.tripped
      dsimp only
      rw [if_pos rfl]
      rfl
    exact ⟨congrArg Grid.thermal hg, congrArg Grid.pins hg, (congrArg Grid.alert hg).trans halert⟩
  · have hs : s.tripMeadow m 6 = s := if_pos (by rw [Bool.or_eq_true, decide_eq_true_eq, decide_eq_true_eq]; omega)
    rw [hs]
    exact ⟨rfl, rfl, rfl⟩

theorem tripMeadow_dead {s : State} {m cause : Nat} (h : ¬ (2 ≤ s.meadowState m ∧ s.meadowState m ≤ 4)) : s.tripMeadow m cause = s :=
  if_pos (by rw [Bool.or_eq_true, decide_eq_true_eq, decide_eq_true_eq]; omega)

theorem foldl_tripMeadow_hot (l : List Nat) (s : State) : (l.foldl (fun t m => t.tripMeadow m 6) s).thermal = s.thermal
    ∧ (l.foldl (fun t m => t.tripMeadow m 6) s).pins = s.pins ∧ (l.foldl (fun t m => t.tripMeadow m 6) s).alert = s.alert := by
  induction l generalizing s with
  | nil => exact ⟨rfl, rfl, rfl⟩
  | cons m l ih =>
    obtain ⟨h1, h2, h3⟩ := ih (s.tripMeadow m 6)
    obtain ⟨g1, g2, g3⟩ := tripMeadow_hot s m
    exact ⟨h1.trans g1, h2.trans g2, h3.trans g3⟩

/-- PWR_MEADOW_m of a meadow whose e-fuses have opened for heat (R394). -/
def State.heatTripped (s : State) (m : Nat) : Prop := s.meadowState m = 5 ∧ fld (s.meadow m) 3 0 = 6

theorem tripMeadow_heat {s : State} {m k : Nat} (h : (m = k ∧ 2 ≤ s.meadowState m ∧ s.meadowState m ≤ 4) ∨ s.heatTripped m) :
    (s.tripMeadow k 6).heatTripped m := by
  by_cases hk : 2 ≤ s.meadowState k ∧ s.meadowState k ≤ 4
  · unfold State.heatTripped State.meadowState
    rw [tripMeadow_meadow hk.1 hk.2]
    split
    case isTrue =>
      rw [fld_trippedReg_state, fld_trippedReg_cause _ (by decide), shortAgain_trips (Or.inl (by decide)), if_neg Bool.false_ne_true]
      exact ⟨rfl, rfl⟩
    case isFalse hm => exact h.resolve_left fun h => hm h.1
  · rw [tripMeadow_dead hk]
    exact h.resolve_left fun h => hk (h.1 ▸ h.2)

theorem foldl_tripMeadow_heat {m : Nat} (l : List Nat) (s : State)
    (h : (m ∈ l ∧ 2 ≤ s.meadowState m ∧ s.meadowState m ≤ 4) ∨ s.heatTripped m) : (l.foldl (fun t m => t.tripMeadow m 6) s).heatTripped m := by
  induction l generalizing s with
  | nil => exact h.resolve_left fun h => List.not_mem_nil h.1
  | cons k l ih =>
    refine ih _ ?_
    by_cases hm : m = k
    · exact Or.inr (tripMeadow_heat (h.imp_left fun h => ⟨hm, h.2⟩))
    · refine h.imp (fun h => ⟨(List.mem_cons.mp h.1).resolve_left hm, ?_⟩) fun h => tripMeadow_heat (Or.inr h)
      by_cases hk : 2 ≤ s.meadowState k ∧ s.meadowState k ≤ 4
      · have hsame : (s.tripMeadow k 6).meadowState m = s.meadowState m := by
          rw [State.meadowState, tripMeadow_meadow hk.1 hk.2, if_neg hm]
          rfl
        dsimp only
        rw [hsame]
        exact h.2
      · dsimp only
        rw [tripMeadow_dead hk]
        exact h.2

/-- TH_STATUS with the first comparator recorded (R394). -/
def trippedStatus (st : BitVec 64) (hbm : Bool) (src : BitVec 9) : BitVec 64 := setFld (setBit (setBit st 63 true) 60 hbm) 59 51 src.toNat

theorem trippedStatus_spec (st : BitVec 64) (hbm : Bool) (src : BitVec 9) : bit (trippedStatus st hbm src) 63 = true
    ∧ bit (trippedStatus st hbm src) 60 = hbm ∧ fld (trippedStatus st hbm src) 59 51 = src.toNat := by
  unfold trippedStatus
  refine ⟨?_, ?_, ?_⟩
  · rw [bit_setFld_ne (by decide) (by decide) (by decide), bit_setBit (by decide), if_neg (by decide), bit_setBit (by decide), if_pos rfl]
  · rw [bit_setFld_ne (by decide) (by decide) (by decide), bit_setBit (by decide), if_pos rfl]
  · rw [fld_setFld (by decide) (by decide)]
    exact Nat.mod_eq_of_lt src.isLt

/-- The state with the hardware trip recorded. -/
def State.overheated (s : State) (st : BitVec 64) : State :=
  ((State.alertBit { s with thermal := { s.thermal with status := st }, pins := { s.pins with thermtrip := true } } 0).edge 0 597)

theorem overheated_spec (s : State) (st : BitVec 64) : (s.overheated st).thermal.status = st ∧ (s.overheated st).pins.thermtrip = true
    ∧ bit (s.overheated st).alert 0 = true ∧ ∀ m, (s.overheated st).meadowState m = s.meadowState m := by
  obtain ⟨a, hbit, ha⟩ := alertBit_frame { s with thermal := { s.thermal with status := st }, pins := { s.pins with thermtrip := true } } (n := 0) (by decide)
  rw [State.overheated, ha]
  exact ⟨rfl, rfl, hbit, fun _ => rfl⟩

theorem thermtrip_idle {s : State} {hbm : Bool} {src : BitVec 9} (h : bit s.thermal.status 63 = true ∨ s.pins.rimGood = false) :
    execThermtrip hbm src s = .next s := congrArg _ (if_pos (h.imp_right Bool.eq_false_iff.mp))

theorem thermtrip_trips {s : State} {hbm : Bool} {src : BitVec 9} (h : bit s.thermal.status 63 = false) (hrim : s.pins.rimGood = true) :
    execThermtrip hbm src s = .next (((List.range 8).foldl (fun t m => t.tripMeadow m 6) (s.overheated (trippedStatus s.thermal.status hbm src))).refuseWaiting) :=
  congrArg _ (if_neg (by rw [h, hrim]; simp))

/-- After the hardware trip: every meadow that had power is dark for heat, and what was recorded stays (R394). -/
theorem heat_spec (s : State) : ((List.range 8).foldl (fun t m => t.tripMeadow m 6) s).refuseWaiting.thermal = s.thermal
    ∧ ((List.range 8).foldl (fun t m => t.tripMeadow m 6) s).refuseWaiting.pins = s.pins
    ∧ ((List.range 8).foldl (fun t m => t.tripMeadow m 6) s).refuseWaiting.alert = s.alert
    ∧ ∀ m < 8, 2 ≤ s.meadowState m → s.meadowState m ≤ 4 → ((List.range 8).foldl (fun t m => t.tripMeadow m 6) s).refuseWaiting.heatTripped m := by
  obtain ⟨hth, hpins, halert⟩ := foldl_tripMeadow_hot (List.range 8) s
  have hheat := fun m h => foldl_tripMeadow_heat (m := m) (List.range 8) s h
  generalize (List.range 8).foldl (fun t m => t.tripMeadow m 6) s = u at hth hpins halert hheat
  obtain ⟨pw, x, c, h⟩ := refuseWaiting_frame u
  refine ⟨?_, ?_, ?_, fun m hm hlo hhi => ?_⟩
  · rw [h]
    exact hth
  · rw [h]
    exact hpins
  · rw [h]
    exact halert
  · obtain ⟨hstate, hcause⟩ := hheat m (Or.inl ⟨List.mem_range.mpr hm, hlo, hhi⟩)
    have hkeep : u.refuseWaiting.meadow m = u.meadow m := refuseWaiting_meadow (by rw [hstate]; decide)
    unfold State.heatTripped State.meadowState
    rw [hkeep]
    exact ⟨hstate, hcause⟩

/-- Settles O39: each row is judged by its condition; what it leaves is read off the frames of aborts, flooring and trips. -/
theorem thermalRows : Obligations.ThermalRows := by
  unfold Obligations.ThermalRows
  refine ⟨?_, ?_, ?_, ?_, ?_, ?_⟩
  · rintro s t dt x rfl rfl
    refine ⟨fun inl out flow hrise hstop => ?_, fun inl out flow hstop hlost => ?_, coolantRead_failed, coolantRead_stale⟩
    · refine (coolantRead_good s inl out flow dt).trans (congrArg _ (if_neg fun h => ?_))
      rcases read_stops.mp h with h | ⟨h, h5⟩
      · rw [hrise] at h
        cases h
      · rcases hstop with h' | h'
        · rw [h'] at h
          cases h
        · omega
    · have hrow := (coolantRead_good s inl out flow dt).trans (congrArg _ (if_pos (read_stops.mpr hstop)))
      have hnot : bit (s.thermal.read inl out flow (s.reading dt).tclk).status 62 = false := (read_coolLost _ _ _ _ _).trans hlost
      generalize s.thermal.read inl out flow (s.reading dt).tclk = th at hnot hrow
      obtain ⟨h1, h2, h3, h4, h5⟩ := coolantStop_spec (s := { s.reading dt with thermal := th }) hnot
      exact ⟨_, hrow, h1, h2, h3, h4, h5⟩
  · rintro s t dt x rfl rfl
    refine ⟨fun a ha hdue hpost => ?_, fun a b ha hdue hb hlow hsoon => ?_, flowLow_early, fun a => coolLostClear_due, coolLostClear_early, fun i =>
      ⟨fun a hg ha h => ?_, fun h => ?_⟩⟩
    · exact (flowLow_due ha hdue).trans (congrArg _ (flowJudged_posts (t := s.pass dt) hpost))
    · refine (flowLow_due ha hdue).trans (congrArg _ ((flowJudged_silent (t := s.pass dt) (postsFlow_soon hb hlow hsoon)).trans ?_))
      unfold State.flowLow
      rfl
    · exact (guardRelease_eq s i dt).trans (congrArg (fun y => Host.Outcome.next ((s.pass dt).setSett i.val y)) (release_due (now := (s.pass dt).tclk) hg ha h))
    · exact (guardRelease_eq s i dt).trans (congrArg (fun y => Host.Outcome.next ((s.pass dt).setSett i.val y)) (release_stays (now := (s.pass dt).tclk) h))
  · intro s i k temp
    refine ⟨sensorSample_off, fun h => ?_⟩
    obtain ⟨v, n, hrow⟩ := sensorSample_on (k := k) (temp := temp) h
    obtain ⟨htemp, hguard⟩ := sampled_spec (s.sett i.val) k.val temp v s.tclk
    obtain ⟨hval, hsus, hvalid⟩ := sampledReg_spec ((s.sett i.val).temp k.val) temp
    have hk := (htemp k.val).trans (if_pos rfl)
    generalize (s.sett i.val).sampled k.val temp v s.tclk = y at hrow htemp hguard hk
    have hsett : ∀ j, (State.setSett { s with free := n } i.val y).sett j = if j = i.val then y else s.sett j := fun j => sett_setSett _ _ _ _
    refine ⟨_, hrow, rfl, fun j hj => (hsett j).trans (if_neg hj), ?_⟩
    rw [(hsett i.val).trans (if_pos rfl), hk]
    exact ⟨fun j hj => (htemp j).trans (if_neg hj), hval, hsus, hvalid, hguard⟩
  · rintro s i p est since k rfl rfl
    refine ⟨sensorDisagree_waits, fun h0 h => ⟨_, sensorDisagree_due h0 h rfl, ?_⟩⟩
    obtain ⟨hsett, halert, hcount⟩ := suspectTold_spec (s.setSett i.val (((s.sett i.val).suspecting ((s.sett i.val).farther p.val est.toInt) p.val).retherm 0))
      (satFld s.thermal.status 39 32 1) (event 0x85 i.val ((s.sett i.val).farther p.val est.toInt)) i.val
    obtain ⟨hbit, hdis⟩ := suspecting_retherm (s.sett i.val) ((s.sett i.val).farther p.val est.toInt) p.val 0
    rw [hsett, sett_setSett, if_pos rfl, hcount]
    exact ⟨hbit, hdis, halert, (fld_setFld (by decide) (by decide)).trans (Nat.mod_eq_of_lt (by omega))⟩
  · intro s f dt hpow
    refine ⟨?_, fun hlost hcross hidle => ?_⟩
    · rintro y hlost hy
      obtain ⟨setts, th, hframe⟩ := ticked_frame s f dt false
      have hsett := ticked_sett s f dt false
      have hrow := thermalTick_one (dt := dt) hpow
      rw [hlost, Bool.false_and, if_neg Bool.false_ne_true] at hrow
      refine ⟨_, hrow, ?_, hsett.trans (tick_runs hy)⟩
      rw [hframe]
    · have hrow := thermalTick_one (dt := dt) hpow
      have hgo : (true && [f].any Forecast.crosses) = true := by simp [hcross]
      rw [hlost, if_pos hgo] at hrow
      obtain ⟨setts, th, hframe⟩ := ticked_frame s f dt true
      have hsett : ((s.ticked f dt true).sett f.site.val).floored := by
        rw [ticked_sett]
        exact tick_floored _ _
      rw [hframe] at hrow hsett
      rw [darken_idle (s := { s with tclk := s.tclk + dt, setts := setts, thermal := th }) hidle] at hrow
      have hmem := fun m h => foldl_planOff_mem (m := m) (s.nextDark) { s with tclk := s.tclk + dt, setts := setts, thermal := th } h
      obtain ⟨k, hk⟩ := foldl_planOff_frame s.nextDark { s with tclk := s.tclk + dt, setts := setts, thermal := th }
      refine ⟨_, hrow, ?_, fun m hm => hmem m (Or.inl ⟨hm, nextDark_on hm⟩)⟩
      have hdark : State.nextDark { s with tclk := s.tclk + dt, setts := setts, thermal := th } = s.nextDark := rfl
      rw [hdark, hk]
      exact hsett
  · intro s hbm src
    refine ⟨thermtrip_idle, fun h hrim => ?_⟩
    obtain ⟨h63, h60, hsrc⟩ := trippedStatus_spec s.thermal.status hbm src
    have hrow := thermtrip_trips (hbm := hbm) (src := src) h hrim
    generalize trippedStatus s.thermal.status hbm src = st at h63 h60 hsrc hrow
    obtain ⟨hst, hpins, halert, hstate⟩ := overheated_spec s st
    generalize s.overheated st = u at hst hpins halert hstate hrow
    obtain ⟨gth, gpins, galert, gheat⟩ := heat_spec u
    refine ⟨_, hrow, ?_⟩
    rw [gth, gpins, galert, hst]
    exact ⟨h63, h60, hsrc, hpins, halert, fun m hm hlo hhi => gheat m hm (by rw [hstate]; exact hlo) (by rw [hstate]; exact hhi)⟩

end Sys2Proof.Machine
end

section
/-! SUPPORT. Sharing the cap, turning meadows on and off, gating (R370 to R373, R376 to R381). -/

namespace Sys2Proof.Machine

/-! ### Folds over setts -/

theorem foldl_modSett_frame (f : Nat → Sett → Sett) (l : List Nat) (s : State) :
    ∃ st, l.foldl (fun t i => t.modSett i (f i)) s = { s with setts := st } := by
  induction l generalizing s with
  | nil => exact ⟨s.setts, rfl⟩
  | cons i l ih =>
    obtain ⟨st, h⟩ := ih (s.modSett i (f i))
    exact ⟨st, h⟩

/-- A fold that changes each sett of a list once. -/
theorem foldl_modSett_sett (f : Nat → Sett → Sett) (l : List Nat) (hl : l.Nodup) (s : State) (j : Nat) :
    (l.foldl (fun t i => t.modSett i (f i)) s).sett j = if j ∈ l then f j (s.sett j) else s.sett j := by
  induction l generalizing s with
  | nil => exact (if_neg List.not_mem_nil).symm
  | cons i l ih =>
    obtain ⟨hi, hl⟩ := List.nodup_cons.mp hl
    rw [List.foldl_cons, ih hl, sett_modSett]
    by_cases hj : j = i
    · subst hj
      rw [if_neg hi, if_pos rfl, if_pos List.mem_cons_self]
    · simp only [List.mem_cons, hj, false_or, if_false]

theorem liveSites_nodup (s : State) : s.liveSites.Nodup := List.nodup_range.filter _

/-! ### The allocation -/

/-- What a site may draw by the allocation of R371. -/
def State.share (s : State) (powers : Nat → Nat) (rim i : Nat) : Nat :=
  let live := s.liveSites
  let demand := fun i => min (s.sett i).maxPower (powers i + 100)
  let used := rim + 100 * s.reserve + 100 * s.grants
  let l := levelOf (live.map demand) (100 * s.capPanel - used)
  let lr := (List.range 8).map fun m => levelOf ((live.filter fun i => meadowOf i = m).map demand) (s.regionPower m)
  min (demand i) (min l (lr.getD (meadowOf i) 0))

theorem allocate_eq (s : State) (powers : Nat → Nat) (rim : Nat) : s.allocate powers rim =
    s.liveSites.foldl (fun t i => t.modSett i fun x => { x with cap := setFld x.cap 15 0 (s.share powers rim i) }) s := rfl

theorem phaseMax_le (n : Nat) : phaseMax n ≤ 1100 := by
  unfold phaseMax
  split <;> omega

theorem maxPower_le (x : Sett) : x.maxPower ≤ 1100 := by
  unfold Sett.maxPower
  split
  · exact (Nat.min_le_right _ _).trans (phaseMax_le _)
  · exact phaseMax_le _

theorem share_lt (s : State) (powers : Nat → Nat) (rim i : Nat) : s.share powers rim i < 65536 :=
  Nat.lt_of_le_of_lt ((Nat.min_le_left _ _).trans ((Nat.min_le_left _ _).trans (maxPower_le _))) (by decide)

theorem meadowOf_lt {i : Nat} (h : i < 272) : meadowOf i < 8 := by
  unfold meadowOf
  omega

theorem share_eq (s : State) {powers demand : Nat → Nat} (hd : demand = fun k => min (s.sett k).maxPower (powers k + 100)) (rim : Nat) {i : Nat}
    (hi : i < 272) : s.share powers rim i = min (demand i) (min
      (levelOf (s.liveSites.map demand) (100 * s.capPanel - (rim + 100 * s.reserve + 100 * s.grants)))
      (levelOf ((s.liveSites.filter fun k => meadowOf k = meadowOf i).map demand) (s.regionPower (meadowOf i)))) := by
  have hm : ((List.range 8).map fun m => levelOf ((s.liveSites.filter fun i => meadowOf i = m).map demand) (s.regionPower m)).getD (meadowOf i) 0
      = levelOf ((s.liveSites.filter fun k => meadowOf k = meadowOf i).map demand) (s.regionPower (meadowOf i)) := by
    rw [List.getD_eq_getElem _ _ (by rw [List.length_map, List.length_range]; exact meadowOf_lt hi), List.getElem_map, List.getElem_range]
  rw [← hm, hd]
  rfl

theorem allocate_cap (s : State) (powers : Nat → Nat) (rim : Nat) {i : Nat} (h : i ∈ s.liveSites) :
    fld ((s.allocate powers rim).sett i).cap 15 0 = s.share powers rim i := by
  rw [allocate_eq, foldl_modSett_sett _ _ (liveSites_nodup s), if_pos h]
  exact (fld_setFld (by decide) (by decide)).trans (Nat.mod_eq_of_lt (share_lt _ _ _ _))

theorem allocate_frame (s : State) (powers : Nat → Nat) (rim : Nat) : ∃ st, s.allocate powers rim = { s with setts := st } :=
  foldl_modSett_frame (fun i x => { x with cap := setFld x.cap 15 0 (s.share powers rim i) }) s.liveSites s

/-- The state with the averages of an allocation entered (R370). -/
def State.averaged (s : State) (dt : Nat) (mv : Tab Nat) (panel : BitVec 64) : State :=
  { s with tclk := s.tclk + dt, power := { s.power with planeMv := mv, panel := panel } }

theorem averaged_live (s : State) (dt : Nat) (mv : Tab Nat) (panel : BitVec 64) : (s.averaged dt mv panel).liveSites = s.liveSites := rfl
theorem averaged_sett (s : State) (dt : Nat) (mv : Tab Nat) (panel : BitVec 64) (k : Nat) : (s.averaged dt mv panel).sett k = s.sett k := rfl

theorem allocationTick_eq (power : List (Site × Nat)) (rim : Nat) (mv : List (Fin 9 × Nat)) (dt : Nat) (s : State) :
    execAllocationTick power rim mv dt s = .next ((s.averaged dt (mv.foldl (fun a e => Tab.set 12000 a e.1.val e.2) s.power.planeMv)
      (setFld (setFld s.power.panel 63 48 (min 65535 ((rim + sumN (power.map Prod.snd)) / 100))) 31 16 (min 65535 (rim / 100)))).allocate
        (fun i => ((power.find? fun e => e.1.val = i).map Prod.snd).getD 0) rim) := rfl

/-! ### Caps and the panel's clamp -/

/-- One comparison of a sett's power with its cap (R372). -/
def Sett.compareCap (x : Sett) (p : Nat) (low : Bool) : Sett :=
  if min (fld x.cap 15 0) (phaseMax x.phases) < p then x.setPwr (fld x.clk.aclk 38 32 - 1)
  else if low && fld x.clk.aclk 38 32 < min (fld x.cap 22 16) (fld x.clk.aclk 54 48) then x.setPwr (fld x.clk.aclk 38 32 + 1)
  else x

theorem capCompare_eq (s : State) (i : Site) (p : BitVec 16) (low : Bool) : execCapCompare i p low s = .next (s.setSett i.val
    (Sett.compareCap { s.sett i.val with pwrStat := setFld (s.sett i.val).pwrStat 63 48 p.toNat } p.toNat low)) := rfl

theorem panelClamp_within {s : State} {p : Nat} (h : p ≤ 100 * s.capPanel) : execPanelClamp p s = .next s := congrArg _ (if_pos h)

/-- The state with a clamp counted (R373). -/
def State.clampCounted (s : State) : State := State.edge { s with power := { s.power with panel := satFld s.power.panel 7 0 1 } } 0 596

theorem panelClamp_above {s : State} {p : Nat} (h : 100 * s.capPanel < p) : execPanelClamp p s = .next
    (s.liveSites.foldl (fun t i => t.modSett i fun x => x.setPwr (fld x.clk.aclk 38 32 - 8)) s.clampCounted) := congrArg _ (if_neg (Nat.not_le.mpr h))

theorem clamped_spec (s : State) (panel : BitVec 64) : (State.edge { s with power := { s.power with panel := panel } } 0 596).power.panel = panel
    ∧ (State.edge { s with power := { s.power with panel := panel } } 0 596).cores = s.cores
    ∧ ∀ i, (State.edge { s with power := { s.power with panel := panel } } 0 596).sett i = s.sett i := ⟨rfl, rfl, fun _ => rfl⟩

theorem clampCounted_eq (s : State) :
    s.clampCounted = State.edge { s with power := { s.power with panel := satFld s.power.panel 7 0 1 } } 0 596 := by
  unfold State.clampCounted
  rfl

theorem clampCounted_panel (s : State) : s.clampCounted.power.panel = satFld s.power.panel 7 0 1 := by
  rw [clampCounted_eq]
  exact (clamped_spec s (satFld s.power.panel 7 0 1)).1

theorem clampCounted_cores (s : State) : s.clampCounted.cores = s.cores := by
  rw [clampCounted_eq]
  exact (clamped_spec s (satFld s.power.panel 7 0 1)).2.1

theorem clampCounted_sett (s : State) (i : Nat) : s.clampCounted.sett i = s.sett i := by
  rw [clampCounted_eq]
  exact (clamped_spec s (satFld s.power.panel 7 0 1)).2.2 i

/-! ### Grants -/

/-- PWR_MEADOW_m of a meadow whose grant is given (R376). -/
def grantReg (g : Nat) (x : BitVec 64) : BitVec 64 := setFld (setFld (setFld x 63 60 2) 59 58 (bandOf g)) 47 32 (g / 100)

/-- The request at the head leaves the queue as its meadow starts to turn on. -/
def State.turningOn (t : State) (m : Nat) (rest : List InrushReq) : State :=
  { t with power := { t.power with requests := rest, phase := Tab.set 0 t.power.phase m 1 } }

theorem turningOn_modMeadow (s : State) (m : Nat) (rest : List InrushReq) (f : BitVec 64 → BitVec 64) : (s.modMeadow m f).turningOn m rest =
    { s with power := { s.power with meadow := Tab.mod 0 s.power.meadow m f, requests := rest, phase := Tab.set 0 s.power.phase m 1 } } := rfl

theorem tryGrant_head {s : State} {p : Nat} {q : InrushReq} {rest : List InrushReq} (hr : s.power.requests = q :: rest)
    (hq : q.cmd = none ∨ s.fw.cmd = none) : s.tryGrant p = if s.inrushAllowed && 4000 ≤ s.grantFor p then
      { s with power := { s.power with
        meadow := Tab.mod 0 s.power.meadow q.meadow (grantReg (s.grantFor p))
        requests := rest, phase := Tab.set 0 s.power.phase q.meadow 1 } }
      else s.deferHead q := by
  have hfree : ¬ (q.cmd.isSome && s.fwBusy && s.fw.startAt ≤ q.since) = true := by
    rcases hq with h | h
    · simp [h]
    · simp [State.fwBusy, h]
  rw [← turningOn_modMeadow]
  unfold State.tryGrant State.turningOn grantReg
  rw [hr]
  exact if_neg hfree

theorem inrushReevaluate_due {s : State} {p dt : Nat} {q : InrushReq} {rest : List InrushReq} (hr : s.power.requests = q :: rest)
    (hq : q.deferred = true) : execInrushReevaluate p dt s = execInrushGrant p (s.pass dt) := by
  have h : ((s.pass dt).power.requests.head?.any InrushReq.deferred) = true := by
    rw [show (s.pass dt).power.requests = q :: rest from hr]
    exact hq
  exact congrArg _ (if_pos h)

theorem inrushReevaluate_none {s : State} {p dt : Nat} (h : ∀ q ∈ s.power.requests, q.deferred = false) :
    execInrushReevaluate p dt s = .next (s.pass dt) := by
  have hno : ¬ ((s.pass dt).power.requests.head?.any InrushReq.deferred) = true := by
    cases hr : s.power.requests with
    | nil => rw [show (s.pass dt).power.requests = [] from hr]; exact Bool.false_ne_true
    | cons q rest =>
      rw [show (s.pass dt).power.requests = q :: rest from hr]
      exact Bool.eq_false_iff.mp (h q (by rw [hr]; exact List.mem_cons_self))
  exact congrArg _ (if_neg hno)

/-! ### Turning a meadow on -/

/-- The meadow's turn-on goes to its next phase. -/
def State.nextPhase (t : State) (m p : Nat) : State := { t with power := { t.power with phase := Tab.set 0 t.power.phase m (p + 1) } }

theorem nextPhase_phase (t : State) (m p : Nat) : Tab.get 0 (t.nextPhase m p).power.phase m = p + 1 := by
  unfold State.nextPhase
  dsimp only
  rw [get_set, if_pos rfl]

section
variable {s : State} {m : Meadow} {ph : Nat}

theorem turnOnPhase_idle (h : s.meadowState m.val ≠ 2 ∨ Tab.get 0 s.power.phase m.val = 0) : execTurnOnPhase m s = .next s := congrArg _ (if_pos h)

variable (hp : ph = Tab.get 0 s.power.phase m.val) (hst : s.meadowState m.val = 2) (h0 : ph ≠ 0)
include hp hst h0

theorem turnOnPhase_on : execTurnOnPhase m s = .next
    (if ph = 3 then ((sitesOf m.val).foldl State.uncoreUp s).nextPhase m.val ph else if ph < 5 then s.nextPhase m.val ph else s.meadowUp m.val) := by
  subst hp
  exact congrArg _ (if_neg (not_or.mpr ⟨not_not.mpr hst, h0⟩))

end

/-- What phase C leaves of a site: STATE as the table of dead sites says. -/
theorem uncoreUp_sett (s : State) (i j : Nat) : fld ((s.uncoreUp i).sett j).pwrStat 23 20 =
    if j = i then (if i ∈ s.nv.deadSites then 3 else 1) else fld (s.sett j).pwrStat 23 20 := by
  unfold State.uncoreUp
  by_cases hd : s.nv.deadSites.contains i = true
  · rw [if_pos hd, if_pos (List.contains_iff_mem.mp hd), sett_modSett]
    split
    · exact (fld_setFld (by decide) (by decide)).trans (by decide)
    · rfl
  · rw [if_neg hd, if_neg (fun h => hd (List.contains_iff_mem.mpr h))]
    dsimp only
    rw [sett_modSett]
    split
    · exact (fld_setFld (by decide) (by decide)).trans (by decide)
    · rfl

theorem uncoreUp_frame (s : State) (i : Nat) : ∃ st, s.uncoreUp i = { s with setts := st } := by
  unfold State.uncoreUp
  split <;> exact ⟨_, rfl⟩

theorem foldl_uncoreUp_frame (l : List Nat) (s : State) : ∃ st, l.foldl State.uncoreUp s = { s with setts := st } := by
  induction l generalizing s with
  | nil => exact ⟨s.setts, rfl⟩
  | cons i l ih =>
    obtain ⟨st, h⟩ := ih (s.uncoreUp i)
    obtain ⟨st', h'⟩ := uncoreUp_frame s i
    exact ⟨st, by rw [List.foldl_cons, h, h']⟩

theorem foldl_uncoreUp_sett {i : Nat} (l : List Nat) (s : State)
    (h : i ∈ l ∨ fld (s.sett i).pwrStat 23 20 = if i ∈ s.nv.deadSites then 3 else 1) :
    fld ((l.foldl State.uncoreUp s).sett i).pwrStat 23 20 = if i ∈ s.nv.deadSites then 3 else 1 := by
  induction l generalizing s with
  | nil => exact h.resolve_left List.not_mem_nil
  | cons k l ih =>
    obtain ⟨st, hst⟩ := uncoreUp_frame s k
    have hnv : (s.uncoreUp k).nv = s.nv := by rw [hst]
    rw [List.foldl_cons, ← hnv]
    refine ih _ ?_
    rw [uncoreUp_sett, hnv]
    by_cases hk : i = k
    · subst hk
      exact Or.inr (if_pos rfl)
    · rw [if_neg hk]
      exact h.imp_left fun h => (List.mem_cons.mp h).resolve_left hk

/-- A site whose uncore is up is powered (R377). -/
def Sett.poweredUp (x : Sett) : Sett := if fld x.pwrStat 23 20 = 1 then { x with pwrStat := setFld x.pwrStat 23 20 2 } else x

theorem poweredUp_state (x : Sett) (h : fld x.pwrStat 23 20 = 1 ∨ fld x.pwrStat 23 20 = 2) : fld x.poweredUp.pwrStat 23 20 = 2 := by
  unfold Sett.poweredUp
  split
  case isTrue => exact (fld_setFld (by decide) (by decide)).trans (by decide)
  case isFalse hn => exact h.resolve_left hn

theorem foldl_poweredUp {i : Nat} (l : List Nat) (s : State)
    (h : (i ∈ l ∧ fld (s.sett i).pwrStat 23 20 = 1) ∨ fld (s.sett i).pwrStat 23 20 = 2) :
    fld ((l.foldl (fun t k => t.modSett k Sett.poweredUp) s).sett i).pwrStat 23 20 = 2 := by
  induction l generalizing s with
  | nil => exact h.resolve_left fun h => List.not_mem_nil h.1
  | cons k l ih =>
    refine ih _ ?_
    rw [sett_modSett]
    by_cases hk : i = k
    · subst hk
      rw [if_pos rfl]
      exact Or.inr (poweredUp_state _ (h.imp_left And.right))
    · rw [if_neg hk]
      exact h.imp_left fun h => ⟨(List.mem_cons.mp h.1).resolve_left hk, h.2⟩

/-- PWR_MEADOW_m of a meadow that is up. -/
def upReg (limit : Nat) (x : BitVec 64) : BitVec 64 := setFld (setFld (setFld x 63 60 3) 47 32 0) 31 16 limit

theorem fld_upReg (limit : Nat) (x : BitVec 64) : fld (upReg limit x) 63 60 = 3 ∧ fld (upReg limit x) 47 32 = 0 := by
  unfold upReg
  constructor
  · rw [fld_setFld_ne (by decide) (by decide) (by decide), fld_setFld_ne (by decide) (by decide) (by decide), fld_setFld (by decide) (by decide)]
    rfl
  · rw [fld_setFld_ne (by decide) (by decide) (by decide), fld_setFld (by decide) (by decide), Nat.zero_mod]

/-- The state once a meadow's grant is released. -/
def State.granted (t : State) (m : Nat) (tests : List (Nat × Nat)) : State :=
  { t with power := { t.power with phase := Tab.erase t.power.phase m, tests := tests } }

theorem meadowUp_eq (s : State) (m : Nat) : ∃ tests, s.meadowUp m =
    ((((sitesOf m).foldl (fun t k => t.modSett k Sett.poweredUp) s).modMeadow m (upReg (s.regionLimit m))).granted m tests) := by
  unfold State.meadowUp State.granted upReg Sett.poweredUp
  exact ⟨_, rfl⟩

theorem granted_spec (t : State) (m : Nat) (tests : List (Nat × Nat)) : (t.granted m tests).meadow m = t.meadow m
    ∧ Tab.get 0 (t.granted m tests).power.phase m = 0 ∧ ∀ i, (t.granted m tests).sett i = t.sett i :=
  ⟨rfl, (get_erase _ _ _ _).trans (if_pos rfl), fun _ => rfl⟩

theorem modMeadow_sett (t : State) (m : Nat) (f : BitVec 64 → BitVec 64) (i : Nat) : (t.modMeadow m f).sett i = t.sett i := rfl

theorem meadowUp_spec (s : State) (m : Nat) : (s.meadowUp m).meadowState m = 3 ∧ fld ((s.meadowUp m).meadow m) 47 32 = 0
    ∧ Tab.get 0 (s.meadowUp m).power.phase m = 0
    ∧ ∀ i ∈ sitesOf m, fld (s.sett i).pwrStat 23 20 = 1 → fld ((s.meadowUp m).sett i).pwrStat 23 20 = 2 := by
  obtain ⟨tests, h⟩ := meadowUp_eq s m
  obtain ⟨hmeadow, hphase, hsett⟩ :=
    granted_spec (((sitesOf m).foldl (fun t k => t.modSett k Sett.poweredUp) s).modMeadow m (upReg (s.regionLimit m))) m tests
  rw [modMeadow_meadow, if_pos rfl] at hmeadow
  rw [h]
  refine ⟨?_, ?_, hphase, fun i hi h1 => ?_⟩
  · rw [State.meadowState, hmeadow]
    exact (fld_upReg _ _).1
  · rw [hmeadow]
    exact (fld_upReg _ _).2
  · rw [hsett, modMeadow_sett]
    exact foldl_poweredUp (sitesOf m) s (Or.inl ⟨hi, h1⟩)

/-! ### Turning off -/

theorem power_of_offHost {t u : State} (h : t.offHost = u.offHost) : t.power = u.power := by
  obtain ⟨x, c, hx⟩ := offHost_frame h
  rw [hx]

theorem power_modRouter (s : State) (n : Node) (f : Router → Router) : (s.modRouter n f).power = s.power := by
  cases n <;> rfl

theorem drain_modRouter (s : State) (n : Node) (f : Router → Router) : (s.modRouter n f).drain = s.drain := by
  cases n <;> rfl

/-- The state with tables, folds and lines staged. -/
def State.staged (s : State) (dark : List Nat) (nodes : List Node) : State :=
  let t := s.net dark
  (nodes.filter t.up).foldl (fun u n => u.modRouter n fun x =>
    let y := x.writeBank x.spareBank (s.bankTable t n)
    { y with fold := setFld (setFld y.fold 47 32 (t.folds n)) 63 56 (t.lines n) }) s

theorem staged_keeps (s : State) (dark : List Nat) (nodes : List Node) : (s.staged dark nodes).power = s.power ∧ (s.staged dark nodes).drain = s.drain :=
  ⟨view_foldl State.power (fun _ _ => power_modRouter _ _ _) _ s, view_foldl State.drain (fun _ _ => drain_modRouter _ _ _) _ s⟩

theorem stageTables_eq (s : State) (dark : List Nat) (nodes : List Node) :
    ∃ rpt, s.stageTables dark nodes = { s.staged dark nodes with drain := { (s.staged dark nodes).drain with rpt := rpt } } := ⟨_, rfl⟩

theorem stageTables_drain (s : State) (dark : List Nat) (nodes : List Node) : ∃ rpt, (s.stageTables dark nodes).drain = { s.drain with rpt := rpt } := by
  obtain ⟨rpt, h⟩ := stageTables_eq s dark nodes
  refine ⟨rpt, ?_⟩
  rw [h, (staged_keeps s dark nodes).2]

theorem foldl_setMeadow_frame (v : Nat) (l : List Nat) (s : State) :
    ∃ w, l.foldl (fun t m => t.setMeadow m v) s = { s with power := { s.power with meadow := w } } := by
  induction l generalizing s with
  | nil => exact ⟨s.power.meadow, rfl⟩
  | cons m l ih =>
    obtain ⟨w, h⟩ := ih (s.setMeadow m v)
    obtain ⟨w', h'⟩ : ∃ w', s.setMeadow m v = { s with power := { s.power with meadow := w' } } := ⟨_, rfl⟩
    exact ⟨w, by rw [List.foldl_cons, h, h']⟩

theorem foldl_setMeadow_state {v m : Nat} (hv : v < 16) (l : List Nat) (s : State) (h : m ∈ l ∨ s.meadowState m = v) :
    (l.foldl (fun t m => t.setMeadow m v) s).meadowState m = v := by
  induction l generalizing s with
  | nil => exact h.resolve_left List.not_mem_nil
  | cons k l ih =>
    refine ih _ ?_
    have hset : (s.setMeadow k v).meadowState m = if m = k then v else s.meadowState m := by
      rw [State.meadowState, State.setMeadow, modMeadow_meadow]
      split
      · exact (fld_setFld (by decide) (by decide)).trans (Nat.mod_eq_of_lt hv)
      · rfl
    dsimp only
    rw [hset]
    by_cases hk : m = k
    · exact Or.inr (if_pos hk)
    · rw [if_neg hk]
      exact h.imp_left fun h => (List.mem_cons.mp h).resolve_left hk

theorem bit_or {n : Nat} (x y : BitVec n) (i : Nat) : bit (x ||| y) i = (bit x i || bit y i) := by
  unfold bit
  rw [BitVec.toNat_or, Nat.testBit_or]

/-- What firmware writes to GAL_DRAIN to hold every class with FLIP and FOLD (R268). -/
def holdWord (reg : BitVec 64) : BitVec 64 := setFld (0 : BitVec 64) 51 42 0x3FF ||| BitVec.ofNat 64 (fld reg 31 0)

theorem bit_holdWord (reg : BitVec 64) {i : Nat} (h : 42 ≤ i ∧ i ≤ 51) : bit (holdWord reg) i = true := by
  have hone : ∀ k < 10, (0x3FF : Nat).testBit k = true := by decide
  rw [holdWord, bit_or, bit_setFld (by decide) (by decide), if_pos h, hone _ (by omega), Bool.true_or]

theorem write_holds {d : Drain} {v : BitVec 64} (hb : d.busy = false) (hstart : bit v 42 = true) (hfold : bit v 43 = true) :
    (d.write v).state = 1 ∧ (d.write v).classes = 15 := by
  have hgo : (bit v 42 && !d.busy) = true := by rw [hstart, hb]; rfl
  unfold Drain.write
  dsimp only
  rw [if_pos hgo]
  refine ⟨(fld_setFld (by decide) (by decide)).trans (by decide), if_pos ?_⟩
  refine (bit_setFld_ne (by decide) (by decide) (by decide)).trans ((bit_setFld_ne (by decide) (by decide) (by decide)).trans ?_)
  rw [bit_setFld (by decide) (by decide), if_pos (by decide), fld_testBit, hfold]
  rfl

theorem drainEdge_frame (s : State) (old : Nat) : ∃ gals, s.drainEdge old = { s with gals := gals } := by
  unfold State.drainEdge
  split
  · exact ⟨s.gals, rfl⟩
  · exact ⟨_, rfl⟩

/-- The drain for the planned darkness of some meadows starts (R268, R379). -/
def State.startDark (s : State) (ms : List Nat) : State :=
  let t := ms.foldl (fun t m => t.setMeadow m 4) (s.stageTables ms allNodes)
  State.drainEdge { t with drain := t.drain.write (holdWord t.drain.reg), power := { t.power with draining := true } } s.drain.state

theorem startDark_spec {s : State} {ms : List Nat} (hb : s.drain.busy = false) : (s.startDark ms).drain.state = 1 ∧ (s.startDark ms).power.draining = true
    ∧ (s.startDark ms).drain.classes = 15 ∧ ∀ m ∈ ms, (s.startDark ms).meadowState m = 4 := by
  have hstate := fun m hm => foldl_setMeadow_state (v := 4) (m := m) (by decide) ms (s.stageTables ms allNodes) (Or.inl hm)
  obtain ⟨w, hw⟩ := foldl_setMeadow_frame 4 ms (s.stageTables ms allNodes)
  obtain ⟨rpt, hrpt⟩ := stageTables_drain s ms allNodes
  unfold State.startDark
  dsimp only
  rw [hw] at hstate ⊢
  dsimp only
  rw [hrpt]
  obtain ⟨hst, hcl⟩ := write_holds (d := { s.drain with rpt := rpt }) hb (bit_holdWord s.drain.reg (i := 42) (by decide)) (bit_holdWord s.drain.reg (i := 43) (by decide))
  obtain ⟨gals, hedge⟩ := drainEdge_frame { s.stageTables ms allNodes with
    power := { (s.stageTables ms allNodes).power with meadow := w, draining := true }
    drain := Drain.write { s.drain with rpt := rpt } (holdWord s.drain.reg) } s.drain.state
  rw [hedge]
  exact ⟨hst, rfl, hcl, hstate⟩

theorem meadowPowerDown_starts {s : State} (hms : s.power.turnOff ≠ []) (hidle : s.ledger.state = .idle) (hb : s.drain.busy = false)
    (hgo : s.power.draining = false ∨ s.drain.state ≠ 4) : execMeadowPowerDown s = .next (s.startDark s.power.turnOff) := by
  have hready : ¬ (s.power.turnOff.isEmpty = true ∨ ¬ (s.ledger.state = .idle) ∨ s.drain.busy = true) := by
    simp [hms, hidle, hb]
  have hnot : ¬ (s.power.draining = true ∧ s.drain.state = 4) := by
    rcases hgo with h | h <;> simp [h]
  unfold execMeadowPowerDown State.startDark holdWord
  exact congrArg _ ((if_neg hready).trans (if_neg hnot))

theorem meadowPowerDown_ends {s : State} (hms : s.power.turnOff ≠ []) (hidle : s.ledger.state = .idle) (hb : s.drain.busy = false)
    (hd : s.power.draining = true) (hdone : s.drain.state = 4) : execMeadowPowerDown s = .next s.finishOff := by
  have hready : ¬ (s.power.turnOff.isEmpty = true ∨ ¬ (s.ledger.state = .idle) ∨ s.drain.busy = true) := by
    simp [hms, hidle, hb]
  exact congrArg _ ((if_neg hready).trans (if_pos ⟨hd, hdone⟩))

/-- The power state without the jobs of MEADOW_POWER. -/
def State.supply (s : State) : Power := { s.power with jobs := [] }

theorem supply_of_power {s t : State} (h : t.power = s.power) : t.supply = s.supply := by rw [State.supply, h]; rfl

theorem supply_finishMeadowJobs (s : State) : s.finishMeadowJobs.supply = s.supply := by
  unfold State.finishMeadowJobs
  exact (view_foldl State.supply (fun t j => supply_of_power (power_of_offHost (offHost_complete _ _ _))) _ _).trans rfl

theorem power_cancelChain (s : State) (src : Src) (after : Option QPass) : (s.cancelChain src after).power = s.power := by
  unfold State.cancelChain
  dsimp only
  refine (view_foldl State.power (fun t q => power_of_offHost (offHost_complete _ _ _)) _ _).trans ?_
  cases after <;> dsimp only <;> split <;> rfl

theorem power_endUnlaunched (s : State) (q : QPass) (st : Nat) : (s.endUnlaunched q st).power = s.power :=
  (power_cancelChain _ _ _).trans (power_of_offHost (offHost_complete _ _ _))

theorem power_mapCores (s : State) (f : Nat → Core → Core) : (s.mapCores f).power = s.power :=
  view_foldl State.power (f := fun t p => t.modCore p (f p)) (fun _ _ => rfl) _ _

theorem power_changeMap (s : State) : s.changeMap.power = s.power := by
  unfold State.changeMap
  split
  · rfl
  · dsimp only
    refine (view_foldl State.power (fun t q => power_endUnlaunched _ _ _) _ _).trans ((power_of_offHost (offHost_ctxEvents _ _ _)).trans ?_)
    dsimp only
    rw [power_mapCores]
    exact view_foldl State.power (f := fun u h => u.modEntry h fun e => { e with invalid := true }) (fun _ _ => rfl) _ _

theorem supply_mapIfIdle (s : State) : s.mapIfIdle.supply = s.supply := by
  unfold State.mapIfIdle
  rw [supply_finishMeadowJobs]
  split
  · exact supply_of_power (power_changeMap s)
  · rfl

/-- PWR_MEADOW_m of a meadow that is switched off as planned (R379). -/
def offReg (x : BitVec 64) : BitVec 64 := setFld (satFld (setFld (setFld x 63 60 0) 47 32 0) 15 8 1) 3 0 0

theorem fld_offReg (x : BitVec 64) : fld (offReg x) 63 60 = 0 ∧ fld (offReg x) 3 0 = 0 := by
  unfold offReg satFld
  constructor
  · rw [fld_setFld_ne (by decide) (by decide) (by decide), fld_setFld_ne (by decide) (by decide) (by decide),
      fld_setFld_ne (by decide) (by decide) (by decide), fld_setFld (by decide) (by decide), Nat.zero_mod]
  · rw [fld_setFld (by decide) (by decide), Nat.zero_mod]

/-- One meadow goes dark as planned (R379). -/
def State.offOne (t : State) (m : Nat) : State := ((t.modMeadow m offReg).loseMeadow m).meadowOff m

theorem meadow_meadowOff (t : State) (m k : Nat) : (t.meadowOff m).meadow k = t.meadow k := by
  have h := congrArg Grid.meadow (grid_meadowOff t m)
  exact congrArg (fun w => Tab.get 0 w k) h

theorem meadow_loseMeadow (t : State) (m k : Nat) : (t.loseMeadow m).meadow k = t.meadow k := rfl

theorem offOne_meadow (t : State) (m k : Nat) : (t.offOne m).meadow k = if k = m then offReg (t.meadow m) else t.meadow k := by
  unfold State.offOne
  rw [meadow_meadowOff, meadow_loseMeadow, modMeadow_meadow]

/-- A meadow that is dark with no cause recorded. -/
def State.plainDark (s : State) (m : Nat) : Prop := s.meadowState m = 0 ∧ fld (s.meadow m) 3 0 = 0

theorem plainDark_of_meadow {s : State} {m : Nat} {w : BitVec 64} (h : s.meadow m = w) (hw : fld w 63 60 = 0 ∧ fld w 3 0 = 0) : s.plainDark m := by
  unfold State.plainDark State.meadowState
  rw [h]
  exact hw

theorem foldl_offOne_dark {m : Nat} (l : List Nat) (s : State) (h : m ∈ l ∨ s.plainDark m) : (l.foldl State.offOne s).plainDark m := by
  induction l generalizing s with
  | nil => exact h.resolve_left List.not_mem_nil
  | cons k l ih =>
    rw [List.foldl_cons]
    by_cases hk : m = k
    · exact ih (s.offOne k) (Or.inr (plainDark_of_meadow (by rw [offOne_meadow, if_pos hk]) (fld_offReg (s.meadow k))))
    · refine ih (s.offOne k) (h.imp (fun h => (List.mem_cons.mp h).resolve_left hk) fun h => ?_)
      exact plainDark_of_meadow (by rw [offOne_meadow, if_neg hk]) h

/-- The state once the planned darkness is over. -/
def State.offDone (t : State) : State := { t with power := { t.power with turnOff := [], draining := false } }

theorem finishOff_eq (s : State) : s.finishOff = ((s.power.turnOff.foldl State.offOne s).offDone).mapIfIdle := by
  unfold State.finishOff State.offDone State.offOne offReg
  rfl

theorem finishOff_spec (s : State) : s.finishOff.power.turnOff = [] ∧ s.finishOff.power.draining = false
    ∧ ∀ m ∈ s.power.turnOff, s.finishOff.plainDark m := by
  have hdark := fun m hm => foldl_offOne_dark (m := m) s.power.turnOff s (Or.inl hm)
  have hkeep := supply_mapIfIdle (s.power.turnOff.foldl State.offOne s).offDone
  rw [← finishOff_eq] at hkeep
  have hoff : s.finishOff.power.turnOff = [] := congrArg Power.turnOff hkeep
  have hdrain : s.finishOff.power.draining = false := congrArg Power.draining hkeep
  have hmeadow : s.finishOff.power.meadow = (s.power.turnOff.foldl State.offOne s).power.meadow := by
    have h := congrArg Power.meadow hkeep
    exact h
  refine ⟨hoff, hdrain, fun m hm => ?_⟩
  have hreg : s.finishOff.meadow m = (s.power.turnOff.foldl State.offOne s).meadow m := congrArg (fun w => Tab.get 0 w m) hmeadow
  unfold State.plainDark State.meadowState
  rw [hreg]
  exact hdark m hm

/-! ### Gating -/

theorem gated_gated (c : Core) : c.gated.gated = c.gated := rfl

/-- The core of a site at a place of its gating register. -/
def State.gateCore (s : State) (i k : Nat) : Option Nat := (s.settAt i).bind fun sid => s.coreAt (64 * sid + k)

/-- One core of a site is gated. -/
def State.gateOne (s : State) (i : Nat) (t : State) (k : Nat) : State :=
  match s.gateCore i k with
  | some p => t.modCore p Core.gated
  | none => t

theorem gateOne_core (s : State) (i : Nat) (t : State) (k p : Nat) :
    (s.gateOne i t k).core p = if s.gateCore i k = some p then (t.core p).gated else t.core p := by
  unfold State.gateOne
  split
  case h_1 q hq =>
    rw [core_modCore, hq]
    by_cases h : p = q
    · rw [if_pos h, if_pos (congrArg some h.symm), h]
    · rw [if_neg h, if_neg fun h' => h (Option.some.inj h').symm]
  case h_2 hn => rw [hn, if_neg nofun]

theorem foldl_gateOne_frame (s : State) (i : Nat) (l : List Nat) (t : State) : ∃ c, l.foldl (s.gateOne i) t = { t with cores := c } := by
  induction l generalizing t with
  | nil => exact ⟨t.cores, rfl⟩
  | cons k l ih =>
    obtain ⟨c, h⟩ := ih (s.gateOne i t k)
    obtain ⟨c', h'⟩ : ∃ c', s.gateOne i t k = { t with cores := c' } := by
      unfold State.gateOne
      split
      · exact ⟨_, rfl⟩
      · exact ⟨t.cores, rfl⟩
    exact ⟨c, by rw [List.foldl_cons, h, h']⟩

/-- Each core is gated when the list names it, and as it was otherwise. -/
theorem foldl_gateOne_core (s : State) (i p : Nat) (l : List Nat) (t : State) :
    ((l.foldl (s.gateOne i) t).core p = t.core p ∨ (l.foldl (s.gateOne i) t).core p = (t.core p).gated)
    ∧ (∀ k ∈ l, s.gateCore i k = some p → (l.foldl (s.gateOne i) t).core p = (t.core p).gated) := by
  induction l generalizing t with
  | nil => exact ⟨Or.inl rfl, fun k hk => absurd hk List.not_mem_nil⟩
  | cons j l ih =>
    obtain ⟨hor, hnamed⟩ := ih (s.gateOne i t j)
    rw [gateOne_core] at hor hnamed
    rw [List.foldl_cons]
    by_cases hj : s.gateCore i j = some p
    · rw [if_pos hj, gated_gated] at hor
      have h := hor.elim id id
      exact ⟨Or.inr h, fun _ _ _ => h⟩
    · rw [if_neg hj] at hor hnamed
      refine ⟨hor, fun k hk hkp => hnamed k ((List.mem_cons.mp hk).resolve_left fun h => hj (h ▸ hkp)) hkp⟩

theorem gated_keeps (c : Core) : c.gated.sp = c.sp ∧ c.gated.istore = c.istore ∧ c.gated.res0 = c.res0 ∧ c.gated.res1 = c.res1 := ⟨rfl, rfl, rfl, rfl⟩

/-- Gated or not, a core keeps its memories and residencies (R380). -/
theorem keeps_of_gated {c d : Core} (h : d = c ∨ d = c.gated) : d.sp = c.sp ∧ d.istore = c.istore ∧ d.res0 = c.res0 ∧ d.res1 = c.res1 := by
  rcases h with rfl | rfl
  · exact ⟨rfl, rfl, rfl, rfl⟩
  · exact gated_keeps c

/-- The places that a write of the gating register gates anew. -/
def Sett.gatesOn (x : Sett) (v : BitVec 64) : List Nat := (bitsOf 64 v.toNat).filter fun k => !bit x.gate k

theorem testBit_maskOf (l : List Nat) (i : Nat) : (maskOf l).testBit i = decide (i ∈ l) := by
  induction l with
  | nil => simp [maskOf]
  | cons k l ih =>
    rw [maskOf, Nat.testBit_or, ih, Nat.testBit_two_pow]
    by_cases h : i = k <;> simp [h, eq_comm]

/-- The bits that stay with those that come on are the bits that are written. -/
theorem gate_word (x : Sett) (v : BitVec 64) :
    BitVec.ofNat 64 (maskOf (((bitsOf 64 v.toNat).filter fun k => bit x.gate k) ++ x.gatesOn v)) = v := by
  refine BitVec.eq_of_getLsbD_eq fun i hi => ?_
  have hmem : i ∈ ((bitsOf 64 v.toNat).filter fun k => bit x.gate k) ++ x.gatesOn v ↔ v.toNat.testBit i = true := by
    simp only [Sett.gatesOn, bitsOf, List.mem_append, List.mem_filter, List.mem_range]
    cases bit x.gate i <;> simp [hi]
  rw [BitVec.getLsbD_ofNat, testBit_maskOf, decide_eq_true hi, Bool.true_and, ← BitVec.testBit_toNat]
  simp only [hmem, Bool.decide_eq_true]

/-- Whether a write of the gating register leaves a core running (R380). -/
def State.gateRefused (s : State) (i k : Nat) : Bool :=
  match s.gateCore i k with
  | some p => (s.ledger.state ≠ .idle && s.ledger.parts.contains p) || (s.core p).meshBusy
  | none => false

theorem get_mem {α : Type} {d : α} {t : Tab α} {i : Nat} : Tab.get d t i = d ∨ (i, Tab.get d t i) ∈ t := by
  induction t with
  | nil => exact Or.inl rfl
  | cons e t ih =>
    obtain ⟨k, v⟩ := e
    by_cases hk : k = i
    · subst hk
      exact Or.inr (by rw [Tab.get, if_pos rfl]; exact List.mem_cons_self)
    · rw [Tab.get, if_neg hk]
      exact ih.imp_right (List.mem_cons_of_mem _)

theorem meshBusy_none {s : State} (h : ∀ e ∈ s.cores, e.2.meshBusy = false) (p : Nat) : (s.core p).meshBusy = false := by
  rcases get_mem (d := Core.reset) (t := s.cores) (i := p) with hp | hp
  · rw [State.core, hp]
    rfl
  · exact h _ hp

theorem gateRefused_none {s : State} (hidle : s.ledger.state = .idle) (h : ∀ e ∈ s.cores, e.2.meshBusy = false) (i k : Nat) :
    s.gateRefused i k = false := by
  unfold State.gateRefused
  split
  · rw [meshBusy_none h, hidle]
    rfl
  · rfl

/-- The state with a site's gating register written. -/
def State.gateWritten (s : State) (i : Nat) (v : BitVec 64) : State :=
  s.setSett i { s.sett i with gate := v, coreReady := (s.sett i).coreReady &&& ~~~v }

theorem gateWrite_eq (s : State) (i : Nat) (v : BitVec 64) : s.gateWrite i v =
    ((bitsOf 64 v.toNat).filter fun k => !bit (s.sett i).gate k && !s.gateRefused i k).foldl (s.gateOne i) (s.gateWritten i
      (BitVec.ofNat 64 (maskOf (((bitsOf 64 v.toNat).filter fun k => bit (s.sett i).gate k)
        ++ (bitsOf 64 v.toNat).filter fun k => !bit (s.sett i).gate k && !s.gateRefused i k)))) := rfl

theorem gateWrite_idle {s : State} (hidle : s.ledger.state = .idle) (h : ∀ e ∈ s.cores, e.2.meshBusy = false) (i : Nat) (v : BitVec 64) :
    s.gateWrite i v = ((s.sett i).gatesOn v).foldl (s.gateOne i) (s.gateWritten i v) := by
  have hon : ((bitsOf 64 v.toNat).filter fun k => !bit (s.sett i).gate k && !s.gateRefused i k) = (s.sett i).gatesOn v :=
    List.filter_congr fun k _ => by rw [gateRefused_none hidle h, Bool.not_false, Bool.and_true]
  rw [gateWrite_eq, hon, gate_word]

/-- Settles O38: the folds over the sites, the meadows and the gated cores each keep what a later step does not touch. -/
theorem powerSharingRows : Obligations.PowerSharingRows := by
  unfold Obligations.PowerSharingRows
  refine ⟨?_, ?_, ?_, ?_, ?_, ?_, ?_, ?_⟩
  · rintro s t power rim mv dt total rfl ht
    have hrow := allocationTick_eq power rim mv dt s
    generalize hw : setFld (setFld s.power.panel 63 48 (min 65535 ((rim + sumN (power.map Prod.snd)) / 100))) 31 16 (min 65535 (rim / 100)) = w at hrow ht
    have ht : t = s.averaged dt (mv.foldl (fun a e => Tab.set 12000 a e.1.val e.2) s.power.planeMv) w := ht
    rw [← ht] at hrow
    have hlive : t.liveSites = s.liveSites := by rw [ht, averaged_live]
    have hsett : ∀ k, t.sett k = s.sett k := fun k => by rw [ht, averaged_sett]
    obtain ⟨st, hst⟩ := allocate_frame t (fun i => ((power.find? fun e => e.1.val = i).map Prod.snd).getD 0) rim
    refine ⟨_, hrow, ?_, ?_⟩
    · rw [hst]
    · rintro i hi hin demand rfl
      rw [allocate_cap t _ rim (by rw [hlive]; exact hin), share_eq t (demand := fun k => min (s.sett k).maxPower
        (((power.find? fun e => e.1.val = k).map Prod.snd).getD 0 + 100)) (by simp only [hsett]) rim hi, hlive]
  · rintro s i p low x pwr cap rfl rfl rfl
    refine ⟨fun h => ?_, fun h hl hp => ?_, fun h hl => ?_⟩
    · exact (capCompare_eq s i p low).trans (congrArg (fun y => Host.Outcome.next (s.setSett i.val y)) (if_pos h))
    · refine (capCompare_eq s i p low).trans (congrArg (fun y => Host.Outcome.next (s.setSett i.val y)) ((if_neg (Nat.not_lt.mpr h)).trans (if_pos ?_)))
      rw [hl, decide_eq_true hp]
      rfl
    · refine (capCompare_eq s i p low).trans (congrArg (fun y => Host.Outcome.next (s.setSett i.val y)) ((if_neg (Nat.not_lt.mpr h)).trans (if_neg ?_)))
      rw [Bool.and_eq_true, decide_eq_true_eq]
      rintro ⟨h1, h2⟩
      rcases hl with h' | h'
      · rw [h'] at h1
        cases h1
      · omega
  · intro s p
    refine ⟨panelClamp_within, fun h => ⟨_, panelClamp_above h, ?_⟩⟩
    have hsett := foldl_modSett_sett (fun _ x => x.setPwr (fld x.clk.aclk 38 32 - 8)) s.liveSites (liveSites_nodup s) s.clampCounted
    obtain ⟨st, hst⟩ := foldl_modSett_frame (fun _ x => x.setPwr (fld x.clk.aclk 38 32 - 8)) s.liveSites s.clampCounted
    refine ⟨?_, ?_, fun i _ => (hsett i).trans (by rw [clampCounted_sett])⟩
    · rw [hst]
      exact clampCounted_panel s
    · rw [hst]
      exact clampCounted_cores s
  · rintro s p q rest g hr rfl hq
    refine ⟨fun hall hg => congrArg _ ((tryGrant_head hr hq).trans (if_pos ?_)), fun h => congrArg _ ((tryGrant_head hr hq).trans (if_neg ?_))⟩
    · rw [hall, decide_eq_true hg]
      rfl
    · rw [Bool.and_eq_true, decide_eq_true_eq]
      rintro ⟨h1, h2⟩
      rcases h with h' | h'
      · rw [h'] at h1
        cases h1
      · omega
  · rintro s t p dt rfl
    exact ⟨fun q rest hr hq => inrushReevaluate_due hr hq, fun h => inrushReevaluate_none h⟩
  · rintro s m ph rfl
    refine ⟨turnOnPhase_idle, fun hst => ⟨fun h => ?_, fun h => ?_, fun h => ?_⟩⟩
    · exact (turnOnPhase_on rfl hst (by omega)).trans (congrArg _ ((if_neg (by omega)).trans (if_pos (by omega))))
    · have hrow := (turnOnPhase_on rfl hst (by omega)).trans (congrArg _ (if_pos h))
      have hsett := fun i hi => foldl_uncoreUp_sett (i := i) (sitesOf m.val) s (Or.inl hi)
      obtain ⟨st, hfold⟩ := foldl_uncoreUp_frame (sitesOf m.val) s
      rw [hfold, h] at hrow
      rw [hfold] at hsett
      exact ⟨_, hrow, nextPhase_phase _ _ _, rfl, hsett⟩
    · exact ⟨_, (turnOnPhase_on rfl hst (by omega)).trans (congrArg _ ((if_neg (by omega)).trans (if_neg (by omega)))), meadowUp_spec s m.val⟩
  · rintro s ms rfl hms hidle hb
    exact ⟨fun h => ⟨_, meadowPowerDown_starts hms hidle hb h, startDark_spec hb⟩, fun hd hdone => ⟨_, meadowPowerDown_ends hms hidle hb hd hdone, finishOff_spec s⟩⟩
  · intro s i v hidle hmesh
    have hrow : exec (.coreGate i v) s = .next (((s.sett i.val).gatesOn v).foldl (s.gateOne i.val) (s.gateWritten i.val v)) :=
      congrArg _ (gateWrite_idle hidle hmesh i.val v)
    obtain ⟨c, hc⟩ := foldl_gateOne_frame s i.val ((s.sett i.val).gatesOn v) (s.gateWritten i.val v)
    refine ⟨_, hrow, ?_, fun p => ?_⟩
    · rw [hc]
      rfl
    · obtain ⟨hor, hnamed⟩ := foldl_gateOne_core s i.val p ((s.sett i.val).gatesOn v) (s.gateWritten i.val v)
      obtain ⟨h1, h2, h3, h4⟩ := keeps_of_gated hor
      refine ⟨h1, h2, h3, h4, hor, fun sid k hsid hk hcore hbit hgate => hnamed k ?_ ?_⟩
      · exact List.mem_filter.mpr ⟨List.mem_filter.mpr ⟨List.mem_range.mpr hk, hbit⟩, by rw [hgate]; rfl⟩
      · rw [State.gateCore, hsid]
        exact hcore

end Sys2Proof.Machine
end

section
/-! SUPPORT. The commands of contexts, queue pairs and regions (R302 to R307, R324, R325). -/

namespace Sys2Proof.Machine

/-! ### A command in its turn -/

theorem turn_eq {s u : State} {c : Cmd} {op : Nat} (h : s.turn c op u) : u = s.started c := by
  obtain ⟨-, -, -, -, -, -, rfl⟩ := h
  rfl

/-- What each operation of a list keeps, the fold keeps. -/
theorem foldl_keeps {α β : Type} (P : β → Prop) {f : β → α → β} (h : ∀ s a, P s → P (f s a)) (l : List α) (s : β) (hs : P s) : P (l.foldl f s) :=
  List.foldlRecOn l f hs fun s hs a _ => h s a hs

/-! ### A queue pair that goes -/

/-- No command is in progress but those of `l`; the queue pair under `k` is gone or, where `b` allows it, being deleted with nothing due (R324). -/
structure State.Shut (k : Nat) (b : Bool) (l : List Cmd) (s : State) : Prop where
  inProg : ∀ d ∈ s.host.inProg, d ∈ l
  queue  : ∀ q, s.qp k = some q → b = true ∧ q.deleting = true ∧ q.due = []

section
variable {k : Nat} {b : Bool} {l : List Cmd} {s : State}

theorem State.Shut.of_same {t : State} (h : s.Shut k b l) (hin : ∀ d ∈ t.host.inProg, d ∈ s.host.inProg) (hqp : t.host.qps = s.host.qps) : t.Shut k b l where
  inProg d hd := h.inProg d (hin d hd)
  queue q hq := h.queue q (by rw [State.qp, ← hqp]; exact hq)

theorem qp_setQp (s : State) (i j : Nat) (q : Option Qp) : (s.setQp i q).qp j = if j = i then q else s.qp j := get_set _ _ _ _ _

theorem State.Shut.setQp_none (h : s.Shut k b l) (i : Nat) : (s.setQp i none).Shut k b l where
  inProg := h.inProg
  queue q hq := by
    rw [qp_setQp] at hq
    split at hq
    · cases hq
    · exact h.queue q hq

theorem State.Shut.emit (h : s.Shut k b l) (src : Src) (r : Rec) : (s.emit src r).Shut k b l := by
  unfold State.emit
  split
  · next j _ =>
    unfold State.modQp
    split
    · next q hq =>
      refine ⟨h.inProg, fun x hx => ?_⟩
      rw [qp_setQp] at hx
      split at hx
      case isTrue hj =>
        obtain ⟨hb, hdel, hdue⟩ := h.queue q (hj ▸ hq)
        dsimp only at hx
        rw [if_pos hdel] at hx
        cases hx
        exact ⟨hb, hdel, hdue⟩
      case isFalse => exact h.queue x hx
    · exact h
  · exact h.of_same (fun _ => id) rfl

theorem State.Shut.drop (h : s.Shut k b l) (c : Cmd) : (s.drop c).Shut k b l := h.of_same (fun _ => List.mem_of_mem_erase) rfl

theorem State.Shut.logFinal (h : s.Shut k b l) (c : Cmd) (r : Rec) : (s.logFinal c r).Shut k b l := by
  unfold State.logFinal
  split
  · exact h
  · exact foldl_keeps (State.Shut k b l) (fun t w ht => (ht.drop w).emit _ _) _ _ (h.of_same (fun _ => id) rfl)

theorem State.Shut.complete0 (h : s.Shut k b l) (c : Cmd) (r : Rec) : (s.complete0 c r).Shut k b l := by
  unfold State.complete0
  split
  · exact ((h.drop c).emit _ _).logFinal _ _
  · exact h

theorem State.Shut.finishDelete (h : s.Shut k b l) (i : Nat) : (s.finishDelete i).Shut k b l := by
  unfold State.finishDelete
  split
  · exact h
  · split
    · exact foldl_keeps (State.Shut k b l) (fun t c ht => ht.complete0 _ _) _ _ (h.setQp_none i)
    · exact h

theorem State.Shut.complete (h : s.Shut k b l) (c : Cmd) (r : Rec) : (s.complete c r).Shut k b l := by
  unfold State.complete
  dsimp only
  split
  · exact (h.complete0 _ _).finishDelete _
  · exact h.complete0 _ _

theorem State.Shut.completeAll (h : s.Shut k b l) (cs : List Cmd) (st : Nat) : (s.completeAll cs st).Shut k b l :=
  foldl_keeps (State.Shut k b l) (fun _ c ht => ht.complete c _) cs s h

theorem State.Shut.cancelChain (h : s.Shut k b l) (src : Src) (after : Option QPass) : (s.cancelChain src after).Shut k b l := by
  unfold State.cancelChain
  dsimp only
  refine foldl_keeps (State.Shut k b l) (fun _ q ht => ht.complete _ _) _ _ ?_
  cases after <;> dsimp only <;> split <;> exact h.of_same (fun _ => id) rfl

theorem State.Shut.endUnlaunched (h : s.Shut k b l) (q : QPass) (st : Nat) : (s.endUnlaunched q st).Shut k b l :=
  ((h.complete q.cmd (s.unlaunchedRec q st)).cancelChain _ _).of_same (fun _ => id) rfl

theorem State.Shut.dropPasses (h : s.Shut k b l) (i : Nat) : (s.dropPasses i).Shut k b l := by
  have hfold := foldl_keeps (State.Shut k b l) (f := fun t q => t.endUnlaunched q 0x0C) (fun _ q ht => ht.endUnlaunched q _)
    (s.sched.queue.filter fun q => q.cmd.src.key = some i) s h
  unfold State.dropPasses
  dsimp only
  split
  · split
    · exact hfold.endUnlaunched _ _
    · exact hfold
  · exact hfold

theorem host_mapCores (s : State) (f : Nat → Core → Core) : (s.mapCores f).host = s.host :=
  view_foldl State.host (f := fun t p => t.modCore p (f p)) (fun _ _ => rfl) _ _

theorem host_mapSetts (s : State) (f : Nat → Sett → Sett) : (s.mapSetts f).host = s.host :=
  view_foldl State.host (f := fun t p => t.modSett p (f p)) (fun _ _ => rfl) _ _

theorem host_release (s : State) (h : Nat) : (s.release h).host = s.host := (host_mapSetts _ _).trans (host_mapCores _ _)

theorem State.Shut.of_host {t : State} (h : s.Shut k b l) (hh : t.host = s.host) : t.Shut k b l :=
  h.of_same (by rw [hh]; exact fun _ => id) (congrArg HostSide.qps hh)

theorem State.Shut.dropRegions (h : s.Shut k b l) (n : Nat) : (s.dropRegions n).Shut k b l :=
  h.of_host (view_foldl State.host (f := fun t i => t.modSump i fun x =>
    let x := if s.unlocking then x.wipe n else x
    { x with regions := x.regions.filter (fun e => fld e.2 57 48 ≠ n), fills := x.fills.filter fun f => fld f.entry 57 48 ≠ n })
    (fun _ _ => rfl) _ s)

theorem State.Shut.tryClose (h : s.Shut k b l) (n : Nat) : (s.tryClose n).Shut k b l := by
  unfold State.tryClose
  split
  · exact h
  · split
    · dsimp only
      have hdropped := (foldl_keeps (State.Shut k b l) (f := State.unregister) (fun t i ht => ht.of_host (host_release t i))
        ((s.dir.filter fun e => e.2.ctx.toNat = n && e.2.valid).map Prod.fst) s h).dropRegions n
      have hqps := fun ks => foldl_keeps (State.Shut k b l) (f := fun t i => t.setQp i none) (fun _ i ht => ht.setQp_none i) ks _ hdropped
      exact ((hqps _).of_host (t := State.setCtx _ n none) rfl).completeAll _ _
    · exact h

theorem State.Shut.closeStep (h : s.Shut k b l) : s.closeStep.Shut k b l := foldl_keeps (State.Shut k b l) (fun _ n ht => ht.tryClose n) _ s h

end

/-- A deletion under way ends with the queue pair once nothing of it is in progress (R324). -/
theorem finishDelete_gone {s : State} {k : Nat} {l : List Cmd} (h : s.Shut k true l) (hl : ∀ d ∈ l, d.src.key ≠ some k) :
    (s.finishDelete k).Shut k false l := by
  have hidle : (s.host.inProg.all fun c => c.src.key ≠ some k) = true :=
    List.all_eq_true.mpr fun d hd => decide_eq_true (hl d (h.inProg d hd))
  unfold State.finishDelete
  split
  case h_1 hnone => exact ⟨h.inProg, fun q hq => by rw [hnone] at hq; cases hq⟩
  case h_2 q hq =>
    obtain ⟨-, hdel, -⟩ := h.queue q hq
    rw [hdel, hidle, Bool.and_self, if_pos rfl]
    refine foldl_keeps (State.Shut k false l) (fun t c ht => ht.complete0 _ _) _ _ ⟨h.inProg, fun x hx => ?_⟩
    rw [qp_setQp, if_pos rfl] at hx
    cases hx

/-- The state in which a deletion of a queue pair is under way (R324). -/
def State.deleting (s : State) (c : Cmd) (k : Nat) : State :=
  let t := s.modQp k fun q => { q with deleting := true, due := [], deleter := q.deleter ++ [c] }
  t.openCtxs.foldl (fun t n => t.modCtx n fun x => if x.evq = some k then { x with evq := none } else x) t

theorem host_modCtx (s : State) (n : Nat) (f : Ctx → Ctx) : (s.modCtx n f).host = s.host := by
  unfold State.modCtx
  split <;> rfl

theorem deleting_shut (s : State) (c : Cmd) (k : Nat) : (s.deleting c k).Shut k true s.host.inProg := by
  unfold State.deleting
  refine foldl_keeps (State.Shut k true s.host.inProg) (fun t n ht => ht.of_host (host_modCtx _ _ _)) _ _ ?_
  unfold State.modQp
  split
  case h_1 q _ =>
    refine ⟨fun _ => id, fun x hx => ?_⟩
    rw [qp_setQp, if_pos rfl] at hx
    cases hx
    exact ⟨rfl, rfl, rfl⟩
  case h_2 hnone => exact ⟨fun _ => id, fun x hx => by rw [hnone] at hx; cases hx⟩

theorem qpDelete_absent {s : State} {c : Cmd} (h : s.qp (qpKey c.src.fn (fld c.desc.w2 9 0)) = none) : s.qpDelete c = s.completeSt c 0x0D := by
  unfold State.qpDelete
  dsimp only
  rw [h]

theorem qpDelete_present {s : State} {c : Cmd} {k : Nat} (hk : k = qpKey c.src.fn (fld c.desc.w2 9 0)) (h : s.qp k ≠ none) :
    s.qpDelete c = (((s.deleting c k).dropPasses k).finishDelete k).closeStep := by
  obtain ⟨q, hq⟩ := Option.ne_none_iff_exists'.mp h
  subst hk
  unfold State.qpDelete State.deleting
  dsimp only
  rw [hq]

theorem qpDelete_spec {s : State} {c : Cmd} {k : Nat} (hk : k = qpKey c.src.fn (fld c.desc.w2 9 0)) (h : s.qp k ≠ none) :
    (∀ q, (s.qpDelete c).qp k = some q → q.deleting = true ∧ q.due = [])
    ∧ ((∀ d ∈ s.host.inProg, d.src.key ≠ some k) → (s.qpDelete c).qp k = none) := by
  have hdrop := (deleting_shut s c k).dropPasses k
  rw [qpDelete_present hk h]
  refine ⟨fun q hq => ((hdrop.finishDelete k).closeStep.queue q hq).2, fun hidle => ?_⟩
  refine Option.eq_none_iff_forall_ne_some.mpr fun q hq => ?_
  cases ((finishDelete_gone hdrop hidle).closeStep.queue q hq).1

/-! ### Contexts -/

theorem modCtx_some {s : State} {n : Nat} {x : Ctx} (h : s.ctx n = some x) (f : Ctx → Ctx) : s.modCtx n f = s.setCtx n (some (f x)) := by
  unfold State.modCtx
  rw [h]

theorem freeCtx_none {s : State} (h : ∀ n < 1024, s.ctx n ≠ none) : s.freeCtx = none :=
  List.find?_eq_none.mpr fun n hn hnone => h n (List.mem_range.mp hn) (Option.isNone_iff_eq_none.mp hnone)

theorem freeCtx_some {s : State} {n : Nat} (hn : n < 1024) (hfree : s.ctx n = none) (hleast : ∀ m < n, s.ctx m ≠ none) : s.freeCtx = some n := by
  refine List.find?_range_eq_some.mpr ⟨by rw [hfree]; rfl, List.mem_range.mpr hn, fun m hm => ?_⟩
  rw [Bool.not_eq_true', Option.isNone_eq_false_iff, Option.isSome_iff_ne_none]
  exact hleast m hm

theorem ctxOpen_quota {s : State} {c : Cmd} (h : (s.fn c.src.fn).maxCtx.toNat ≠ 0) (hq : (s.fn c.src.fn).maxCtx.toNat ≤ s.homed c.src.fn) :
    s.ctxOpen c = s.completeSt c 0x0A := by
  unfold State.ctxOpen
  dsimp only
  rw [if_pos ⟨h, hq⟩]

theorem within_quota {q : BitVec 16} {n : Nat} (h : q = 0 ∨ n < q.toNat) : ¬ (q.toNat ≠ 0 ∧ q.toNat ≤ n) := by
  rintro ⟨hz, hle⟩
  rcases h with h | h
  · rw [h] at hz
    exact hz rfl
  · omega

theorem ctxOpen_full {s : State} {c : Cmd} (h : (s.fn c.src.fn).maxCtx = 0 ∨ s.homed c.src.fn < (s.fn c.src.fn).maxCtx.toNat)
    (hfree : s.freeCtx = none) : s.ctxOpen c = s.completeSt c 0x07 := by
  unfold State.ctxOpen
  dsimp only
  rw [if_neg (within_quota h), hfree]

theorem ctxOpen_free {s : State} {c : Cmd} {n : Nat} (h : (s.fn c.src.fn).maxCtx = 0 ∨ s.homed c.src.fn < (s.fn c.src.fn).maxCtx.toNat)
    (hfree : s.freeCtx = some n) : s.ctxOpen c =
      (s.fresh.2.setCtx n (some (Ctx.opened c.src.fn (weightOf c.desc.w2) (limitOf c.desc.w2) (s.fresh.1.setWidth 64)))).complete c
        (okRec c n (s.fresh.1.setWidth 64).toNat 0) := by
  unfold State.ctxOpen
  dsimp only
  rw [if_neg (within_quota h), hfree]

theorem ctxClose_open {s : State} {c : Cmd} {x : Ctx} (hx : s.ctx c.ctx = some x) (h : x.closing = false) :
    s.ctxClose c = ((s.startClose c.ctx).modCtx c.ctx fun x => { x with closers := x.closers ++ [c] }).closeStep := by
  unfold State.ctxClose
  dsimp only
  rw [hx, Option.any_some, h, if_neg Bool.false_ne_true]

theorem ctxClose_closing {s : State} {c : Cmd} {x : Ctx} (hx : s.ctx c.ctx = some x) (h : x.closing = true) :
    s.ctxClose c = (s.setCtx c.ctx (some { x with closers := x.closers ++ [c] })).closeStep := by
  unfold State.ctxClose
  dsimp only
  rw [hx, Option.any_some, if_pos h, modCtx_some hx]

theorem ctxAttach_open {s : State} {c : Cmd} {x : Ctx} (hx : s.ctx c.ctx = some x) : s.ctxAttach c =
    if x.cookie ≠ c.desc.w2 then s.completeSt c 0x13
    else if x.bound.contains c.src.fn then s.completeSt c 0
    else if x.bound.any fun g => g / 64 = c.src.fn / 64 then s.completeSt c 0x05
    else (s.setCtx c.ctx (some { x with bound := x.bound ++ [c.src.fn] })).completeSt c 0 := by
  unfold State.ctxAttach
  dsimp only
  rw [hx]

theorem ctxDetach_open {s : State} {c : Cmd} {x : Ctx} (hx : s.ctx c.ctx = some x) :
    s.ctxDetach c = if x.home = c.src.fn then s.completeSt c 0x05 else (s.detach c.ctx c.src.fn).completeSt c 0 := by
  unfold State.ctxDetach
  simp only [hx, Option.any_some, decide_eq_true_eq]

/-! ### Queue pairs -/

theorem freeQp_some {s : State} {f i : Nat} (hlo : 1 ≤ i) (hhi : i < 1024) (hfree : s.qp (qpKey f i) = none)
    (hleast : ∀ j, 1 ≤ j → j < i → s.qp (qpKey f j) ≠ none) : s.freeQp f = some i := by
  refine List.find?_range'_eq_some.mpr ⟨by rw [hfree]; rfl, List.mem_range'_1.mpr ⟨hlo, by omega⟩, fun j hj hji => ?_⟩
  rw [Bool.not_eq_true', Option.isNone_eq_false_iff, Option.isSome_iff_ne_none]
  exact hleast j hj hji

theorem qpCreate_quota {s : State} {c : Cmd} (h : (s.fn c.src.fn).maxQp.toNat ≠ 0)
    (hq : (s.fn c.src.fn).maxQp.toNat ≤ s.ioQps (fun k => k / 1024 = c.src.fn)) : s.qpCreate c = s.completeSt c 0x0A := if_pos ⟨h, hq⟩

theorem qpCreate_full {s : State} {c : Cmd} (h : (s.fn c.src.fn).maxQp = 0 ∨ s.ioQps (fun k => k / 1024 = c.src.fn) < (s.fn c.src.fn).maxQp.toNat)
    (hfull : 4096 ≤ s.ioQps (fun _ => true)) : s.qpCreate c = s.completeSt c 0x08 := (if_neg (within_quota h)).trans (if_pos hfull)

theorem qpCreate_free {s : State} {c : Cmd} {i : Nat}
    (h : (s.fn c.src.fn).maxQp = 0 ∨ s.ioQps (fun k => k / 1024 = c.src.fn) < (s.fn c.src.fn).maxQp.toNat)
    (hroom : s.ioQps (fun _ => true) < 4096) (hi : s.freeQp c.src.fn = some i) (hev : bit c.desc.w4 19 = false) :
    s.qpCreate c = State.complete { s.setQp (qpKey c.src.fn i) (some (Qp.created c.desc c.ctx)) with
      sched := { s.sched with chains := s.sched.chains.filter fun e => e.1.key ≠ some (qpKey c.src.fn i) } } c (okRec c i 0 0) := by
  refine (if_neg (within_quota h)).trans ((if_neg (Nat.not_le.mpr hroom)).trans ?_)
  rw [hi]
  dsimp only
  rw [hev, if_neg Bool.false_ne_true]
  rfl

/-! ### Regions -/

theorem regionCreate_eq (s : State) (c : Cmd) {ps : List (Nat × BitVec 64)} (hps : ps = ((createParts c).getD []).filter fun e => (s.sump e.1).ready) :
    s.regionCreate c = if ps.isEmpty then s.completeSt c 0x12
      else if ps.any fun e => (s.sump e.1).freeRegion.isNone then s.completeSt c 0x09
      else ps.foldl (fun t e => t.modSump e.1 fun x => x.addFill e.2) s := by
  subst hps
  rfl

theorem any_freeRegion {s : State} {ps : List (Nat × BitVec 64)} :
    (ps.any fun e => (s.sump e.1).freeRegion.isNone) = true ↔ ∃ e ∈ ps, (s.sump e.1).freeRegion = none := by
  simp only [List.any_eq_true, Option.isNone_iff_eq_none]

theorem regionRemove_absent {s : State} {c : Cmd} {x : Ctx} (hx : s.ctx c.ctx = some x)
    (h : ∀ r ∈ x.regions, r.base.toNat ≠ c.desc.w2.toNat ∨ r.size ≠ c.desc.w3.toNat) : s.regionRemove c = s.completeSt c 0x0D := by
  have hnone : x.regions.find? (fun r => r.base.toNat = c.desc.w2.toNat && r.size = c.desc.w3.toNat) = none :=
    List.find?_eq_none.mpr fun r hr hp => by
      rw [Bool.and_eq_true, decide_eq_true_eq, decide_eq_true_eq] at hp
      exact (h r hr).elim (fun h => h hp.1) fun h => h hp.2
  unfold State.regionRemove
  rw [hx, Option.bind_some, hnone]

theorem regionRemove_found {s : State} {c : Cmd} {x : Ctx} {r : Region} (hx : s.ctx c.ctx = some x)
    (hr : x.regions.find? (fun r => r.base.toNat = c.desc.w2.toNat && r.size = c.desc.w3.toNat) = some r) : s.regionRemove c =
    ((((r.parts c.ctx).foldl (fun t e => t.modSump e.1 fun x => x.dropEntry e.2) s).setCtx c.ctx (some { x with regions := x.regions.erase r })).completeSt c 0) := by
  have hctxs : ((r.parts c.ctx).foldl (fun t e => t.modSump e.1 fun x => x.dropEntry e.2) s).ctxs = s.ctxs :=
    view_foldl State.ctxs (f := fun t (e : Nat × BitVec 64) => t.modSump e.1 fun x => x.dropEntry e.2) (fun _ _ => rfl) _ _
  unfold State.regionRemove
  rw [hx, Option.bind_some, hr]
  dsimp only
  rw [modCtx_some (x := x) (by rw [State.ctx, hctxs]; exact hx)]

/-- Settles O50: each command is its effect on the state in which it is carried out, whose tables are those of `s`. -/
theorem contextCommands : Obligations.ContextCommands := by
  unfold Obligations.ContextCommands
  rintro s u c f rfl
  refine ⟨?_, ?_, ?_, ?_, ?_, ?_, ?_, ?_, ?_, ?_⟩
  · intro h
    have hrow : exec (.ctxOpen c) s = .next (u.ctxOpen c) := congrArg _ (run_turn h _)
    obtain rfl := turn_eq h
    refine ⟨?_, fun hq => ⟨fun hfull => hrow.trans (congrArg _ (ctxOpen_full hq (freeCtx_none (s := s.started c) hfull))), ?_⟩⟩
    · rintro q rfl hz hle
      exact hrow.trans (congrArg _ (ctxOpen_quota hz hle))
    · rintro n k hn hfree hleast rfl
      exact hrow.trans (congrArg _ (ctxOpen_free hq (freeCtx_some (s := s.started c) hn hfree hleast)))
  · intro h x hx
    have hrow : exec (.ctxClose c) s = .next (u.ctxClose c) := congrArg _ (run_turn h _)
    obtain rfl := turn_eq h
    exact ⟨fun hc => hrow.trans (congrArg _ (ctxClose_open hx hc)), fun hc => hrow.trans (congrArg _ (ctxClose_closing hx hc))⟩
  · intro h x hx
    have hrow : exec (.ctxAttach c) s = .next (u.ctxAttach c) := congrArg _ (run_turn h _)
    obtain rfl := turn_eq h
    rw [ctxAttach_open (s := s.started c) hx] at hrow
    refine ⟨fun hc => hrow.trans (congrArg _ (if_pos hc)), fun hc => ?_⟩
    rw [if_neg (not_not.mpr hc)] at hrow
    refine ⟨fun hin => hrow.trans (congrArg _ (if_pos (List.contains_iff_mem.mpr hin))), fun hin hport => ?_, fun hin hport => ?_⟩
    · rw [if_neg (mt List.contains_iff_mem.mp hin), if_pos] at hrow
      · exact hrow
      · obtain ⟨g, hg, hp⟩ := hport
        exact List.any_eq_true.mpr ⟨g, hg, decide_eq_true hp⟩
    · rw [if_neg (mt List.contains_iff_mem.mp hin), if_neg] at hrow
      · exact hrow
      · intro hany
        obtain ⟨g, hg, hp⟩ := List.any_eq_true.mp hany
        exact hport g hg (of_decide_eq_true hp)
  · intro h x hx
    have hrow : exec (.ctxDetach c) s = .next (u.ctxDetach c) := congrArg _ (run_turn h _)
    obtain rfl := turn_eq h
    rw [ctxDetach_open (s := s.started c) hx] at hrow
    exact ⟨fun hh => hrow.trans (congrArg _ (if_pos hh)), fun hh => hrow.trans (congrArg _ (if_neg hh))⟩
  · intro h x hx
    have hrow : exec (.ctxSet c) s = .next ((u.modCtx c.ctx fun x => x.change c.desc).completeSt c 0) := congrArg _ (run_turn h _)
    obtain rfl := turn_eq h
    rw [modCtx_some (s := s.started c) hx] at hrow
    exact hrow
  · intro h
    have hrow : exec (.qpCreate c) s = .next (u.qpCreate c) := congrArg _ (run_turn h _)
    obtain rfl := turn_eq h
    refine ⟨?_, fun hq => ⟨fun hfull => hrow.trans (congrArg _ (qpCreate_full hq hfull)), fun i hroom hlo hhi hfree hleast hev => ?_⟩⟩
    · rintro q rfl hz hle
      exact hrow.trans (congrArg _ (qpCreate_quota hz hle))
    · exact hrow.trans (congrArg _ (qpCreate_free hq hroom (freeQp_some (s := s.started c) hlo hhi hfree hleast) hev))
  · rintro h k rfl -
    have hrow : exec (.qpDelete c) s = .next (u.qpDelete c) := congrArg _ (run_turn h _)
    obtain rfl := turn_eq h
    exact ⟨fun hq => hrow.trans (congrArg _ (qpDelete_absent hq)), fun hq => ⟨_, hrow, qpDelete_spec (s := s.started c) rfl hq⟩⟩
  · exact fun h => congrArg _ (run_turn h _)
  · intro h ps hps
    have hrow : exec (.regionCreate c) s = .next (u.regionCreate c) := congrArg _ (run_turn h _)
    obtain rfl := turn_eq h
    rw [regionCreate_eq (s.started c) c hps] at hrow
    refine ⟨fun he => hrow.trans (congrArg _ (if_pos (by rw [he]; rfl))), fun he hn => ?_, fun he hn => ?_⟩
    · rw [if_neg (mt List.isEmpty_iff.mp he), if_pos ((any_freeRegion (s := s.started c)).mpr hn)] at hrow
      exact hrow
    · rw [if_neg (mt List.isEmpty_iff.mp he), if_neg] at hrow
      · exact hrow
      · intro hany
        obtain ⟨e, he, hnone⟩ := any_freeRegion.mp hany
        exact hn e he hnone
  · intro h x hx
    have hrow : exec (.regionRemove c) s = .next (u.regionRemove c) := congrArg _ (run_turn h _)
    obtain rfl := turn_eq h
    exact ⟨fun hr => hrow.trans (congrArg _ (regionRemove_absent hx hr)), fun r hr => hrow.trans (congrArg _ (regionRemove_found hx hr))⟩

end Sys2Proof.Machine
end

section
/-! SUPPORT. The commands of placements, residency, passes, aborts and copies (R228 to R245, R299, R301, R325 to R329). -/

namespace Sys2Proof.Machine

/-! ### The directory -/

theorem freeHandle_least {t : Tab DirEntry} {k : Nat} (hk : k < 524288) (hfree : (Tab.get DirEntry.reset t k).valid = false)
    (hleast : ∀ j < k, (Tab.get DirEntry.reset t j).valid = true) : freeHandle t 524288 0 = some k := by
  refine List.find?_range'_eq_some.mpr ⟨by rw [hfree]; rfl, List.mem_range'_1.mpr ⟨Nat.zero_le _, by omega⟩, fun j _ hj => ?_⟩
  rw [hleast j hj]
  rfl

section
variable {s : State} {n img : Nat} {x : Ctx} (hx : s.ctx n = some x)
include hx

theorem register_unreadable (h : img % 4096 ≠ 0 ∨ s.hbmCovered n false img 1024 = false) : s.register n img = (s, .error 0x16) := by
  unfold State.register
  rw [hx, if_neg (by simp), if_pos (by simpa using h)]

theorem register_badHeader {hdr : List Byte} (ha : img % 4096 = 0) (hcov : s.hbmCovered n false img 1024 = true)
    (hread : s.hbmRead (some n) img 1024 = (s, .ok hdr)) (h : headerOk hdr = false ∨ ∃ i < 32, segHomeOk hdr i = false) :
    s.register n img = (s, .error 0x27) := by
  unfold State.register
  rw [hx, if_neg (by simp), if_neg (by simp [ha, hcov]), hread]
  dsimp only
  by_cases hh : headerOk hdr = false
  · rw [if_pos (by rw [hh]; rfl)]
  · obtain ⟨i, hi, hseg⟩ := h.resolve_left hh
    have hall : (List.range 32).all (segHomeOk hdr) = false :=
      List.all_eq_false.mpr ⟨i, List.mem_range.mpr hi, by rw [hseg]; exact Bool.false_ne_true⟩
    rw [if_neg (by rw [(Bool.not_eq_false _).mp hh]; exact Bool.false_ne_true), if_pos (by rw [hall]; rfl)]

theorem register_done {hdr : List Byte} {k : Nat} (ha : img % 4096 = 0) (hcov : s.hbmCovered n false img 1024 = true)
    (hread : s.hbmRead (some n) img 1024 = (s, .ok hdr)) (hh : headerOk hdr = true)
    (hsegs : ∀ i < 32, segHomeOk hdr i = true ∧ (segLen hdr i = 0 ∨ s.hbmCovered n false (segAddr hdr i) (segLen hdr i) = true))
    (hfree : freeHandle s.dir 524288 0 = some k) : s.register n img =
      ({ s with dir := Tab.set DirEntry.reset s.dir k { entryOf n img hdr with invalid := !s.entryValid (entryOf n img hdr) } }, .ok k) := by
  have hhome : (List.range 32).all (segHomeOk hdr) = true := List.all_eq_true.mpr fun i hi => (hsegs i (List.mem_range.mp hi)).1
  have hread' : ((List.range 32).all fun i => segLen hdr i = 0 || s.hbmCovered n false (segAddr hdr i) (segLen hdr i)) = true :=
    List.all_eq_true.mpr fun i hi => by simpa using (hsegs i (List.mem_range.mp hi)).2
  unfold State.register
  rw [hx, if_neg (by simp), if_neg (by simp [ha, hcov]), hread]
  dsimp only
  rw [hh, hhome, hread', if_neg (by decide), if_neg (by decide), if_neg (by decide), hfree]

end

theorem placeRegister_error {s t : State} {c : Cmd} {st : Nat} (h : s.register c.ctx c.desc.w2.toNat = (t, .error st)) :
    s.placeRegister c = t.completeSt c st := by
  unfold State.placeRegister
  rw [h]

theorem placeRegister_ok {s : State} {c : Cmd} {k : Nat} {e : DirEntry}
    (h : s.register c.ctx c.desc.w2.toNat = ({ s with dir := Tab.set DirEntry.reset s.dir k e }, .ok k)) :
    s.placeRegister c = State.complete { s with dir := Tab.set DirEntry.reset s.dir k e } c (okRec c (k + b2n e.invalid * 2 ^ 31) 0 0) := by
  have he : State.entry { s with dir := Tab.set DirEntry.reset s.dir k e } k = e := (get_set _ _ _ _ _).trans (if_pos rfl)
  unfold State.placeRegister
  rw [h]
  dsimp only
  rw [he]

theorem dir_release (s : State) (h : Nat) : (s.release h).dir = s.dir :=
  (view_foldl State.dir (f := fun t p => t.modSett p _) (fun _ _ => rfl) _ _).trans
    (view_foldl State.dir (f := fun t p => t.modCore p _) (fun _ _ => rfl) _ _)

theorem unregister_eq (s : State) (h : Nat) : s.unregister h = { s.release h with dir := Tab.erase s.dir h } := by
  unfold State.unregister Tab.set
  dsimp only
  rw [if_pos rfl, dir_release]

section
variable {s : State} {c : Cmd}

theorem placeUnregister_foreign (h : s.owns c.ctx (handleOf c) = false) : s.placeUnregister c = s.completeSt c 0x0D :=
  if_pos (by rw [h]; rfl)

theorem placeUnregister_owned (h : s.owns c.ctx (handleOf c) = true) : s.placeUnregister c =
    if s.needed (handleOf c) || s.passNames (handleOf c) || s.isLoading (handleOf c) then s.completeSt c 0x2A
    else ((s.unregister (handleOf c)).modCtx c.ctx fun x => x.forget (handleOf c)).completeSt c 0 :=
  if_neg (by rw [h]; exact Bool.false_ne_true)

/-! ### Residency -/

theorem resRelease_foreign (h : s.owns c.ctx (handleOf c) = false) : s.resRelease c = s.completeSt c 0x0D := if_pos (by rw [h]; rfl)

theorem resRelease_owned (h : s.owns c.ctx (handleOf c) = true) : s.resRelease c =
    if s.needed (handleOf c) || s.isLoading (handleOf c) then s.completeSt c 0x2A else (s.release (handleOf c)).completeSt c 0 :=
  if_neg (by rw [h]; exact Bool.false_ne_true)

theorem resHint_foreign (h : s.owns c.ctx (handleOf c) = false) : s.resHint c = s.completeSt c 0x0D := if_pos (by rw [h]; rfl)

theorem resHint_owned (h : s.owns c.ctx (handleOf c) = true) : s.resHint c = (s.modCtx c.ctx fun x =>
    { x with hint := if bit c.desc.w2 63 then (if x.hint = some (BitVec.ofNat 19 (handleOf c)) then none else x.hint)
                     else some (BitVec.ofNat 19 (handleOf c)) }).completeSt c 0 :=
  if_neg (by rw [h]; exact Bool.false_ne_true)

theorem resPin_foreign (h : s.owns c.ctx (handleOf c) = false) : s.resPin c = s.completeSt c 0x0D := if_pos (by rw [h]; rfl)

theorem unpin_none {n : Nat} {x : Ctx} (hx : s.ctx n = some x) (hp : x.pin = none) : s.unpin n = s := by
  unfold State.unpin
  rw [hx, Option.bind_some, hp]

theorem resPin_first {x : Ctx} (h : s.owns c.ctx (handleOf c) = true) (hb : bit c.desc.w2 63 = false) (hx : s.ctx c.ctx = some x)
    (hp : x.pin = none) : s.resPin c = (State.modEntry (s.setCtx c.ctx (some { x with pin := some (BitVec.ofNat 19 (handleOf c)), pinAt := s.tclk }))
      (handleOf c) fun e => { e with pinned := true }).completeSt c 0 := by
  unfold State.resPin
  dsimp only
  rw [if_neg (by rw [h]; exact Bool.false_ne_true), if_neg (by rw [hb]; exact Bool.false_ne_true), unpin_none hx hp, modCtx_some hx]

theorem requestLoad_resident {h : Nat} (hres : s.resident h = true) (hstale : s.isStale h = false) : s.requestLoad c h none =
    s.complete c { cmdAnswer c 0 with result := BitVec.ofNat 32 (s.entry h).cores.length, dataA := 0, dataB := 0 } :=
  if_pos (by rw [hres, hstale]; rfl)

theorem requestLoad_queued {h : Nat} {host : Option (BitVec 48)} (hgone : (host.isNone && s.resident h && !s.isStale h) = false)
    (hrun : s.fill.running = none) (hlen : s.fill.queue.length < 8) : s.requestLoad c h host =
      { s with fill := { s.fill with queue := s.fill.queue ++ [{ handle := BitVec.ofNat 19 h, host := host, cmds := [c], sched := false }] } } := by
  unfold State.requestLoad
  rw [hgone, if_neg Bool.false_ne_true, hrun]
  dsimp only
  rw [if_neg (by omega)]

theorem resLoadHost_down {page : HostRead} (h : (s.gal (c.src.fn / 64)).linkUp = false) : s.resLoadHost c page = s.completeSt c 0x12 :=
  if_pos (by rw [h]; rfl)

theorem resLoadHost_fail {st : BitVec 4} (h : (s.gal (c.src.fn / 64)).linkUp = true) : s.resLoadHost c (.fail st) = s.completeSt c (st.toNat + 0x10) :=
  if_neg (by rw [h]; exact Bool.false_ne_true)

theorem resLoadHost_ok {data : List Byte} {v w : State} {k : Nat} (h : (s.gal (c.src.fn / 64)).linkUp = true)
    (hwrite : s.hbmWrite (some c.ctx) c.desc.w3.toNat (data.take 4096) = (v, 0)) (hreg : v.register c.ctx c.desc.w3.toNat = (w, .ok k)) :
    s.resLoadHost c (.ok data) = w.requestLoad c k (some (c.desc.w2.setWidth 48)) := by
  unfold State.resLoadHost
  rw [h, if_neg (by decide)]
  dsimp only
  rw [hwrite]
  dsimp only
  rw [if_neg (not_not.mpr rfl), hreg]

/-! ### Passes -/

theorem cancelled_iff (s : State) (src : Src) : (s.sched.chains.any fun e => e.1 = src && e.2) = true ↔ (src, true) ∈ s.sched.chains := by
  simp [List.any_eq_true, Prod.exists]

theorem passLaunch_eq {t : State} (ht : t = if (passOf c).chain then s else s.setChain c.src false) : s.passLaunch c =
    if !s.owns c.ctx (passOf c).handle.toNat then t.completeSt c 0x0D
    else if (passOf c).chain && (s.sched.chains.any fun e => e.1 = c.src && e.2) then t.complete c (t.unlaunchedRec (passOf c) 0x24)
    else { t with sched := { t.sched with queue := t.sched.queue ++ [passOf c] } } := by
  subst ht
  unfold State.passLaunch
  rfl

end

/-! ### Aborts -/

theorem offHost_answerAborts (s : State) : s.answerAborts.offHost = s.offHost := by
  unfold State.answerAborts
  exact view_foldl State.offHost (fun t w => offHost_complete _ _ _) _ _

theorem ledger_answerAborts (s : State) : s.answerAborts.ledger = s.ledger := by
  obtain ⟨x, c, h⟩ := offHost_frame (offHost_answerAborts s)
  rw [h]

theorem abort_none {s : State} {c : Cmd} (h : s.abortTarget c = none) : s.abort c = s.completeSt c 0x0D := by
  unfold State.abort
  rw [h]

theorem abort_some {s t : State} {c a : Cmd} {r : Nat} (h : s.abortTarget c = some a) (ha : s.abortCmd a = (t, r)) : s.abort c =
    State.answerAborts { t with host := { t.host with aborts := t.host.aborts ++ [{ target := a, cmd := c, result := r }] } } := by
  unfold State.abort
  rw [h]
  dsimp only
  rw [ha]

theorem abortCmd_running {s : State} {a : Cmd} (ha : a.op = 0x20) (hq : ∀ q ∈ s.sched.queue, q.cmd ≠ a) (hp : s.sched.picked = none)
    (htodo : a ∉ s.host.toDo) (hrun : s.ledger.state = .running) : s.abortCmd a = (s.recordAbort abHost [], 1) := by
  have hnone : ((s.sched.queue ++ (s.sched.picked.map Picked.pass).toList).find? fun q => q.cmd = a) = none := by
    rw [hp]
    exact List.find?_eq_none.mpr fun q hin => by
      rw [decide_eq_true_eq]
      exact hq q (by simpa using hin)
  unfold State.abortCmd
  rw [if_pos ha, hnone]
  dsimp only
  rw [if_neg (mt List.contains_iff_mem.mp htodo), hrun]

theorem abortCmd_region {s : State} {a : Cmd} (ha : a.op = 0x10) : s.abortCmd a = (s, 3) := by
  unfold State.abortCmd
  rw [ha]
  rfl

/-! ### Copies -/

theorem decodeBlock_cases {P : Target → Prop} {f : Nat → Target} {g : Nat → Nat → Target} (hf : ∀ o, P (f o)) (hg : ∀ k o, P (g k o)) (hu : P .unmapped)
    (m off : Nat) : P (decodeBlock f g m off) := by
  unfold decodeBlock
  split
  · exact hf _
  · split
    · exact hu
    · split
      · exact hg _ _
      · exact hu

/-- Where the decode of an address is HBM, the address lies below 2^47. -/
def Target.lowHbm (a : Nat) : Target → Prop
  | .hbm _ _ => a < 2 ^ 47
  | _ => True

theorem decodeAddr_low (a : Nat) : (decodeAddr a).lowHbm a := by
  unfold decodeAddr
  split
  case isTrue h => exact Nat.lt_of_lt_of_le h (by decide)
  split
  case isTrue h =>
    rw [Bool.and_eq_true, decide_eq_true_eq, decide_eq_true_eq] at h
    exact Nat.lt_of_lt_of_le h.2 (by decide)
  split
  · split <;> trivial
  split
  · exact decodeBlock_cases (fun _ => trivial) (fun _ _ => trivial) trivial _ _
  split
  · exact decodeBlock_cases (fun _ => trivial) (fun _ _ => trivial) trivial _ _
  repeat' split
  all_goals trivial

theorem decodeAddr_hbm {a k o : Nat} (h : decodeAddr a = .hbm k o) : a < 2 ^ 47 := by
  have hlow := decodeAddr_low a
  rw [h] at hlow
  exact hlow

section
variable {s v w : State} {c : Cmd} {off : Nat} {page : HostRead}

theorem memCopy_first (h : ∀ e ∈ s.host.memCopies, e.1 ≠ c) : execMemCopy c page s = .next (s.run c 0x22 fun t => t.copyPiece c 0 page) := by
  have hnone : (s.host.memCopies.find? fun e => e.1 = c) = none := List.find?_eq_none.mpr fun e he => by
    rw [decide_eq_true_eq]
    exact h e he
  unfold execMemCopy
  rw [hnone]

theorem copyRead_hbm {n k o : Nat} (ha : decodeAddr (c.desc.w2.toNat + off) = .hbm k o) :
    s.copyRead c off n page = s.hbmRead (some c.ctx) (c.desc.w2.toNat + off) n := by
  unfold State.copyRead
  dsimp only
  rw [ha]

theorem copyWrite_hbm {bs : List Byte} {k o : Nat} (ha : decodeAddr (c.desc.w3.toNat + off) = .hbm k o) :
    s.copyWrite c off bs = s.hbmWrite (some c.ctx) (c.desc.w3.toNat + off) bs := by
  unfold State.copyWrite
  dsimp only
  rw [ha]

/-- A copy that wrote HBM alone ends with its record at once. -/
theorem copyEnd_hbm {moved st k o : Nat} (ha : decodeAddr c.desc.w3.toNat = .hbm k o) : s.copyEnd c moved st =
    State.completeSt { s with host := { s.host with memCopies := s.host.memCopies.filter fun e => e.1 ≠ c } } c st := by
  have hbit : bit c.desc.w3 47 = false := Nat.testBit_lt_two_pow (decodeAddr_hbm ha)
  have hfns : ∀ t : State, t.copyFns c moved = [] := fun t => by
    unfold State.copyFns
    rw [hbit]
    exact if_pos (by simp)
  unfold State.copyEnd State.completeAfter
  dsimp only
  rw [hfns]
  rfl

theorem copyPiece_eq {bs : List Byte} (hread : s.copyRead c 0 (min 4096 c.desc.w4.toNat) page = (v, .ok bs)) (hwrite : v.copyWrite c 0 bs = (w, 0)) :
    s.copyPiece c 0 page = if c.desc.w4.toNat ≤ 0 + min 4096 c.desc.w4.toNat then w.copyEnd c (0 + min 4096 c.desc.w4.toNat) 0
      else { w with host := { w.host with memCopies := w.host.memCopies.filter (fun e => e.1 ≠ c) ++ [(c, 0 + min 4096 c.desc.w4.toNat)] } } := by
  unfold State.copyPiece
  dsimp only
  rw [Nat.sub_zero, hread]
  dsimp only
  rw [hwrite]
  rfl

end

/-- Settles O51: each command is its effect on the state in which it is carried out; the operations it calls are taken one at a time. -/
theorem placementCommands : Obligations.PlacementCommands := by
  unfold Obligations.PlacementCommands
  rintro s u c h n rfl rfl
  refine ⟨?_, ?_, ?_, ?_, ?_, ?_, ?_⟩
  · intro ht x hx
    have hrow : exec (.placeRegister c) s = .next (u.placeRegister c) := congrArg _ (run_turn ht _)
    have hx : u.ctx c.ctx = some x := by rw [turn_eq ht]; exact hx
    refine ⟨fun h => hrow.trans (congrArg _ (placeRegister_error (register_unreadable hx h))), fun hdr ha hcov hread => ⟨fun h => ?_, ?_⟩⟩
    · exact hrow.trans (congrArg _ (placeRegister_error (register_badHeader hx ha hcov hread h)))
    · rintro k e hh hsegs hk hfree hleast rfl
      exact hrow.trans (congrArg _ (placeRegister_ok (register_done hx ha hcov hread hh hsegs (freeHandle_least hk hfree hleast))))
  · intro ho
    refine ⟨fun ht => ?_, fun ht => ?_, fun ht => ?_, fun ht => ?_, fun ht => ?_⟩ <;>
      have ho : u.owns c.ctx (handleOf c) = false := by rw [turn_eq ht]; exact ho
    · exact congrArg _ ((run_turn ht _).trans (placeUnregister_foreign ho))
    · have hrow : exec (.resLoad c) s = .next (if !u.owns c.ctx (handleOf c) then u.completeSt c 0x0D else u.requestLoad c (handleOf c) none) :=
        congrArg _ (run_turn ht _)
      exact hrow.trans (congrArg _ (if_pos ((Bool.not_eq_true' _).mpr ho)))
    · exact congrArg _ ((run_turn ht _).trans (resRelease_foreign ho))
    · exact congrArg _ ((run_turn ht _).trans (resHint_foreign ho))
    · exact congrArg _ ((run_turn ht _).trans (resPin_foreign ho))
  · intro ho
    refine ⟨fun ht => ?_, fun ht => ?_, fun ht => ?_, fun ht x hx => ?_, fun ht x hx hp hb => ?_⟩
    · have hrow : exec (.placeUnregister c) s = .next (u.placeUnregister c) := congrArg _ (run_turn ht _)
      obtain rfl := turn_eq ht
      rw [placeUnregister_owned (s := s.started c) ho, unregister_eq] at hrow
      refine ⟨fun h => hrow.trans (congrArg _ (if_pos ?_)), fun h1 h2 h3 => hrow.trans (congrArg _ (if_neg ?_))⟩
      · rw [Bool.or_eq_true, Bool.or_eq_true, or_assoc]
        exact h
      · rw [Bool.or_eq_true, Bool.or_eq_true, or_assoc, not_or, not_or, Bool.not_eq_true, Bool.not_eq_true, Bool.not_eq_true]
        exact ⟨h1, h2, h3⟩
    · have hrow : exec (.resLoad c) s = .next (if !u.owns c.ctx (handleOf c) then u.completeSt c 0x0D else u.requestLoad c (handleOf c) none) :=
        congrArg _ (run_turn ht _)
      obtain rfl := turn_eq ht
      rw [if_neg (by rw [show (s.started c).owns c.ctx (handleOf c) = true from ho]; exact Bool.false_ne_true)] at hrow
      refine ⟨fun h1 h2 => hrow.trans (congrArg _ (requestLoad_resident h1 h2)), fun h hr hl => hrow.trans (congrArg _ (requestLoad_queued ?_ hr hl))⟩
      rcases h with h | h
      · rw [show (s.started c).resident (handleOf c) = false from h]
        rfl
      · rw [show (s.started c).isStale (handleOf c) = true from h, Bool.not_true, Bool.and_false]
    · have hrow : exec (.resRelease c) s = .next (u.resRelease c) := congrArg _ (run_turn ht _)
      obtain rfl := turn_eq ht
      rw [resRelease_owned (s := s.started c) ho] at hrow
      refine ⟨fun h => hrow.trans (congrArg _ (if_pos ?_)), fun h1 h2 => hrow.trans (congrArg _ (if_neg ?_))⟩
      · rw [Bool.or_eq_true]
        exact h
      · rw [Bool.or_eq_true, not_or, Bool.not_eq_true, Bool.not_eq_true]
        exact ⟨h1, h2⟩
    · have hrow : exec (.resHint c) s = .next (u.resHint c) := congrArg _ (run_turn ht _)
      obtain rfl := turn_eq ht
      rw [resHint_owned (s := s.started c) ho, modCtx_some (s := s.started c) hx] at hrow
      exact hrow
    · have hrow : exec (.resPin c) s = .next (u.resPin c) := congrArg _ (run_turn ht _)
      obtain rfl := turn_eq ht
      exact hrow.trans (congrArg _ (resPin_first (s := s.started c) ho hb hx hp))
  · intro ht page
    have hrow : exec (.resLoadHost c page) s = .next (u.resLoadHost c page) := congrArg _ (run_turn ht _)
    obtain rfl := turn_eq ht
    refine ⟨fun hdown => hrow.trans (congrArg _ (resLoadHost_down hdown)), ?_, ?_⟩
    · rintro st hup rfl
      exact hrow.trans (congrArg _ (resLoadHost_fail hup))
    · rintro data v w k hup rfl hwrite hreg hrun hlen
      exact hrow.trans (congrArg _ ((resLoadHost_ok (s := s.started c) hup hwrite hreg).trans (requestLoad_queued rfl hrun hlen)))
  · intro ht q t hq htt
    have hrow : exec (.passLaunch c) s = .next (u.passLaunch c) := congrArg _ (run_turn ht _)
    subst hq
    rw [passLaunch_eq htt] at hrow
    have hown : u.owns c.ctx (passOf c).handle.toNat = s.owns c.ctx (passOf c).handle.toNat := by rw [turn_eq ht]; rfl
    have hchains : u.sched.chains = s.sched.chains := by rw [turn_eq ht]; rfl
    rw [hown, hchains] at hrow
    refine ⟨fun ho => ?_, fun ho hc hin => ?_, fun ho hc => ?_⟩
    · rw [ho] at hrow
      exact hrow
    · rw [ho, hc, (cancelled_iff s c.src).mpr hin] at hrow
      exact hrow
    · rw [ho, Bool.not_true, if_neg Bool.false_ne_true, if_neg] at hrow
      · exact hrow
      · rw [Bool.and_eq_true, cancelled_iff]
        rintro ⟨h1, h2⟩
        rcases hc with h | h
        · rw [h] at h1
          cases h1
        · exact h h2
  · intro ht
    have hrow : exec (.abort c) s = .next (u.abort c) := congrArg _ (run_turn ht _)
    refine ⟨fun h => hrow.trans (congrArg _ (abort_none h)), ?_, ?_⟩
    · intro a hat ha hq hp htodo hrun
      have hcmd : u.abortCmd a = (u.recordAbort abHost [], 1) := by
        obtain rfl := turn_eq ht
        exact abortCmd_running ha hq hp htodo hrun
      have habort := recordAbort_running (s := u) (by rw [turn_eq ht]; exact hrun) abHost []
      refine ⟨_, hrow.trans (congrArg _ (abort_some hat hcmd)), ?_⟩
      rw [ledger_answerAborts]
      exact habort
    · intro a hat ha
      exact hrow.trans (congrArg _ (abort_some hat (abortCmd_region ha)))
  · intro ht hfirst page a b ka oa kb ob v w bs ha hb hka hkb hread hwrite
    have hrow : exec (.memCopy c page) s = .next (u.copyPiece c 0 page) := (memCopy_first hfirst).trans (congrArg _ (run_turn ht _))
    subst ha hb
    rw [copyPiece_eq ((copyRead_hbm hka).trans hread) ((copyWrite_hbm hkb).trans hwrite)] at hrow
    refine ⟨fun h => ?_, fun h => ?_⟩
    · rw [if_pos (by omega), copyEnd_hbm hkb] at hrow
      exact hrow
    · rw [if_neg (by omega), Nat.min_eq_left h.le] at hrow
      exact hrow

end Sys2Proof.Machine
end

section
/-! SUPPORT. The management commands and event packets (R259, R314, R330 to R335, R395, R419, R423, R459, R464). -/

namespace Sys2Proof.Machine

/-! ### DRAIN -/

theorem fld_or {n : Nat} (x y : BitVec n) (hi lo : Nat) : fld (x ||| y) hi lo = fld x hi lo ||| fld y hi lo := by
  unfold fld
  rw [BitVec.toNat_or, Nat.shiftRight_or_distrib, Nat.or_mod_two_pow]

theorem fld_ofNat_above {m hi lo : Nat} (h : m < 2 ^ lo) : fld (BitVec.ofNat 64 m) hi lo = 0 := by
  unfold fld
  rw [BitVec.toNat_ofNat, Nat.shiftRight_eq_div_pow, Nat.div_eq_of_lt (Nat.lt_of_le_of_lt (Nat.mod_le _ _) h), Nat.zero_mod]

/-- A field inside the one that is copied reads as in the source. -/
theorem fld_setFld_copy {n : Nat} {x v : BitVec n} {hi lo h2 l2 : Nat} (h : lo ≤ hi) (hn : hi < n) (hl : lo ≤ l2) (hh : h2 ≤ hi) :
    fld (setFld x hi lo (fld v hi lo)) h2 l2 = fld v h2 l2 := by
  refine Nat.eq_of_testBit_eq fun i => ?_
  rw [fld_testBit, fld_testBit, bit_setFld h hn, fld_testBit]
  by_cases hi' : i < h2 + 1 - l2
  · rw [if_pos (by omega), decide_eq_true hi', decide_eq_true (by omega : l2 + i - lo < hi + 1 - lo), Nat.add_sub_cancel' (by omega)]
    rfl
  · rw [decide_eq_false hi']
    rfl

/-- What a DRAIN command writes to GAL_DRAIN (R259, R330). -/
def drainWord (reg : BitVec 64) (fold : Bool) (cls : Nat) : BitVec 64 :=
  setFld (setFld (setBit (setBit (0 : BitVec 64) 42 true) 43 fold) 51 48 cls) 47 44 cls ||| BitVec.ofNat 64 (fld reg 31 0)

theorem fld_lt (x : BitVec 64) (hi lo : Nat) : fld x hi lo < 2 ^ (hi + 1 - lo) := Nat.mod_lt _ (Nat.two_pow_pos _)

theorem drainWord_fields (reg : BitVec 64) (fold : Bool) {cls : Nat} (h : cls < 16) : bit (drainWord reg fold cls) 42 = true
    ∧ fld (drainWord reg fold cls) 47 44 = cls ∧ fld (drainWord reg fold cls) 51 48 = cls ∧ fld (drainWord reg fold cls) 31 0 = fld reg 31 0 := by
  have hlow := fld_lt reg 31 0
  have hzero : fld (0 : BitVec 64) 31 0 = 0 := by decide
  have hkeep : fld (BitVec.ofNat 64 (fld reg 31 0)) 31 0 = fld reg 31 0 := by
    rw [fld, BitVec.toNat_ofNat, Nat.shiftRight_zero, Nat.mod_eq_of_lt (Nat.lt_of_lt_of_le hlow (by decide)), Nat.mod_eq_of_lt hlow]
  unfold drainWord
  refine ⟨?_, ?_, ?_, ?_⟩
  · rw [bit_or, bit_setFld_ne (by decide) (by decide) (by decide), bit_setFld_ne (by decide) (by decide) (by decide), bit_setBit (by decide),
      if_neg (by decide), bit_setBit (by decide), if_pos rfl, Bool.true_or]
  · rw [fld_or, fld_setFld (by decide) (by decide), fld_ofNat_above (by omega), Nat.or_zero]
    exact Nat.mod_eq_of_lt h
  · rw [fld_or, fld_setFld_ne (by decide) (by decide) (by decide), fld_setFld (by decide) (by decide), fld_ofNat_above (by omega), Nat.or_zero]
    exact Nat.mod_eq_of_lt h
  · rw [fld_or, fld_setFld_ne (by decide) (by decide) (by decide), fld_setFld_ne (by decide) (by decide) (by decide), fld_setBit_ne (by decide) (by decide),
      fld_setBit_ne (by decide) (by decide), hzero, hkeep, Nat.zero_or]

/-- A write with START of a drain that is not under way (R259). -/
theorem write_starts {d : Drain} {v : BitVec 64} (hb : d.busy = false) (hstart : bit v 42 = true) : (d.write v).state = 1
    ∧ fld (d.write v).reg 47 44 = fld v 47 44 ∧ fld (d.write v).reg 51 48 = fld v 51 48 ∧ fld (d.write v).reg 31 0 = fld v 31 0
    ∧ (d.write v).cmds = d.cmds := by
  have hgo : (bit v 42 && !d.busy) = true := by rw [hstart, hb]; rfl
  unfold Drain.write
  dsimp only
  rw [if_pos hgo]
  unfold Drain.setState Drain.state
  dsimp only
  refine ⟨(fld_setFld (by decide) (by decide)).trans (by decide), ?_, ?_, ?_, rfl⟩
  · rw [fld_setFld_ne (by decide) (by decide) (by decide), fld_setFld_ne (by decide) (by decide) (by decide), fld_setFld_copy] <;> decide
  · rw [fld_setFld_ne (by decide) (by decide) (by decide), fld_setFld_ne (by decide) (by decide) (by decide), fld_setFld_copy] <;> decide
  · rw [fld_setFld_ne (by decide) (by decide) (by decide), fld_setFld_copy] <;> decide

theorem stageTables_cores (s : State) (dark : List Nat) (nodes : List Node) : (s.stageTables dark nodes).cores = s.cores := by
  obtain ⟨rpt, h⟩ := stageTables_eq s dark nodes
  rw [h]
  exact view_foldl State.cores (fun u n => by cases n <;> rfl) _ s

theorem drainCmd_eq (s : State) (c : Cmd) {cls : Nat} (hc : cls = if fld c.desc.w2 3 0 = 0 then 15 else fld c.desc.w2 3 0) :
    ∃ fold, s.drainCmd c = State.drainEdge { s.stageTables [] allNodes with drain := { (s.stageTables [] allNodes).drain.write
      (drainWord (s.stageTables [] allNodes).drain.reg fold cls) with
        cmds := ((s.stageTables [] allNodes).drain.write (drainWord (s.stageTables [] allNodes).drain.reg fold cls)).cmds ++ [c] } }
      (s.stageTables [] allNodes).drain.state := by
  subst hc
  exact ⟨_, rfl⟩

theorem drainEdge_cmds (t : State) (d : Drain) (c : Cmd) (old : Nat) : ∃ gals, State.drainEdge { t with drain := { d with cmds := d.cmds ++ [c] } } old =
    { t with drain := { d with cmds := d.cmds ++ [c] }, gals := gals } := drainEdge_frame _ _

theorem drainCmd_frame (s : State) (c : Cmd) {cls : Nat} (hc : cls = if fld c.desc.w2 3 0 = 0 then 15 else fld c.desc.w2 3 0) :
    ∃ fold rpt d gals, d = Drain.write { s.drain with rpt := rpt } (drainWord s.drain.reg fold cls)
      ∧ s.drainCmd c = { s.stageTables [] allNodes with drain := { d with cmds := d.cmds ++ [c] }, gals := gals } := by
  obtain ⟨fold, heq⟩ := drainCmd_eq s c hc
  obtain ⟨rpt, hrpt⟩ := stageTables_drain s [] allNodes
  rw [hrpt] at heq
  obtain ⟨gals, hg⟩ := drainEdge_cmds (s.stageTables [] allNodes) (Drain.write { s.drain with rpt := rpt } (drainWord s.drain.reg fold cls)) c s.drain.state
  exact ⟨fold, rpt, _, gals, rfl, heq.trans hg⟩

theorem drainCmd_spec {s : State} {c : Cmd} {cls : Nat} (hc : cls = if fld c.desc.w2 3 0 = 0 then 15 else fld c.desc.w2 3 0)
    (hb : s.drain.busy = false) : (s.drainCmd c).drain.state = 1 ∧ (s.drainCmd c).drain.cmds = s.drain.cmds ++ [c]
      ∧ fld (s.drainCmd c).drain.reg 47 44 = cls ∧ fld (s.drainCmd c).drain.reg 51 48 = cls
      ∧ fld (s.drainCmd c).drain.reg 31 0 = fld s.drain.reg 31 0 ∧ (s.drainCmd c).cores = s.cores := by
  have hcls : cls < 16 := by
    have := fld_lt c.desc.w2 3 0
    rw [hc]
    split <;> omega
  obtain ⟨fold, rpt, d, gals, hd, heq⟩ := drainCmd_frame s c hc
  obtain ⟨hstart, h47, h51, h31⟩ := drainWord_fields s.drain.reg fold hcls
  obtain ⟨w1, w2, w3, w4, w5⟩ := write_starts (d := { s.drain with rpt := rpt }) hb hstart
  rw [← hd] at w1 w2 w3 w4 w5
  rw [heq]
  exact ⟨w1, congrArg (· ++ [c]) w5, w2.trans h47, w3.trans h51, w4.trans h31, stageTables_cores s [] allNodes⟩

/-! ### FENCE and UNFENCE -/

/-- The epochs that fences are judged against (R459). -/
def State.epochs (s : State) : JobEpoch × List (BitVec 64 × JobEpoch) := (s.span.panelEpoch, s.span.jobs)

/-- The state without what ends a queued pass: the host side, the contexts and the scheduler. -/
def State.offQueue (s : State) : State := { s with host := State.reset.host, ctxs := [], sched := State.reset.sched }

theorem offQueue_of_offHost {t u : State} (h : t.offHost = u.offHost) : t.offQueue = u.offQueue := by
  obtain ⟨x, c, hx⟩ := offHost_frame h
  rw [hx]
  rfl

theorem offQueue_cancelChain (s : State) (src : Src) (after : Option QPass) : (s.cancelChain src after).offQueue = s.offQueue := by
  unfold State.cancelChain
  dsimp only
  refine (view_foldl State.offQueue (fun t q => offQueue_of_offHost (offHost_complete _ _ _)) _ _).trans ?_
  cases after <;> dsimp only <;> split <;> rfl

theorem offQueue_endUnlaunched (s : State) (q : QPass) (st : Nat) : (s.endUnlaunched q st).offQueue = s.offQueue :=
  (offQueue_cancelChain _ _ _).trans (offQueue_of_offHost (offHost_complete _ _ _))

theorem ledger_of_offQueue {t u : State} (h : t.offQueue = u.offQueue) : t.ledger = u.ledger := by
  have h := congrArg State.ledger h
  exact h

theorem span_of_offQueue {t u : State} (h : t.offQueue = u.offQueue) : t.span = u.span := by
  have h := congrArg State.span h
  exact h

/-- The running pass of a context is aborted by a fence. -/
def State.fenceRunning (s : State) (n : Nat) : State :=
  if s.ledger.state ≠ .idle && (s.ledger.pass.any fun q => q.ctx.toNat = n) then s.recordAbort abFenced [] else s

theorem fencePasses_offQueue (s : State) (n : Nat) : (s.fencePasses n).offQueue = (s.fenceRunning n).offQueue := by
  unfold State.fencePasses
  dsimp only
  have hfold := fun t : State => view_foldl State.offQueue (f := fun t q => t.endUnlaunched q 0x30) (fun t q => offQueue_endUnlaunched t q 0x30)
    (t.sched.queue.filter fun q => q.ctx.toNat = n) t
  split
  · split
    · exact (offQueue_endUnlaunched _ _ _).trans (hfold _)
    · exact hfold _
  · exact hfold _

theorem span_fenceRunning (s : State) (n : Nat) : (s.fenceRunning n).span = s.span := by
  unfold State.fenceRunning
  split
  · obtain ⟨led, gals, h⟩ := recordAbort_frame s abFenced []
    rw [h]
  · rfl

theorem epochs_modCtx (s : State) (n : Nat) (f : Ctx → Ctx) : (s.modCtx n f).epochs = s.epochs := by
  unfold State.modCtx
  split <;> rfl

theorem ledger_modCtx (s : State) (n : Nat) (f : Ctx → Ctx) : (s.modCtx n f).ledger = s.ledger := by
  unfold State.modCtx
  split <;> rfl

theorem epochs_of_offHost {t u : State} (h : t.offHost = u.offHost) : t.epochs = u.epochs := by
  obtain ⟨x, c, hx⟩ := offHost_frame h
  rw [hx]
  rfl

theorem ledger_of_offHost {t u : State} (h : t.offHost = u.offHost) : t.ledger = u.ledger := by
  obtain ⟨x, c, hx⟩ := offHost_frame h
  rw [hx]

theorem copyOver_keeps (s : State) (j : CopyJob) (st : Nat) : (s.copyOver j st).epochs = s.epochs ∧ (s.copyOver j st).ledger = s.ledger := by
  unfold State.copyOver
  dsimp only
  rw [epochs_of_offHost (offHost_complete _ _ _), ledger_of_offHost (offHost_complete _ _ _)]
  split
  · exact ⟨(epochs_modCtx _ _ _).trans rfl, (ledger_modCtx _ _ _).trans rfl⟩
  · exact ⟨rfl, rfl⟩

theorem freeHandoffs_keeps (s : State) : s.freeHandoffs.epochs = s.epochs ∧ s.freeHandoffs.ledger = s.ledger := by
  unfold State.freeHandoffs
  exact ⟨view_foldl State.epochs (fun _ _ => epochs_modCtx _ _ _) _ _, view_foldl State.ledger (fun _ _ => ledger_modCtx _ _ _) _ _⟩

theorem fenceOutput_keeps (s : State) (n : Nat) : (s.fenceOutput n).epochs = s.epochs ∧ (s.fenceOutput n).ledger = s.ledger := by
  unfold State.fenceOutput
  dsimp only
  rw [(freeHandoffs_keeps _).1, (freeHandoffs_keeps _).2]
  exact ⟨(view_foldl State.epochs (fun _ _ => (copyOver_keeps _ _ _).1) _ _).trans rfl,
    (view_foldl State.ledger (fun _ _ => (copyOver_keeps _ _ _).2) _ _).trans rfl⟩

/-- One context's passes and output under a fence. -/
def State.fenceOne (s : State) (n : Nat) : State := (s.fencePasses n).fenceOutput n

theorem fenceOne_keeps (s : State) (n : Nat) : (s.fenceOne n).epochs = s.epochs ∧ (s.fenceOne n).ledger = (s.fenceRunning n).ledger := by
  obtain ⟨hep, hled⟩ := fenceOutput_keeps (s.fencePasses n) n
  have hoff := fencePasses_offQueue s n
  have hspan : (s.fencePasses n).span = s.span := (span_of_offQueue hoff).trans (span_fenceRunning s n)
  refine ⟨hep.trans ?_, hled.trans (ledger_of_offQueue hoff)⟩
  unfold State.epochs
  rw [hspan]

/-- The ledger holds a pass that a fence has aborted. -/
def Ledger.fenceAborted (l : Ledger) : Prop := l.outcome = .aborted ∧ l.reason = BitVec.ofNat 8 abFenced

/-- A further abort by a fence leaves the outcome of the first. -/
theorem recordAbort_stays {s : State} (h : s.ledger.fenceAborted) : (s.recordAbort abFenced []).ledger.fenceAborted := by
  have hquiet : ∀ t : State, t.ledger.fenceAborted → t.checkQuiesced.ledger.fenceAborted := fun t ht => by
    obtain ⟨st, hq⟩ := checkQuiesced_frame t
    rw [hq]
    exact ht
  unfold State.recordAbort
  dsimp only
  split
  · exact h
  case h_2 | h_3 => exact hquiet _ ⟨rfl, rfl⟩
  · exact hquiet _ h
  · exact h

theorem fenceRunning_stays {s : State} (h : s.ledger.fenceAborted) (n : Nat) : (s.fenceRunning n).ledger.fenceAborted := by
  unfold State.fenceRunning
  split
  · exact recordAbort_stays h
  · exact h

theorem fenceRunning_own {s : State} {q : QPass} {n : Nat} (hrun : s.ledger.state = .running) (hp : s.ledger.pass = some q) (hn : q.ctx.toNat = n) :
    (s.fenceRunning n).ledger.fenceAborted := by
  unfold State.fenceRunning
  rw [if_pos (by simp [hrun, hp, hn])]
  exact recordAbort_running hrun abFenced []

theorem fenceRunning_other {s : State} {q : QPass} {n : Nat} (hp : s.ledger.pass = some q) (hn : q.ctx.toNat ≠ n) : s.fenceRunning n = s :=
  if_neg (by simp [hp, hn])

theorem foldl_fenceOne {q : QPass} (l : List Nat) (s : State)
    (h : (s.ledger.state = .running ∧ s.ledger.pass = some q ∧ q.ctx.toNat ∈ l) ∨ s.ledger.fenceAborted) : (l.foldl State.fenceOne s).ledger.fenceAborted := by
  induction l generalizing s with
  | nil => exact h.resolve_left fun h => List.not_mem_nil h.2.2
  | cons n l ih =>
    rw [List.foldl_cons]
    have hled := (fenceOne_keeps s n).2
    refine ih _ ?_
    rw [hled]
    rcases h with ⟨hrun, hp, hmem⟩ | h
    · by_cases hn : q.ctx.toNat = n
      · exact Or.inr (fenceRunning_own hrun hp hn)
      · rw [fenceRunning_other hp hn]
        exact Or.inl ⟨hrun, hp, (List.mem_cons.mp hmem).resolve_left hn⟩
    · exact Or.inr (fenceRunning_stays h n)

theorem foldl_fenceOne_epochs (l : List Nat) (s : State) : (l.foldl State.fenceOne s).epochs = s.epochs :=
  view_foldl State.epochs (fun s n => (fenceOne_keeps s n).1) l s

section
variable {s : State} {c : Cmd}

theorem fenceError_unsigned (h : s.fenceSigned c = false ∨ c.desc.w4 ≠ s.nv.serial) : s.fenceError c = some 0x31 :=
  if_pos (by rcases h with h | h <;> simp [h])

theorem fenceError_signed (h : s.fenceSigned c = true) (hs : c.desc.w4 = s.nv.serial) :
    s.fenceError c = if c.desc.w2.toNat ≤ (s.fenceEpoch c).epoch.toNat then some 0x32 else none := if_neg (by simp [h, hs])

theorem fence_error {st : Nat} (h : s.fenceError c = some st) : s.fence c = s.completeSt c st := by
  unfold State.fence
  rw [h]

theorem unfence_error {st : Nat} (h : s.fenceError c = some st) : s.unfence c = s.completeSt c st := by
  unfold State.unfence
  rw [h]

theorem unfence_lifts (h : s.fenceError c = none) :
    s.unfence c = (s.setEpoch c { epoch := c.desc.w2, fenced := false }).complete c (okRec c (s.covered c).length 0 0) := by
  unfold State.unfence
  rw [h]

theorem fence_offHost (h : s.fenceError c = none) :
    (s.fence c).offHost = ((s.covered c).foldl State.fenceOne (s.setEpoch c { epoch := c.desc.w2, fenced := true })).offHost := by
  unfold State.fence
  rw [h]
  exact (offHost_complete _ _ _).trans (offHost_ctxEvents _ _ _)

theorem setEpoch_all (h : c.desc.w3 = 0xFFFFFFFFFFFFFFFF) (e : JobEpoch) : s.setEpoch c e = { s with span := { s.span with panelEpoch := e } } :=
  if_pos (decide_eq_true h)

theorem setEpoch_job (h : c.desc.w3 ≠ 0xFFFFFFFFFFFFFFFF) (e : JobEpoch) : s.setEpoch c e =
    { s with span := { s.span with jobs := s.span.jobs.filter (fun x => x.1 ≠ c.desc.w3) ++ [(c.desc.w3, e)] } } :=
  if_neg (mt of_decide_eq_true h)

theorem find_replaced (l : List (BitVec 64 × JobEpoch)) (k : BitVec 64) (e : JobEpoch) :
    (l.filter (fun x => x.1 ≠ k) ++ [(k, e)]).find? (fun x => x.1 = k) = some (k, e) := by
  have hnone : (l.filter fun x => x.1 ≠ k).find? (fun x => x.1 = k) = none := List.find?_eq_none.mpr fun x hx => by
    have := (List.mem_filter.mp hx).2
    simpa using this
  rw [List.find?_append, hnone]
  simp

theorem fence_spec (h : s.fenceError c = none) :
    (c.desc.w3 = 0xFFFFFFFFFFFFFFFF → (s.fence c).span.panelEpoch = { epoch := c.desc.w2, fenced := true })
    ∧ (c.desc.w3 ≠ 0xFFFFFFFFFFFFFFFF → (s.fence c).jobEpoch c.desc.w3 = { epoch := c.desc.w2, fenced := true })
    ∧ ∀ q, s.ledger.state = .running → s.ledger.pass = some q → q.ctx.toNat ∈ s.covered c → (s.fence c).ledger.fenceAborted := by
  have hep : (s.fence c).epochs = (s.setEpoch c { epoch := c.desc.w2, fenced := true }).epochs :=
    (epochs_of_offHost (fence_offHost h)).trans (foldl_fenceOne_epochs _ _)
  refine ⟨fun ha => ?_, fun ha => ?_, fun q hrun hp hq => ?_⟩
  · rw [setEpoch_all ha] at hep
    exact congrArg Prod.fst hep
  · rw [setEpoch_job ha] at hep
    have hjobs : (s.fence c).span.jobs = s.span.jobs.filter (fun x => x.1 ≠ c.desc.w3) ++ [(c.desc.w3, { epoch := c.desc.w2, fenced := true })] :=
      congrArg Prod.snd hep
    unfold State.jobEpoch
    rw [hjobs, find_replaced]
  · rw [ledger_of_offHost (fence_offHost h)]
    refine foldl_fenceOne (q := q) _ _ (Or.inl ?_)
    unfold State.setEpoch
    split <;> exact ⟨hrun, hp, hq⟩

end

end Sys2Proof.Machine
end

section
/-! SUPPORT. The management commands that follow a fence: power, reset, queries, firmware; event packets (R314, R330 to R335, R395, R419). -/

namespace Sys2Proof.Machine

/-! ### MEADOW_POWER -/

theorem mem_namedMeadows_filter {c : Cmd} {p : Nat → Bool} {m : Nat} (hm : m ∈ namedMeadows c) (hp : p m = true) : m ∈ (namedMeadows c).filter p :=
  List.mem_filter.mpr ⟨hm, hp⟩

theorem finishMeadowJobs_frame (s : State) : ∃ x c j, s.finishMeadowJobs = { s with host := x, ctxs := c, power := { s.power with jobs := j } } := by
  have hoff : s.finishMeadowJobs.offHost = State.offHost { s with power := { s.power with jobs := s.finishMeadowJobs.power.jobs } } := by
    have hfold : ∃ j, s.finishMeadowJobs.offHost = State.offHost { s with power := { s.power with jobs := j } } := by
      unfold State.finishMeadowJobs
      exact ⟨_, view_foldl State.offHost (fun _ _ => offHost_complete _ _ _) _ _⟩
    obtain ⟨j, hj⟩ := hfold
    have hjobs := congrArg (fun t : State => t.power.jobs) hj
    have hjobs : s.finishMeadowJobs.power.jobs = j := hjobs
    rw [hjobs]
    exact hj
  obtain ⟨x, c, h⟩ := offHost_frame hoff
  exact ⟨x, c, _, h⟩

section
variable {s : State} {c : Cmd}

/-- No in-rush is allowed, or every named meadow is LOCKED. -/
theorem meadowOnCmd_refused (h : s.inrushAllowed = false ∨ (namedMeadows c ≠ [] ∧ ∀ m ∈ namedMeadows c, s.meadowState m = 6)) :
    s.meadowOnCmd c = s.completeSt c 0x05 := by
  unfold State.meadowOnCmd
  dsimp only
  by_cases hal : s.inrushAllowed = false
  · rw [hal]
    rfl
  · obtain ⟨hne, hall⟩ := h.resolve_left hal
    have hoff : ((namedMeadows c).filter fun m => s.meadowState m ≠ 3) = namedMeadows c :=
      List.filter_eq_self.mpr fun m hm => by rw [hall m hm]; rfl
    have hlocked : ((namedMeadows c).filter fun m => s.meadowState m = 6) = namedMeadows c :=
      List.filter_eq_self.mpr fun m hm => decide_eq_true (hall m hm)
    rw [(Bool.not_eq_false _).mp hal, if_neg (by decide), hoff, hlocked]
    exact if_pos (by simp [hne])

/-- A request of R376 for each named dark meadow without one. -/
theorem meadowOnCmd_asks (hal : s.inrushAllowed = true) (hdark : ∃ m ∈ namedMeadows c, s.meadowState m = 0) :
    (∀ m ∈ namedMeadows c, s.meadowState m = 0 → ∃ r ∈ (s.meadowOnCmd c).power.requests, r.meadow = m)
    ∧ (s.meadowOnCmd c).cores = s.cores ∧ (s.meadowOnCmd c).setts = s.setts := by
  obtain ⟨d, hd, hd0⟩ := hdark
  have hoffd : d ∈ (namedMeadows c).filter fun m => s.meadowState m ≠ 3 := mem_namedMeadows_filter hd (by rw [hd0]; rfl)
  have hfree : ¬ ((!((namedMeadows c).filter fun m => s.meadowState m ≠ 3).isEmpty
      && (((namedMeadows c).filter fun m => s.meadowState m ≠ 3).filter fun m => s.meadowState m = 6).length
        = ((namedMeadows c).filter fun m => s.meadowState m ≠ 3).length) = true) := by
    rw [Bool.and_eq_true, decide_eq_true_eq]
    rintro ⟨-, hlen⟩
    have hall := List.length_filter_eq_length_iff.mp hlen d hoffd
    rw [decide_eq_true_eq, hd0] at hall
    cases hall
  unfold State.meadowOnCmd
  dsimp only
  rw [hal, if_neg (by decide), if_neg hfree]
  obtain ⟨x, cx, j, hfin⟩ := finishMeadowJobs_frame { s with power := { s.power with
    requests := s.power.requests ++ ((((namedMeadows c).filter fun m => s.meadowState m ≠ 3).filter fun m => s.meadowState m ≠ 6).filter
      fun m => s.meadowState m ≠ 2 && !(s.power.requests.any fun r => r.meadow = m)).map
        (fun m => ({ meadow := m, cmd := some c, deferred := false, since := s.tclk } : InrushReq))
    jobs := s.power.jobs ++ [{ cmd := c, on := true
                               todo := ((namedMeadows c).filter fun m => s.meadowState m ≠ 3).filter fun m => s.meadowState m ≠ 6
                               dark := BitVec.ofNat 8 (maskOf (((namedMeadows c).filter fun m => s.meadowState m ≠ 3).filter fun m => s.meadowState m = 6)) }] } }
  rw [hfin]
  refine ⟨fun m hm h0 => ?_, rfl, rfl⟩
  by_cases hreq : s.power.requests.any (fun r => r.meadow = m) = true
  · obtain ⟨r, hr, hrm⟩ := List.any_eq_true.mp hreq
    exact ⟨r, List.mem_append_left _ hr, of_decide_eq_true hrm⟩
  · refine ⟨_, List.mem_append_right _ (List.mem_map.mpr ⟨m, ?_, rfl⟩), rfl⟩
    refine List.mem_filter.mpr ⟨List.mem_filter.mpr ⟨List.mem_filter.mpr ⟨hm, by rw [h0]; rfl⟩, by rw [h0]; rfl⟩, ?_⟩
    rw [h0, Bool.eq_false_iff.mpr hreq]
    rfl

theorem meadowOffCmd_spec : (∀ m ∈ namedMeadows c, s.meadowState m = 3 → m ∈ (s.meadowOffCmd c).power.turnOff)
    ∧ (s.meadowOffCmd c).power.meadow = s.power.meadow ∧ (s.meadowOffCmd c).cores = s.cores ∧ (s.meadowOffCmd c).setts = s.setts := by
  have hmem := fun m => foldl_planOff_mem (m := m) ((namedMeadows c).filter fun m => s.meadowState m = 3 || s.meadowState m = 4) s
  obtain ⟨k, hk⟩ := foldl_planOff_frame ((namedMeadows c).filter fun m => s.meadowState m = 3 || s.meadowState m = 4) s
  unfold State.meadowOffCmd
  dsimp only
  rw [hk] at hmem ⊢
  obtain ⟨x, cx, j, hfin⟩ := finishMeadowJobs_frame { s with power := { s.power with
    turnOff := k
    jobs := s.power.jobs ++ [{ cmd := c, on := false, todo := (namedMeadows c).filter fun m => s.meadowState m = 3 || s.meadowState m = 4, dark := 0 }] } }
  rw [hfin]
  exact ⟨fun m hm h3 => hmem m (Or.inl ⟨mem_namedMeadows_filter hm (by rw [h3]; rfl), h3⟩), rfl, rfl, rfl⟩

/-! ### PANEL_RESET and SHADOW -/

theorem panelReset_queue (h : c.src ≠ .mctp) : s.panelReset c = s.completeSt c 0 := if_neg h

theorem panelReset_mctp (h : c.src = .mctp) : (s.panelReset c).boot = { s.boot with resetAt := some (s.tclk + 1000000) } := by
  obtain ⟨x, cx, hx⟩ := offHost_frame (offHost_completeSt s c 0)
  unfold State.panelReset
  dsimp only
  rw [if_pos h, hx]

theorem shadow_taken {x : Ctx} (hx : s.ctx c.ctx = some x) (h : c.desc.w3.toNat = 0 ∨
    (s.hbmCovered c.ctx true c.desc.w3.toNat (64 * fld c.desc.w4 15 0) = true ∧ s.hbmCovered c.ctx false c.desc.w3.toNat (64 * fld c.desc.w4 15 0) = true)) :
    s.shadow c = (s.setCtx c.ctx (some { x with shadowOn := bit c.desc.w2 0, digest := BitVec.ofNat 48 c.desc.w3.toNat
                                                slots := BitVec.ofNat 16 (fld c.desc.w4 15 0) })).completeSt c 0 := by
  unfold State.shadow
  dsimp only
  rw [if_neg, modCtx_some hx]
  rcases h with h | ⟨h1, h2⟩
  · simp [h]
  · simp [h1, h2]

theorem shadow_outside (ha : c.desc.w3.toNat ≠ 0) (h : s.hbmCovered c.ctx true c.desc.w3.toNat (64 * fld c.desc.w4 15 0) = false
    ∨ s.hbmCovered c.ctx false c.desc.w3.toNat (64 * fld c.desc.w4 15 0) = false) : s.shadow c = s.completeSt c 0x16 := by
  unfold State.shadow
  dsimp only
  refine if_pos ?_
  rcases h with h | h <;> simp [h, ha]

/-! ### QUERY -/

theorem query_error {st : Nat} (h : s.queryAnswer c = .error st) : s.query c = s.completeSt c st := by
  unfold State.query
  rw [h]

theorem query_record {bs : List Byte} (h : s.queryAnswer c = .ok bs) (hw : c.desc.w3 = 0) : s.query c =
    s.complete c { okRec c (leNat (bs.take 4)) (leNat ((bs.drop 4).take 8)) (leNat ((bs.drop 12).take 8)) with flags := if 20 < bs.length then 64 else 0 } := by
  unfold State.query
  rw [h]
  dsimp only
  rw [if_pos hw]
  unfold truncated
  simp only [decide_eq_true_eq]

theorem query_down {bs : List Byte} (h : s.queryAnswer c = .ok bs) (hw : c.desc.w3 ≠ 0) (hl : (s.gal (c.src.fn / 64)).linkUp = false) :
    s.query c = s.completeSt c 0x12 := by
  unfold State.query
  rw [h]
  dsimp only
  rw [if_neg hw, if_pos (by rw [hl]; rfl)]

theorem query_written {bs : List Byte} (h : s.queryAnswer c = .ok bs) (hw : c.desc.w3 ≠ 0) (hl : (s.gal (c.src.fn / 64)).linkUp = true)
    (hn : fld c.desc.w4 31 0 ≠ 0) : s.query c = State.completeAfter { s with host := { s.host with
      out := s.host.out ++ [HostOut.write (c.src.fn / 64) (c.src.fn % 64) (c.desc.w3.setWidth 48) (bs.take (fld c.desc.w4 31 0))] } } c
        { okRec c bs.length 0 0 with flags := if fld c.desc.w4 31 0 < bs.length then 64 else 0 } [c.src.fn] := by
  unfold State.query
  rw [h]
  dsimp only
  rw [if_neg hw, if_neg (by rw [hl]; exact Bool.false_ne_true), if_neg hn]
  unfold truncated
  simp only [decide_eq_true_eq]

/-! ### FW_UPDATE -/

theorem fwUpdate_busy {r : HostRead} (h : s.fw.cmd.isSome = true ∨ s.applying = true) : s.fwUpdate c r = s.completeSt c 0x38 :=
  if_pos (Bool.or_eq_true _ _ ▸ h)

theorem fwUpdate_free {r : HostRead} (hc : s.fw.cmd = none) (ha : s.applying = false) : s.fwUpdate c r =
    if !(s.gal 0).linkUp then (s.fwPhase 7).completeSt c 0x12
    else match r with
      | .fail st => (s.fwPhase 7).completeSt c (fabricSt st)
      | .ok data =>
        if (imageError s.nv (data.take (fld c.desc.w3 31 0))).isSome then (s.fwPhase 7).completeSt c 0x31
        else s.fwAccept c (data.take (fld c.desc.w3 31 0)) := by
  unfold State.fwUpdate
  rw [hc, ha]
  cases r <;> rfl

/-- A firmware state in which an image is taken by a command (R419). -/
structure Fw.Taken (x : Fw) (c : Cmd) (img : List Byte) : Prop where
  cmd      : x.cmd = some c
  newImage : x.newImage = img
  actTime  : x.actTime = c.desc.w4
  phase    : x.phase = 3
  erased   : bit x.state 57 = true

theorem distribute_frame (s : State) : ∃ st sites fl dr, fld st 63 60 = 3 ∧ bit st 57 = true ∧ s.distribute =
    { s with nv := { s.nv with imageOk := false }, fw := { s.fw with state := st, sites := sites, tries := 0 }, flight := fl, drain := dr } := by
  refine ⟨setFld (setFld (setBit s.fw.state 57 true) 63 60 3) 47 32 _, _, _, _, ?_, ?_, rfl⟩
  · exact (fld_setFld_ne (by decide) (by decide) (by decide)).trans ((fld_setFld (by decide) (by decide)).trans (by decide))
  · rw [bit_setFld_ne (by decide) (by decide) (by decide), bit_setFld_ne (by decide) (by decide) (by decide), bit_setBit (by decide), if_pos rfl]

/-- GAL_FW_STATE while the panel is INITIALISING: the image goes to flash alone (R423). -/
theorem flashOnly : fld (setFld (setBit (setBit (0 : BitVec 64) 57 true) 56 true) 63 60 3) 63 60 = 3
    ∧ bit (setFld (setBit (setBit (0 : BitVec 64) 57 true) 56 true) 63 60 3) 57 = true := by decide

theorem fwAccept_spec (s : State) (c : Cmd) (img : List Byte) : (s.fwAccept c img).fw.Taken c img ∧ (s.fwAccept c img).nv.imageOk = false
    ∧ (s.fwAccept c img).cores = s.cores ∧ (s.fwAccept c img).setts = s.setts := by
  unfold State.fwAccept
  dsimp only
  split
  · obtain ⟨st, sites, fl, dr, hphase, hbit, hd⟩ := distribute_frame { s with fw := { s.fw with
      cmd := some c, newImage := img, actTime := c.desc.w4, startAt := s.tclk, tries := 0, repaired := false, tAct := none, state := 0 } }
    rw [hd]
    exact ⟨⟨rfl, rfl, rfl, hphase, hbit⟩, rfl, rfl, rfl⟩
  · exact ⟨⟨rfl, rfl, rfl, flashOnly.1, flashOnly.2⟩, rfl, rfl, rfl⟩

end

/-! ### Event packets -/

section
variable {s : State} {k : Packet} (hk : isPacket k 13)
include hk

theorem event_arrives : execEvent k s = .next (if 288 ≤ k.didx.toNat && k.didx.toNat < 292 then (s.take k).eventAt (k.didx.toNat - 288) k else s.take k) :=
  congrArg _ (arrive_packet hk _)

theorem event_gallery (hlo : 288 ≤ k.didx.toNat) (hhi : k.didx.toNat < 292) : execEvent k s = .next ((s.take k).eventAt (k.didx.toNat - 288) k) :=
  (event_arrives hk).trans (congrArg _ (if_pos (by simp [hlo, hhi])))

theorem event_elsewhere (h : k.didx.toNat < 288 ∨ 292 ≤ k.didx.toNat) : execEvent k s = .next (s.take k) :=
  (event_arrives hk).trans (congrArg _ (if_neg (by simp only [Bool.and_eq_true, decide_eq_true_eq]; omega)))

end

section
variable {s : State} {g : Nat} {k : Packet}

theorem eventAt_source {n : Nat} (hc : k.aux.toNat < 0x80) (hs : eventSource k = some n) : s.eventAt g k = s.edge g n := by
  unfold State.eventAt
  dsimp only
  rw [hs, if_neg (by simp only [Bool.or_eq_true, decide_eq_true_eq]; omega), if_neg (by simp only [Bool.and_eq_true, decide_eq_true_eq]; omega)]

theorem eventAt_silent (hc : k.aux.toNat < 0x80) (hs : eventSource k = none) : s.eventAt g k = s := by
  unfold State.eventAt
  dsimp only
  rw [hs, if_neg (by simp only [Bool.or_eq_true, decide_eq_true_eq]; omega), if_neg (by simp only [Bool.and_eq_true, decide_eq_true_eq]; omega)]

theorem eventAt_panel (hlo : 0x83 ≤ k.aux.toNat) (hhi : k.aux.toNat ≤ 0x88) (hs : eventSource k = none) : s.eventAt g k = s.panelEvent (eventOf k) := by
  unfold State.eventAt
  dsimp only
  rw [hs, if_neg (by simp only [Bool.or_eq_true, decide_eq_true_eq]; omega), if_pos (by simp only [Bool.and_eq_true, decide_eq_true_eq]; omega)]

theorem eventAt_context (h : k.aux.toNat = 0x80 ∨ k.aux.toNat = 0x81 ∨ k.aux.toNat = 0x89) (hs : eventSource k = none) :
    s.eventAt g k = s.ctxEvent k.ctx.toNat (eventOf k) := by
  unfold State.eventAt
  dsimp only
  rw [hs, if_pos (by simp only [Bool.or_eq_true, decide_eq_true_eq]; omega)]

end

/-- Settles O52: each command is its effect in its turn, and what it leaves alone comes from the frames of the operations it calls. -/
theorem managementCommands : Obligations.ManagementCommands := by
  unfold Obligations.ManagementCommands
  refine ⟨?_, ?_, ?_, ?_, ?_, ?_, ?_, ?_⟩
  · rintro s u c cls hcls
    refine ⟨fun hb => congrArg _ (if_pos hb), fun hb ht => ?_⟩
    have hrow : exec (.drainCmd c) s = .next (u.drainCmd c) :=
      (congrArg _ (if_neg (Bool.eq_false_iff.mp hb))).trans (congrArg _ (run_turn ht _))
    obtain rfl := turn_eq ht
    exact ⟨_, hrow, drainCmd_spec (s := s.started c) hcls hb⟩
  · rintro s u c ns rfl
    refine ⟨fun ht => ?_, fun ht => ?_⟩
    · have hrow : exec (.fence c) s = .next (u.fence c) := congrArg _ (run_turn ht _)
      obtain rfl := turn_eq ht
      refine ⟨fun h => hrow.trans (congrArg _ (fence_error (fenceError_unsigned h))), fun hs hw => ?_⟩
      have herr := fenceError_signed (s := s.started c) hs hw
      refine ⟨fun hle => hrow.trans (congrArg _ (fence_error (herr.trans (if_pos hle)))), fun hlt => ?_⟩
      obtain ⟨hall, hjob, hpass⟩ := fence_spec (herr.trans (if_neg (Nat.not_le.mpr hlt)))
      refine ⟨_, hrow, hall, hjob, fun q n hrun hp hn hq => hpass q hrun hp ?_⟩
      rw [hq]
      exact hn
    · have hrow : exec (.unfence c) s = .next (u.unfence c) := congrArg _ (run_turn ht _)
      obtain rfl := turn_eq ht
      refine ⟨fun h => hrow.trans (congrArg _ (unfence_error (fenceError_unsigned h))), fun hs hw hle => ?_, fun hs hw hlt ha => ?_, fun hs hw hlt ha => ?_⟩ <;>
        have herr := fenceError_signed (s := s.started c) hs hw
      · exact hrow.trans (congrArg _ (unfence_error (herr.trans (if_pos hle))))
      · rw [unfence_lifts (herr.trans (if_neg (Nat.not_le.mpr hlt))), setEpoch_all ha] at hrow
        exact hrow
      · rw [unfence_lifts (herr.trans (if_neg (Nat.not_le.mpr hlt))), setEpoch_job ha] at hrow
        exact hrow
  · rintro s u c a n x ht hx rfl rfl
    have hrow : exec (.shadow c) s = .next (u.shadow c) := congrArg _ (run_turn ht _)
    have hx : u.ctx c.ctx = some x := by rw [turn_eq ht]; exact hx
    exact ⟨fun h => hrow.trans (congrArg _ (shadow_taken hx h)), fun ha h => hrow.trans (congrArg _ (shadow_outside ha h))⟩
  · intro s u c
    refine ⟨fun hw => congrArg _ (if_pos hw), fun hw ht => ?_⟩
    have hrow : exec (.meadowPower c) s = .next (if bit c.desc.w2 8 then u.meadowOnCmd c else u.meadowOffCmd c) :=
      (congrArg _ (if_neg (Bool.eq_false_iff.mp hw))).trans (congrArg _ (run_turn ht _))
    obtain rfl := turn_eq ht
    refine ⟨fun hb h => ?_, fun hb hal hd => ?_, fun hb => ?_⟩
    · exact hrow.trans (congrArg _ ((if_pos hb).trans (meadowOnCmd_refused h)))
    · exact ⟨_, hrow.trans (congrArg _ (if_pos hb)), meadowOnCmd_asks (s := s.started c) hal hd⟩
    · exact ⟨_, hrow.trans (congrArg _ (if_neg (Bool.eq_false_iff.mp hb))), meadowOffCmd_spec (s := s.started c)⟩
  · intro s u c ht
    have hrow : exec (.panelReset c) s = .next (u.panelReset c) := congrArg _ (run_turn ht _)
    obtain rfl := turn_eq ht
    exact ⟨fun h => hrow.trans (congrArg _ (panelReset_queue h)), fun h => ⟨_, hrow, panelReset_mctp (s := s.started c) h⟩⟩
  · intro s u c ht
    have hrow : exec (.query c) s = .next (u.query c) := congrArg _ (run_turn ht _)
    obtain rfl := turn_eq ht
    refine ⟨fun st h => hrow.trans (congrArg _ (query_error h)), fun bs h => ⟨fun hw => ?_, fun hw hl => ?_, fun hw hl hn => ?_⟩⟩
    · exact hrow.trans (congrArg _ (query_record h hw))
    · exact hrow.trans (congrArg _ (query_down h hw hl))
    · exact hrow.trans (congrArg _ (query_written h hw hl hn))
  · intro s u c ht
    have hrow : ∀ r, exec (.fwUpdate c r) s = .next (u.fwUpdate c r) := fun r => congrArg _ (run_turn ht _)
    obtain rfl := turn_eq ht
    refine ⟨fun h r => (hrow r).trans (congrArg _ (fwUpdate_busy h)), fun hc ha => ?_⟩
    have hfree := fun r => (hrow r).trans (congrArg _ (fwUpdate_free (s := s.started c) (c := c) (r := r) hc ha))
    refine ⟨fun hl r => (hfree r).trans (congrArg _ (if_pos ((Bool.not_eq_true' _).mpr hl))), fun hl => ?_⟩
    have hup : ¬ (!((s.started c).gal 0).linkUp) = true := by
      rw [Bool.not_eq_true', Bool.not_eq_false]
      exact hl
    refine ⟨fun st => (hfree _).trans (congrArg _ (if_neg hup)), ?_⟩
    rintro data img rfl
    have himg := (hfree (.ok data)).trans (congrArg _ (if_neg hup))
    refine ⟨fun he => himg.trans (congrArg _ (if_pos he)), fun he => ?_⟩
    obtain ⟨⟨h1, h2, h3, h4, h5⟩, h6, h7, h8⟩ := fwAccept_spec (s.started c) c (data.take (fld c.desc.w3 31 0))
    exact ⟨_, himg.trans (congrArg _ (if_neg (by rw [show imageError (s.started c).nv (data.take (fld c.desc.w3 31 0)) = none from he]; exact Bool.false_ne_true))),
      h1, h2, h4, h3, h6, h5, h7, h8⟩
  · intro s k hk
    refine ⟨fun hlo hhi => ?_, fun h => event_elsewhere hk h⟩
    have hrow := event_gallery (s := s) hk hlo hhi
    exact ⟨fun n hc hs => hrow.trans (congrArg _ (eventAt_source hc hs)), fun hc hs => hrow.trans (congrArg _ (eventAt_silent hc hs)),
      fun h1 h2 hs => hrow.trans (congrArg _ (eventAt_panel h1 h2 hs)), fun h hs => hrow.trans (congrArg _ (eventAt_context h hs))⟩

end Sys2Proof.Machine
end

section
/-! SUPPORT. Accesses to registers from outside: by class, through BAR0, by the aperture and by the TAP (R26, R296, R297, R418, R438, R472). -/

namespace Sys2Proof.Machine

/-! ### Accesses of a class -/

section
variable {s : State} {cls : BitVec 3} {a n : Nat} {bs : List Byte}

theorem writeReg_refused (h : s.blockStatus cls a ≠ 0) : s.writeReg cls a bs = { s with access := { status := s.blockStatus cls a, data := [] } } :=
  if_pos h

theorem writeReg_served (h : s.blockStatus cls a = 0) :
    s.writeReg cls a bs = { (s.regWrite cls a bs).1 with access := { status := (s.regWrite cls a bs).2, data := [] } } := if_neg (not_not.mpr h)

theorem readReg_refused (h : s.blockStatus cls a ≠ 0) :
    s.readReg cls a n = { s with access := { status := s.blockStatus cls a, data := List.replicate n 0 } } := if_pos h

theorem readReg_served (h : s.blockStatus cls a = 0) :
    s.readReg cls a n = { (s.regRead cls a n).1 with access := { status := (s.regRead cls a n).2.1, data := (s.regRead cls a n).2.2 } } :=
  if_neg (not_not.mpr h)

end

/-! ### BAR0 and the recovery function -/

section
variable {s : State} {port : Gal} {vf : Fin 64} {off : BitVec 18} {wide : Bool} {v : BitVec 64}

theorem bar0_answers (h1 : s.fnExists port.val vf.val = true) (h2 : (s.gal port.val).linkUp = true) (h3 : s.served = true) :
    s.bar0 port.val vf.val off.toNat wide v = if wide then
      (s.bar0Write (fnIndex port vf) off.toNat (v.setWidth 32)).bar0Write (fnIndex port vf) (off.toNat + 4) ((v >>> 32).setWidth 32)
      else s.bar0Write (fnIndex port vf) off.toNat (v.setWidth 32) := if_pos (by rw [h1, h2, h3]; rfl)

theorem bar0_silent (h : s.fnExists port.val vf.val = false ∨ (s.gal port.val).linkUp = false ∨ s.served = false) :
    s.bar0 port.val vf.val off.toNat wide v = s := by
  refine if_neg ?_
  rcases h with h | h | h <;> simp [h]

theorem bar0Write_bells (s : State) (f : Nat) {q : Nat} (w : BitVec 32) (hq : q < 1024) :
    s.bar0Write f (0x10000 + 8 * q) w = s.sqBell (qpKey f q) (fld w 15 0) ∧ s.bar0Write f (0x10004 + 8 * q) w = s.cqBell (qpKey f q) (fld w 15 0) := by
  unfold State.bar0Write
  dsimp only
  constructor
  · rw [if_neg (by omega), if_pos (by omega), if_pos (by omega), show (0x10000 + 8 * q - 0x10000) / 8 = q by omega]
  · rw [if_neg (by omega), if_pos (by omega), if_neg (by omega), if_pos (by omega), show (0x10004 + 8 * q - 0x10000) / 8 = q by omega]

theorem fld_low32 (v : BitVec 64) : (v.setWidth 32).toNat = fld v 31 0 := by
  rw [fld, BitVec.toNat_setWidth, Nat.shiftRight_zero]

theorem recoveryWrite_high (h : s.boot.recovery = true) : s.recoveryWrite 4 false v =
    { s with boot := { s.boot with recAddr := setFld s.boot.recAddr 63 32 (fld v 31 0) &&& 0x1FFFFFFFF000 } } := by
  have hrow : s.recoveryWrite 4 false v = { s with boot := { s.boot with recAddr := baseHalf s.boot.recAddr true (v.setWidth 32) } } :=
    if_neg (by rw [h]; exact Bool.false_ne_true)
  rw [hrow, baseHalf, if_pos rfl, fld_low32]

theorem recoveryWrite_base (h : s.boot.recovery = true) : s.recoveryWrite 0 true v = { s with boot := { s.boot with recAddr := v &&& 0x1FFFFFFFF000 } } :=
  if_neg (by rw [h]; exact Bool.false_ne_true)

theorem recoveryWrite_ctrl (h : s.boot.recovery = true) : s.recoveryWrite 8 wide v =
    { s with boot := { s.boot with recCtrl := setFld s.boot.recCtrl 14 0 (fld v 14 0) } } := by
  unfold State.recoveryWrite
  rw [h]
  cases wide <;> rfl

end

/-! ### The aperture -/

section
variable {s : State} {w wide : Bool} {off : BitVec 24} {v : BitVec 64}

theorem aperture_silent (h : s.fnExists 0 0 = false ∨ (s.gal 0).linkUp = false ∨ s.served = false) :
    execApertureAccess w off wide v s = .next s := by
  refine congrArg _ (if_neg ?_)
  rcases h with h | h | h <;> simp [h]

theorem aperture_answers (h1 : s.fnExists 0 0 = true) (h2 : (s.gal 0).linkUp = true) (h3 : s.served = true) :
    execApertureAccess w off wide v s = .next (if w then s.writeReg 2 (s.apertureAddr off.toNat) (leBytes (if wide then 8 else 4) v.toNat)
      else s.readReg 2 (s.apertureAddr off.toNat) (if wide then 8 else 4)) :=
  congrArg _ (if_pos (by rw [h1, h2, h3]; rfl))

end

/-! ### The TAP -/

section
variable {s t : State} {w : Bool} {a n : Nat} {d : List Byte}

theorem onTap_dark (h : s.pins.rimGood = false) (f : State → State) : s.onTap f = s := if_neg (Bool.eq_false_iff.mp h)

theorem onTap_powered (h : s.pins.rimGood = true) (f : State → State) : s.onTap f = f s := if_pos h

/-- An access that crosses no 4 KiB boundary is one piece. -/
theorem cut4k_one (h1 : 1 ≤ n) (h : a % 4096 + n ≤ 4096) : cut4k a 8 n = [(a, n)] := by
  have hmin : min n (4096 - a % 4096) = n := Nat.min_eq_left (by omega)
  unfold cut4k
  rw [if_neg (by omega)]
  dsimp only
  rw [hmin, Nat.sub_self]
  rfl

theorem debugAccess_write (h1 : 1 ≤ n) (h : a % 4096 + n ≤ 4096) : s.debugAccess true a n d =
    (State.debugWrite (s.note stOk []) a (d.take n)).1.note (State.debugWrite (s.note stOk []) a (d.take n)).2 [] := by
  unfold State.debugAccess
  rw [cut4k_one h1 h, List.foldl_cons, List.foldl_nil, if_pos rfl]
  dsimp only
  rw [Nat.sub_self, List.drop_zero]
  rfl

theorem debugAccess_read (h1 : 1 ≤ n) (h : a % 4096 + n ≤ 4096) : s.debugAccess false a n d =
    (State.debugRead (s.note stOk []) a n).1.note (State.debugRead (s.note stOk []) a n).2.1 (State.debugRead (s.note stOk []) a n).2.2 := by
  unfold State.debugAccess
  rw [cut4k_one h1 h, List.foldl_cons, List.foldl_nil, if_neg Bool.false_ne_true]
  rfl

theorem debugRead_error {st : BitVec 4} (h : s.resolve true a = .error st) : s.debugRead a n = (s, st, List.replicate n 0) := by
  unfold State.debugRead
  rw [h]

theorem debugWrite_error {st : BitVec 4} (h : s.resolve true a = .error st) : s.debugWrite a d = (s, st) := by
  unfold State.debugWrite
  rw [h]

theorem debugRead_answer {dest : BitVec 10 × BitVec 15} {bs : List Byte} (h : s.resolve true a = .ok dest)
    (hread : s.serveRead (debugPacket false a [] n) = (t, .answer 0 bs)) : s.debugRead a n = (t, 0, bs) := by
  unfold State.debugRead
  rw [h]
  dsimp only
  rw [hread]
  rfl

theorem debugWrite_answer {dest : BitVec 10 × BitVec 15} {st : BitVec 4} (h : s.resolve true a = .ok dest)
    (hwrite : s.serveWrite (debugPacket true a d d.length) = (t, some st)) : s.debugWrite a d = (t, st) := by
  unfold State.debugWrite
  rw [h]
  dsimp only
  rw [hwrite]
  rfl

/-- The TAP of a debug access at FULL. -/
def State.debugTap (s : State) : State := (s.setTap 4).note stOk []

theorem tapDebug_powered {a : BitVec 48} {n : BitVec 14} (h : s.pins.rimGood = true) : execTapDebugAccess w a n d s =
    .next (if s.full then (s.setTap 4).debugAccess w a.toNat n.toNat d else s.setTap 1) := congrArg _ (onTap_powered h _)

theorem tapDebug_full {a : BitVec 48} {n : BitVec 14} (h : s.pins.rimGood = true) (hl : s.sec.level = 2) :
    execTapDebugAccess w a n d s = .next ((s.setTap 4).debugAccess w a.toNat n.toNat d) :=
  (tapDebug_powered h).trans (congrArg _ (if_pos (full_iff.mpr hl)))

theorem firstBad_zero (st : BitVec 4) : firstBad 0 st = st := if_pos rfl

/-- The registers that SEC_ACCESS reaches. -/
theorem secAccess_powered {a : BitVec 48} {wide : Bool} {v : BitVec 64} (h : s.pins.rimGood = true) (ht : t = { s with sec := { s.sec with tap := 2 } }) :
    execSecAccess w a wide v s = .next (if t.secReach w (decodeAddr a.toNat) then
      (if w then t.writeReg 4 a.toNat (leBytes (if wide then 8 else 4) v.toNat) else t.readReg 4 a.toNat (if wide then 8 else 4))
      else { t with access := { status := stDenied, data := if w then [] else List.replicate (if wide then 8 else 4) 0 } }) := by
  subst ht
  exact congrArg _ (onTap_powered h _)

end

/-- Settles O46: each path is taken apart down to the read or write of its class. -/
theorem accessRows : Obligations.AccessRows := by
  unfold Obligations.AccessRows
  refine ⟨?_, ?_, ?_, ?_, ?_⟩
  · rintro s cls a wide v st rfl
    refine ⟨fun h => congrArg _ (writeReg_refused h), ?_⟩
    rintro r h rfl
    exact congrArg _ (writeReg_served h)
  · intro s port vf off v
    refine ⟨fun h1 h2 h3 => ⟨?_, ?_⟩, fun h wide => congrArg _ (bar0_silent h), fun f q w hq => bar0Write_bells s f w hq⟩
    · exact congrArg _ ((bar0_answers h1 h2 h3).trans (if_neg Bool.false_ne_true))
    · exact congrArg _ ((bar0_answers h1 h2 h3).trans (if_pos rfl))
  · intro s v h
    exact ⟨congrArg _ (recoveryWrite_base h), fun wide => congrArg _ (recoveryWrite_ctrl h), congrArg _ (recoveryWrite_high h)⟩
  · rintro s off wide v a st rfl rfl
    refine ⟨fun h w => aperture_silent h, fun h1 h2 h3 => ⟨fun hst => ?_, ?_, ?_⟩⟩
    · exact (aperture_answers h1 h2 h3).trans (congrArg _ ((if_neg Bool.false_ne_true).trans (readReg_refused hst)))
    · rintro r hst rfl
      exact (aperture_answers h1 h2 h3).trans (congrArg _ ((if_neg Bool.false_ne_true).trans (readReg_served hst)))
    · rintro r hst rfl
      exact (aperture_answers h1 h2 h3).trans (congrArg _ ((if_pos rfl).trans (writeReg_served hst)))
  · intro s
    refine ⟨fun h => ⟨congrArg _ (onTap_dark h _), congrArg _ (onTap_dark h _), congrArg _ (onTap_dark h _), congrArg _ (onTap_dark h _),
      fun w a wide v => congrArg _ (onTap_dark h _), fun w a n d => congrArg _ (onTap_dark h _)⟩, fun h => ⟨?_, ?_, ?_, ?_, ?_, ?_, ?_, ?_⟩⟩
    · exact congrArg _ (onTap_powered h _)
    · exact congrArg _ (onTap_powered h _)
    · exact congrArg _ (onTap_powered h _)
    · refine congrArg _ ((onTap_powered h _).trans ?_)
      by_cases hl : s.sec.level = 2
      · rw [if_pos (full_iff.mpr hl), if_pos hl]
        rfl
      · rw [if_neg (mt full_iff.mp hl), if_neg hl]
        rfl
    · exact fun w a n d hl => (tapDebug_powered h).trans (congrArg _ (if_neg (mt full_iff.mp hl)))
    · intro w a n d st hl h1 h4 herr
      refine (tapDebug_full h hl).trans (congrArg _ ?_)
      have herr : s.debugTap.resolve true a.toNat = .error st := herr
      cases w
      · exact (debugAccess_read h1 h4).trans (by rw [show (s.setTap 4).note stOk [] = s.debugTap from rfl, debugRead_error herr, firstBad_zero]; rfl)
      · exact (debugAccess_write h1 h4).trans (by rw [show (s.setTap 4).note stOk [] = s.debugTap from rfl, debugWrite_error herr, firstBad_zero]; rfl)
    · rintro a n d u dest hl h1 h4 hok rfl
      have hok : s.debugTap.resolve true a.toNat = .ok dest := hok
      refine ⟨fun t bs hread => ?_, fun t st hlen hwrite => ?_⟩
      · refine (tapDebug_full h hl).trans (congrArg _ ((debugAccess_read h1 h4).trans ?_))
        rw [show (s.setTap 4).note stOk [] = s.debugTap from rfl, debugRead_answer hok hread]
        rfl
      · refine (tapDebug_full h hl).trans (congrArg _ ((debugAccess_write h1 h4).trans ?_))
        rw [List.take_of_length_le hlen.le, show (s.setTap 4).note stOk [] = s.debugTap from rfl, debugWrite_answer hok (by rw [hlen]; exact hwrite)]
        rfl
    · intro t a wide v ht
      refine ⟨fun hr => ?_, fun hr => ?_, ?_, ?_⟩
      · exact (secAccess_powered h ht).trans (congrArg _ (if_neg (Bool.eq_false_iff.mp hr)))
      · exact (secAccess_powered h ht).trans (congrArg _ (if_neg (Bool.eq_false_iff.mp hr)))
      · rintro r hr hst rfl
        exact (secAccess_powered h ht).trans (congrArg _ ((if_pos hr).trans ((if_neg Bool.false_ne_true).trans (readReg_served hst))))
      · rintro r hr hst rfl
        exact (secAccess_powered h ht).trans (congrArg _ ((if_pos hr).trans ((if_pos rfl).trans (writeReg_served hst))))

end Sys2Proof.Machine
end

section
/-! SUPPORT. Management cores, sett controllers and the chunks of an image (R413, R420, R421). -/

namespace Sys2Proof.Machine

/-! ### Management cores -/

/-- Whether an expiry comes within 10 minutes of the last one (R413). -/
def mcAgain (last now : Nat) : Bool := last ≠ 0 && now + 1 ≤ last + 600000000000

theorem mcAgain_true {last now : Nat} (h0 : last ≠ 0) (h : now + 1 ≤ last + 600000000000) : mcAgain last now = true := by
  unfold mcAgain
  rw [decide_eq_true h0, decide_eq_true h]
  rfl

theorem mcAgain_false {last now : Nat} (h : last = 0 ∨ last + 600000000000 < now + 1) : mcAgain last now = false := by
  unfold mcAgain
  rcases h with h | h
  · rw [decide_eq_false (not_not.mpr h), Bool.false_and]
  · rw [decide_eq_false (Nat.not_le.mpr h), Bool.and_false]

/-- GAL_MC_STATUS after an expiry (R413). -/
def mcExpired (again : Bool) (v : BitVec 32) : BitVec 32 := if again then setFld v 31 28 4 else setFld (satFld v 23 16 1) 31 28 3

theorem fld_mcExpired (again : Bool) (v : BitVec 32) : fld (mcExpired again v) 31 28 = if again then 4 else 3 := by
  unfold mcExpired
  split <;> exact (fld_setFld (by decide) (by decide)).trans (by decide)

/-- The state with an expiry noted and reported. -/
def State.mcExpires (s : State) (g b : Nat) (again : Bool) : State :=
  (s.modGal g fun x => { x with mcExpAt := Tab.set 0 x.mcExpAt b (s.tclk + 1), mcStat := Tab.mod 0 x.mcStat b (mcExpired again) }).edge g 600

theorem mcWatchdog_eq (g : Gal) (b : Fin 4) (dt : Nat) (s : State) : execMcWatchdogExpiry g b dt s =
    .next (if (s.pass dt).mcState g.val b.val ≠ 1 ∧ (s.pass dt).mcState g.val b.val ≠ 2 then s.pass dt
      else if !mcAgain (Tab.get 0 (s.gal g.val).mcExpAt b.val) (s.tclk + dt) then
        (s.pass dt).mcExpires g.val b.val (mcAgain (Tab.get 0 (s.gal g.val).mcExpAt b.val) (s.tclk + dt))
      else if g = 0 then ((s.pass dt).mcExpires g.val b.val (mcAgain (Tab.get 0 (s.gal g.val).mcExpAt b.val) (s.tclk + dt))).alertBit 7
      else (((s.pass dt).mcExpires g.val b.val (mcAgain (Tab.get 0 (s.gal g.val).mcExpAt b.val) (s.tclk + dt))).alertBit 7).galleryDies g.val) := by
  unfold execMcWatchdogExpiry State.mcExpires mcExpired mcAgain
  rfl

/-- A wake-up leaves a management core that does not wait. -/
theorem mcStat_wakeMc {x : Gallery} {b : Nat} (h : fld (Tab.get 0 x.mcStat b) 31 28 ≠ 2) (n : Nat) :
    Tab.get 0 (x.wakeMc n).mcStat b = Tab.get 0 x.mcStat b := by
  unfold Gallery.wakeMc
  dsimp only
  split
  case isTrue hw =>
    rw [Bool.and_eq_true, decide_eq_true_eq] at hw
    dsimp only
    rw [get_set, if_neg]
    rintro rfl
    exact h hw.2
  case isFalse => rfl

theorem mcStat_edge {x : Gallery} {b : Nat} (h : fld (Tab.get 0 x.mcStat b) 31 28 ≠ 2) (g n : Nat) :
    Tab.get 0 (x.edge g n).mcStat b = Tab.get 0 x.mcStat b := by
  unfold Gallery.edge
  split
  · dsimp only
    split
    · exact mcStat_wakeMc (x := { x.setIcu n (setBit (x.icu n) 0 true) with levels := addOnce (x.setIcu n (setBit (x.icu n) 0 true)).levels n }) h n
    · exact mcStat_wakeMc (x := x.setIcu n (setBit (x.icu n) 0 true)) h n
  · rfl

theorem hasSource_watchdog (g : Nat) : hasSource g 600 = true := by
  unfold hasSource
  simp

theorem mcExpires_frame (s : State) (g b : Nat) (again : Bool) : ∃ gals, s.mcExpires g b again = { s with gals := gals } := ⟨_, rfl⟩

theorem mcExpires_spec (s : State) (g b : Nat) (again : Bool) : (s.mcExpires g b again).mcState g b = (if again then 4 else 3)
    ∧ bit (((s.mcExpires g b again).gal g).icu 600) 0 = true := by
  refine ⟨?_, (gal_edge (hasSource_watchdog g)).1⟩
  have hx : fld (Tab.get 0 (Tab.mod 0 (s.gal g).mcStat b (mcExpired again)) b) 31 28 = if again then 4 else 3 := by
    rw [get_mod, if_pos rfl, fld_mcExpired]
  unfold State.mcState State.mcExpires State.edge
  rw [gal_modGal, if_pos rfl, gal_modGal, if_pos rfl]
  refine (congrArg (fun v => fld v 31 28) (mcStat_edge (x := { s.gal g with
    mcExpAt := Tab.set 0 (s.gal g).mcExpAt b (s.tclk + 1), mcStat := Tab.mod 0 (s.gal g).mcStat b (mcExpired again) }) ?_ g 600)).trans hx
  dsimp only
  rw [hx]
  split <;> decide

theorem mcState_pass (s : State) (dt g b : Nat) : (s.pass dt).mcState g b = s.mcState g b := rfl

section
variable {s : State} {g : Gal} {b : Fin 4} {dt last : Nat} (hlast : last = Tab.get 0 (s.gal g.val).mcExpAt b.val)
include hlast

theorem mcWatchdog_first (h1 : s.mcState g.val b.val = 1) (h : last = 0 ∨ last + 600000000000 < s.tclk + dt + 1) :
    execMcWatchdogExpiry g b dt s = .next ((s.pass dt).mcExpires g.val b.val false) := by
  rw [mcWatchdog_eq, mcState_pass, if_neg (fun hn => hn.1 h1), ← hlast, mcAgain_false h]
  rfl

theorem mcWatchdog_second (h1 : s.mcState g.val b.val = 1) (h0 : last ≠ 0) (h : s.tclk + dt + 1 ≤ last + 600000000000) :
    execMcWatchdogExpiry g b dt s = .next (if g = 0 then ((s.pass dt).mcExpires g.val b.val true).alertBit 7
      else (((s.pass dt).mcExpires g.val b.val true).alertBit 7).galleryDies g.val) := by
  rw [mcWatchdog_eq, mcState_pass, if_neg (fun hn => hn.1 h1), ← hlast, mcAgain_true h0 h]
  rfl

end

theorem galleryDies_spec (s : State) (g b : Nat) : (s.galleryDies g).mcState g b = s.mcState g b ∧ (s.galleryDies g).alert = s.alert
    ∧ ((s.galleryDies g).gal g).failed = true ∧ ((s.galleryDies g).gal g).linkUp = false := by
  have hgal : (s.galleryDies g).gal g = { s.gal g with failed := true, linkUp := false } := (gal_modGal _ _ _ _).trans (if_pos rfl)
  unfold State.mcState
  rw [hgal]
  exact ⟨rfl, rfl, rfl, rfl⟩

/-- A second expiry fails the core, and with it a gallery other than G0. -/
theorem mcFailed_spec {t u : State} (g : Gal) (b : Nat) (h4 : t.mcState g.val b = 4)
    (hu : u = if g = 0 then t.alertBit 7 else (t.alertBit 7).galleryDies g.val) :
    u.mcState g.val b = 4 ∧ bit u.alert 7 = true ∧ (g ≠ 0 → (u.gal g.val).failed = true ∧ (u.gal g.val).linkUp = false) := by
  obtain ⟨a, hbit, ha⟩ := alertBit_frame t (n := 7) (by decide)
  obtain ⟨d1, d2, d3, d4⟩ := galleryDies_spec { t with alert := a } g.val b
  subst hu
  rw [ha]
  by_cases hg : g = 0
  · rw [if_pos hg]
    exact ⟨h4, hbit, fun hn => absurd hg hn⟩
  · rw [if_neg hg]
    exact ⟨d1.trans h4, (congrArg (fun v => bit v 7) d2).trans hbit, fun _ => ⟨d3, d4⟩⟩

/-! ### Sett controllers -/

section
variable {s : State} {i : Site}

theorem probe_gone (h : (s.sett i.val).powered = false ∨ s.siteGone i.val = true) (a : Bool) : execSettControllerProbe i a s = .next s := by
  refine congrArg _ (if_pos ?_)
  rcases h with h | h
  · exact Or.inl (by rw [h]; exact Bool.false_ne_true)
  · exact Or.inr h

theorem probe_live (hp : (s.sett i.val).powered = true) (hg : s.siteGone i.val = false) (a : Bool) : execSettControllerProbe i a s =
    .next (if a then s.modSett i.val fun x => { x with missed := 0 }
      else if 3 ≤ ((s.modSett i.val fun x => { x with missed := x.missed + 1 }).sett i.val).missed then
        (s.modSett i.val fun x => { x with missed := x.missed + 1 }).siteDies i.val
      else s.modSett i.val fun x => { x with missed := x.missed + 1 }) := by
  refine congrArg _ (if_neg ?_)
  rw [hp, hg]
  rintro (h | h)
  · exact h rfl
  · cases h

theorem missed_next (s : State) (i : Nat) : ((s.modSett i fun x => { x with missed := x.missed + 1 }).sett i).missed = (s.sett i).missed + 1 := by
  rw [sett_modSett, if_pos rfl]

/-! ### Chunks -/

theorem fwchunk_refused {k : Packet} (h : k.sclass ≠ 4 ∨ k.opc ≠ 15 ∨ (s.sett i.val).powered = false) : execFwchunk i k s = .next s := by
  refine congrArg _ (if_pos ?_)
  rcases h with h | h | h
  · exact Or.inl h
  · exact Or.inr (Or.inl h)
  · exact Or.inr (Or.inr (by rw [h]; exact Bool.false_ne_true))

theorem multicastTaken_frame (s : State) (k : Packet) (i : Nat) : ∃ fl dr, s.multicastTaken k i = { s with flight := fl, drain := dr } := by
  unfold State.multicastTaken
  split
  · dsimp only
    split
    · exact ⟨_, _, rfl⟩
    · exact ⟨_, s.drain, rfl⟩
  · exact ⟨_, s.drain, rfl⟩

/-- The packet is taken, and the store of its site's controller is as given. -/
def State.chunkStored (s : State) (i : Nat) (k : Packet) (new : FwRecv) : State := (s.multicastTaken k i).modSett i fun x => { x with fw := new }

/-- The state once the support code is staged, if it is to be. -/
def State.chunkStaged (s : State) (i : Nat) (k : Packet) (old new : FwRecv) : State :=
  if k.aux.toNat < 2 && old ≠ new then (s.chunkStored i k new).stageSite i else s.chunkStored i k new

theorem fwchunk_taken {k : Packet} (hc : k.sclass = 4) (ho : k.opc = 15) (hp : (s.sett i.val).powered = true) : ∃ st,
    execFwchunk i k s = .next { s.chunkStaged i.val k (s.sett i.val).fw ((s.sett i.val).fw.take k) with
      fw := { (s.chunkStaged i.val k (s.sett i.val).fw ((s.sett i.val).fw.take k)).fw with state := st } } := by
  refine ⟨_, congrArg _ ((if_neg ?_).trans rfl)⟩
  rw [hc, ho, hp]
  rintro (h | h | h) <;> exact h rfl

end

/-- A fold that changes each core of a list once. -/
theorem foldl_modCore_once (f : Core → Core) (l : List Nat) (hl : l.Nodup) (s : State) (p : Nat) :
    (l.foldl (fun t q => t.modCore q f) s).core p = if p ∈ l then f (s.core p) else s.core p := by
  induction l generalizing s with
  | nil => exact (if_neg List.not_mem_nil).symm
  | cons q l ih =>
    obtain ⟨hq, hl⟩ := List.nodup_cons.mp hl
    rw [List.foldl_cons, ih hl, core_modCore]
    by_cases hp : p = q
    · subst hp
      rw [if_neg hq, if_pos rfl, if_pos List.mem_cons_self]
    · simp only [List.mem_cons, hp, false_or, if_false]

theorem physCores_nodup (s : State) (i : Nat) : (s.physCores i).Nodup := List.Nodup.filter _ (List.nodup_range' (step := 1))

theorem mem_physCores {s : State} {i p : Nat} : p ∈ s.physCores i ↔ siteOf p = i ∧ p ∉ s.nv.deadCores := by
  unfold State.physCores siteOf
  rw [List.mem_filter, List.mem_range'_1, Bool.not_eq_true', ← Bool.not_eq_true, List.contains_iff_mem]
  refine and_congr_left fun _ => ?_
  omega

section
variable {s : State} {i : Nat} {k : Packet} {old new : FwRecv}

theorem chunkStored_keeps : (s.chunkStored i k new).sett i = { s.sett i with fw := new } ∧ (∀ j, j ≠ i → (s.chunkStored i k new).sett j = s.sett j)
    ∧ (s.chunkStored i k new).cores = s.cores ∧ (s.chunkStored i k new).nv = s.nv := by
  obtain ⟨fl, dr, h⟩ := multicastTaken_frame s k i
  unfold State.chunkStored
  rw [h]
  exact ⟨(sett_modSett _ _ _ _).trans (if_pos rfl), fun j hj => (sett_modSett _ _ _ _).trans (if_neg hj), rfl, rfl⟩

/-- What staging support code at a site does to the cores and leaves elsewhere. -/
theorem stageSite_frame (s : State) (i : Nat) : ∃ cores, s.stageSite i = { s with cores := cores } := by
  unfold State.stageSite
  dsimp only
  split
  · exact foldl_modCore_frame _ _ _
  · exact ⟨s.cores, rfl⟩

theorem stageSite_keeps (s : State) (i p : Nat) : ((s.stageSite i).core p).sp = (s.core p).sp ∧ ((s.stageSite i).core p).seq = (s.core p).seq := by
  unfold State.stageSite
  dsimp only
  split
  · rw [foldl_modCore_once _ _ (physCores_nodup s i)]
    split <;> exact ⟨rfl, rfl⟩
  · exact ⟨rfl, rfl⟩

theorem stageSite_core {a c : List Byte} (ha : (s.sett i).fw.chunk 0 = some a) (hc : (s.sett i).fw.chunk 1 = some c) {p : Nat} (hp : p ∈ s.physCores i) :
    (s.stageSite i).core p = (s.core p).stageSupport (a ++ c) := by
  unfold State.stageSite
  dsimp only
  rw [ha, hc]
  dsimp only
  rw [foldl_modCore_once _ _ (physCores_nodup s i), if_pos hp]

theorem core_of_cores {s t : State} (h : t.cores = s.cores) (p : Nat) : t.core p = s.core p := congrArg (fun c => Tab.get Core.reset c p) h

theorem chunkStaged_spec : (s.chunkStaged i k old new).sett i = { s.sett i with fw := new }
    ∧ (∀ j, j ≠ i → (s.chunkStaged i k old new).sett j = s.sett j)
    ∧ (∀ p, ((s.chunkStaged i k old new).core p).sp = (s.core p).sp ∧ ((s.chunkStaged i k old new).core p).seq = (s.core p).seq)
    ∧ ∀ a c, k.aux.toNat < 2 → new ≠ old → new.chunk 0 = some a → new.chunk 1 = some c → ∀ p ∈ s.physCores i,
        (s.chunkStaged i k old new).core p = (s.core p).stageSupport (a ++ c) := by
  obtain ⟨hown, hother, hcores, hnv⟩ := chunkStored_keeps (s := s) (i := i) (k := k) (new := new)
  have hcore := core_of_cores hcores
  obtain ⟨cores, hstage⟩ := stageSite_frame (s.chunkStored i k new) i
  unfold State.chunkStaged
  split
  · refine ⟨?_, fun j hj => ?_, fun p => ?_, fun a c _ _ ha hc p hp => ?_⟩
    · rw [hstage]
      exact hown
    · rw [hstage]
      exact hother j hj
    · rw [(stageSite_keeps _ i p).1, (stageSite_keeps _ i p).2, hcore]
      exact ⟨rfl, rfl⟩
    · rw [stageSite_core (a := a) (c := c) (by rw [hown]; exact ha) (by rw [hown]; exact hc), hcore]
      rw [mem_physCores, hnv]
      exact mem_physCores.mp hp
  case isFalse hno =>
    refine ⟨hown, hother, fun p => by rw [hcore]; exact ⟨rfl, rfl⟩, fun a c haux hne _ _ p _ => absurd ?_ hno⟩
    rw [Bool.and_eq_true, decide_eq_true_eq, decide_eq_true_eq]
    exact ⟨haux, fun h => hne h.symm⟩

end

end Sys2Proof.Machine
end

section
/-! SUPPORT. The rounds, the flash and the activation of a firmware update (R419, R421 to R423). -/

namespace Sys2Proof.Machine

/-! ### Rounds -/

theorem checkParts_fw (s : State) : s.checkParts.fw = s.fw :=
  view_foldl State.fw (f := fun t i => t.modSett i fun x => { x with fw := x.fw.checked }) (fun _ _ => rfl) s.fw.sites s

/-- The state with COMPLETE of GAL_FW_STATE renewed (R421). -/
def State.counted16 (s : State) : State := { s with fw := { s.fw with state := setFld s.fw.state 31 16 s.fwComplete } }

theorem counted16_fw (s : State) : ∃ st, (s.counted16).fw = { s.fw with state := st } ∧ bit st 56 = bit s.fw.state 56 ∧ fld st 63 60 = fld s.fw.state 63 60 :=
  ⟨_, rfl, bit_setFld_ne (by decide) (by decide) (by decide), fld_setFld_ne (by decide) (by decide) (by decide)⟩

/-- What a round's end decides once the parts are checked. -/
def State.roundEnds (t : State) : State :=
  if t.fw.cmd.isNone ∨ bit t.fw.state 56 ∨ t.fw.repaired then t
  else if t.fw.phase = 3 then (if t.fwLate.isEmpty then t.endRepair else t.repairRound 1)
  else if t.fw.phase = 4 then
    (if t.fwLate.isEmpty ∨ fld t.fw.state 59 58 = 3 then t.endRepair else t.repairRound (fld t.fw.state 59 58 + 1))
  else t

/-- Whether chunks or their repair are under way. -/
def State.inRounds (t : State) : Bool := 3 ≤ t.fw.phase && t.fw.phase ≤ 4

theorem inRounds_iff {t : State} : t.inRounds = true ↔ 3 ≤ t.fw.phase ∧ t.fw.phase ≤ 4 := by
  unfold State.inRounds
  rw [Bool.and_eq_true, decide_eq_true_eq, decide_eq_true_eq]

/-- COMPLETE renewed while chunks or their repair are under way. -/
def State.recount (t : State) : State := { t with fw := { t.fw with state := if t.inRounds then setFld t.fw.state 31 16 t.fwComplete else t.fw.state } }

theorem recount_on {t : State} (h : t.inRounds = true) : t.recount = t.counted16 := by
  unfold State.recount State.counted16
  rw [if_pos h]

theorem recount_off {t : State} (h : ¬ t.inRounds = true) : t.recount = t := by
  unfold State.recount
  rw [if_neg h]

theorem repairRoundEnd_eq (dt : Nat) (s : State) : execRepairRoundEnd dt s =
    .next (State.recount (if 3 ≤ (s.pass dt).fw.phase ∧ (s.pass dt).fw.phase ≤ 4 then (s.pass dt).checkParts else s.pass dt)).roundEnds := rfl

theorem repairRoundEnd_checked {s : State} {dt : Nat} (hlo : 3 ≤ s.fw.phase) (hhi : s.fw.phase ≤ 4) :
    execRepairRoundEnd dt s = .next ((s.pass dt).checkParts.counted16).roundEnds := by
  have h1 : 3 ≤ (s.pass dt).fw.phase ∧ (s.pass dt).fw.phase ≤ 4 := ⟨hlo, hhi⟩
  rw [repairRoundEnd_eq, if_pos h1, recount_on (inRounds_iff.mpr (by rw [checkParts_fw]; exact h1))]

theorem repairRoundEnd_idle {s : State} {dt : Nat} (hphase : s.fw.phase < 3 ∨ 4 < s.fw.phase)
    (h : s.fw.cmd = none ∨ bit s.fw.state 56 = true ∨ s.fw.repaired = true) : execRepairRoundEnd dt s = .next (s.pass dt) := by
  have h1 : ¬ (3 ≤ (s.pass dt).fw.phase ∧ (s.pass dt).fw.phase ≤ 4) := fun hp => by
    have hlo : 3 ≤ s.fw.phase := hp.1
    have hhi : s.fw.phase ≤ 4 := hp.2
    omega
  rw [repairRoundEnd_eq, if_neg h1, recount_off (mt inRounds_iff.mp h1)]
  exact congrArg _ (if_pos (h.imp_left fun h => Option.isNone_iff_eq_none.mpr h))

section
variable {t : State} (hc : t.fw.cmd.isSome = true) (hb : bit t.fw.state 56 = false) (hr : t.fw.repaired = false)
include hc hb hr

theorem roundEnds_open : t.roundEnds = if t.fw.phase = 3 then (if t.fwLate.isEmpty then t.endRepair else t.repairRound 1)
    else if t.fw.phase = 4 then
      (if t.fwLate.isEmpty ∨ fld t.fw.state 59 58 = 3 then t.endRepair else t.repairRound (fld t.fw.state 59 58 + 1))
    else t := by
  refine if_neg ?_
  rw [hb, hr]
  rintro (h | h | h)
  · rw [Option.isNone_iff_eq_none] at h
    rw [h] at hc
    cases hc
  · cases h
  · cases h

theorem roundEnds_ends (hphase : t.fw.phase = 3 ∨ t.fw.phase = 4) (h : t.fwLate = [] ∨ (t.fw.phase = 4 ∧ fld t.fw.state 59 58 = 3)) :
    t.roundEnds = t.endRepair := by
  rw [roundEnds_open hc hb hr]
  rcases hphase with hp | hp
  · have hl : t.fwLate = [] := h.resolve_right fun h => absurd (hp.symm.trans h.1) (by decide)
    rw [if_pos hp, hl]
    rfl
  · rw [if_neg (by rw [hp]; decide), if_pos hp, if_pos (h.imp (fun h => by rw [h]; rfl) And.right)]

theorem roundEnds_first (hl : t.fwLate ≠ []) (hp : t.fw.phase = 3) : t.roundEnds = t.repairRound 1 := by
  rw [roundEnds_open hc hb hr, if_pos hp, if_neg (mt List.isEmpty_iff.mp hl)]

theorem roundEnds_next (hl : t.fwLate ≠ []) (hp : t.fw.phase = 4) (hn : fld t.fw.state 59 58 < 3) :
    t.roundEnds = t.repairRound (fld t.fw.state 59 58 + 1) := by
  rw [roundEnds_open hc hb hr, if_neg (by rw [hp]; decide), if_pos hp, if_neg]
  rintro (h | h)
  · exact hl (List.isEmpty_iff.mp h)
  · omega

end

/-! ### The flash -/

theorem endUpdate_frame {s : State} (hc : s.fw.cmd.isSome = true) {ph : Nat} (hph : ph < 16) (status receivers : Nat) (a : BitVec 64) :
    ∃ st x c, fld st 63 60 = ph ∧ s.endUpdate ph status receivers a = { s with
      fw := { s.fw with cmd := none, state := st, tAct := none, restarting := false, repaired := false }
      sched := { s.sched with held := false }, host := x, ctxs := c } := by
  obtain ⟨cmd, hcmd⟩ := Option.isSome_iff_exists.mp hc
  obtain ⟨x, c, hx⟩ := offHost_frame (offHost_complete { s with
    fw := { s.fw with cmd := none, state := setFld s.fw.state 63 60 ph, tAct := none, restarting := false, repaired := false }
    sched := { s.sched with held := false } } cmd { cmdAnswer cmd status with result := BitVec.ofNat 32 receivers, dataA := a })
  have heq : s.endUpdate ph status receivers a = State.complete { s with
    fw := { s.fw with cmd := none, state := setFld s.fw.state 63 60 ph, tAct := none, restarting := false, repaired := false }
    sched := { s.sched with held := false } } cmd { cmdAnswer cmd status with result := BitVec.ofNat 32 receivers, dataA := a } := by
    unfold State.endUpdate
    rw [hcmd]
  exact ⟨_, x, c, (fld_setFld (by decide) (by decide)).trans (Nat.mod_eq_of_lt hph), heq.trans hx⟩

section
variable {s : State}

theorem flashWriteDone_idle (h : bit s.fw.state 57 = false) (ok : Bool) : execFlashWriteDone ok s = .next s :=
  congrArg _ (if_pos (Bool.eq_false_iff.mp h))

/-- The state once a read-back has passed (R423). -/
def State.flashOk (t : State) : State :=
  { t with nv := { t.nv with image := t.fw.newImage, imageOk := true }, fw := { t.fw with state := setBit t.fw.state 57 false } }

/-- The state once an attempt to write has failed. -/
def State.flashBad (t : State) : State := { t with fw := { t.fw with tries := t.fw.tries + 1 } }

/-- The flash is written no more. -/
def State.flashStop (u : State) : State := { u with fw := { u.fw with state := setBit u.fw.state 57 false } }

theorem flashWriteDone_eq (ok : Bool) (s : State) : execFlashWriteDone ok s = .next (if ¬ bit s.fw.state 57 then s
    else if ok then (if bit (s.edge 0 599).flashOk.fw.state 56 then (s.edge 0 599).flashOk.endUpdate 6 0 0 0 else (s.edge 0 599).flashOk)
    else if 3 ≤ (s.edge 0 599).flashBad.fw.tries then (s.edge 0 599).flashBad.flashStop.endUpdate 7 0x15 0 0 else (s.edge 0 599).flashBad) := rfl

theorem flashOk_bit (t : State) : bit t.flashOk.fw.state 56 = bit t.fw.state 56 := (bit_setBit (by decide) _).trans (if_neg (by decide))

theorem flashWriteDone_good (h : bit s.fw.state 57 = true) (hb : bit s.fw.state 56 = false) : execFlashWriteDone true s = .next { s.edge 0 599 with
    nv := { s.nv with image := s.fw.newImage, imageOk := true }, fw := { s.fw with state := setBit s.fw.state 57 false } } := by
  have hbit : ¬ bit (s.edge 0 599).flashOk.fw.state 56 = true := by
    rw [flashOk_bit, edge_fw, hb]
    exact Bool.false_ne_true
  rw [flashWriteDone_eq, if_neg (not_not.mpr h), if_pos rfl, if_neg hbit]
  unfold State.flashOk
  rw [edge_fw, edge_nv]

theorem tries_flashBad (t : State) : t.flashBad.fw.tries = t.fw.tries + 1 := rfl

theorem flashWriteDone_retry (h : bit s.fw.state 57 = true) (ht : s.fw.tries < 2) : execFlashWriteDone false s =
    .next { s.edge 0 599 with fw := { s.fw with tries := s.fw.tries + 1 } } := by
  rw [flashWriteDone_eq, if_neg (not_not.mpr h), if_neg Bool.false_ne_true, if_neg (by rw [tries_flashBad, edge_fw]; omega)]
  unfold State.flashBad
  rw [edge_fw]

theorem flashStop_frame (u : State) : ∃ st, u.flashStop = { u with fw := { u.fw with state := st } } := ⟨_, rfl⟩

theorem flashStop_keeps (t : State) : t.flashBad.flashStop.fw.cmd = t.fw.cmd ∧ t.flashBad.flashStop.nv = t.nv := by
  obtain ⟨st, h⟩ := flashStop_frame t.flashBad
  rw [h]
  exact ⟨rfl, rfl⟩

theorem endUpdate_spec {t : State} (hc : t.fw.cmd.isSome = true) {ph : Nat} (hph : ph < 16) (status receivers : Nat) (a : BitVec 64) :
    fld (t.endUpdate ph status receivers a).fw.state 63 60 = ph ∧ (t.endUpdate ph status receivers a).fw.cmd = none
    ∧ (t.endUpdate ph status receivers a).fw.tAct = none ∧ (t.endUpdate ph status receivers a).sched.held = false
    ∧ (t.endUpdate ph status receivers a).nv = t.nv := by
  obtain ⟨st, x, c, hphase, hu⟩ := endUpdate_frame hc hph status receivers a
  rw [hu]
  exact ⟨hphase, rfl, rfl, rfl, rfl⟩

theorem flashWriteDone_ends (h : bit s.fw.state 57 = true) (ht : 2 ≤ s.fw.tries) (hc : s.fw.cmd.isSome = true) :
    ∃ u, execFlashWriteDone false s = .next u ∧ fld u.fw.state 63 60 = 7 ∧ u.fw.cmd = none ∧ u.nv = s.nv := by
  obtain ⟨hcmd, hnv⟩ := flashStop_keeps (s.edge 0 599)
  have hc : (s.edge 0 599).flashBad.flashStop.fw.cmd.isSome = true := by
    rw [hcmd, edge_fw]
    exact hc
  obtain ⟨hphase, hnone, -, -, hnv'⟩ := endUpdate_spec hc (ph := 7) (by decide) 0x15 0 0
  refine ⟨_, ?_, hphase, hnone, hnv'.trans (hnv.trans (edge_nv s 0 599))⟩
  rw [flashWriteDone_eq, if_neg (not_not.mpr h), if_neg Bool.false_ne_true, if_pos (by rw [tries_flashBad, edge_fw]; omega)]

/-! ### The activation -/

/-- Whether the hold may begin (R422). -/
def State.mayHold (t : State) : Bool :=
  t.fw.cmd.isSome && t.fw.phase = 4 && t.fw.repaired && !bit t.fw.state 57 && t.fw.actTime.toNat ≤ t.g0Time.toNat + 1000000

/-- The hold begins. -/
def State.hold (t : State) : State := { t with fw := { t.fw with state := setFld t.fw.state 63 60 5 }, sched := { t.sched with held := true } }

/-- T_act is fixed once nothing runs. -/
def State.fixTAct (u : State) (now : Nat) : State :=
  if u.fw.phase = 5 ∧ u.fw.tAct.isNone ∧ u.ledger.state = .idle ∧ u.fill.running.isNone then
    { u with fw := { u.fw with tAct := some (BitVec.ofNat 64 (max u.fw.actTime.toNat (now + 1000000)))
                               act := BitVec.ofNat 64 (max u.fw.actTime.toNat (now + 1000000)) } }
  else u

theorem holdBegin_eq (dt : Nat) (s : State) : execHoldBegin dt s =
    .next ((if (s.pass dt).mayHold then (s.pass dt).hold else s.pass dt).fixTAct (s.pass dt).g0Time.toNat) := rfl

theorem phase_hold (t : State) : t.hold.fw.phase = 5 := (fld_setFld (by decide) (by decide)).trans (by decide)

theorem fixTAct_idle {u : State} {now : Nat} (hp : u.fw.phase = 5) (ht : u.fw.tAct = none) (hl : u.ledger.state = .idle) (hr : u.fill.running = none) :
    u.fixTAct now = { u with fw := { u.fw with tAct := some (BitVec.ofNat 64 (max u.fw.actTime.toNat (now + 1000000)))
                                               act := BitVec.ofNat 64 (max u.fw.actTime.toNat (now + 1000000)) } } :=
  if_pos ⟨hp, Option.isNone_iff_eq_none.mpr ht, hl, Option.isNone_iff_eq_none.mpr hr⟩

theorem hold_frame (t : State) : ∃ st, st = setFld t.fw.state 63 60 5
    ∧ t.hold = { t with fw := { t.fw with state := st }, sched := { t.sched with held := true } } := ⟨_, rfl, rfl⟩

theorem hold_fixTAct {t : State} {now : Nat} (ht : t.fw.tAct = none) (hl : t.ledger.state = .idle) (hr : t.fill.running = none) :
    t.hold.fixTAct now = { t with sched := { t.sched with held := true }, fw := { t.fw with
      state := setFld t.fw.state 63 60 5, tAct := some (BitVec.ofNat 64 (max t.fw.actTime.toNat (now + 1000000)))
      act := BitVec.ofNat 64 (max t.fw.actTime.toNat (now + 1000000)) } } := by
  have hphase := phase_hold t
  obtain ⟨st, hst, hh⟩ := hold_frame t
  rw [hh] at hphase ⊢
  rw [← hst, fixTAct_idle hphase ht hl hr]

theorem holdBegin_holds {dt : Nat} (hm : (s.pass dt).mayHold = true) (ht : (s.pass dt).fw.tAct = none) (hl : (s.pass dt).ledger.state = .idle)
    (hr : (s.pass dt).fill.running = none) : execHoldBegin dt s = .next { s.pass dt with
      sched := { (s.pass dt).sched with held := true }, fw := { (s.pass dt).fw with
        state := setFld (s.pass dt).fw.state 63 60 5
        tAct := some (BitVec.ofNat 64 (max (s.pass dt).fw.actTime.toNat ((s.pass dt).g0Time.toNat + 1000000)))
        act := BitVec.ofNat 64 (max (s.pass dt).fw.actTime.toNat ((s.pass dt).g0Time.toNat + 1000000)) } } := by
  rw [holdBegin_eq, if_pos hm, hold_fixTAct ht hl hr]

theorem holdBegin_early {dt : Nat} (h4 : s.fw.phase ≠ 4) (h5 : s.fw.phase ≠ 5) : execHoldBegin dt s = .next (s.pass dt) := by
  have hm : (s.pass dt).mayHold = false := by
    have h4 : (s.pass dt).fw.phase ≠ 4 := h4
    unfold State.mayHold
    rw [decide_eq_false h4]
    simp
  rw [holdBegin_eq, hm]
  exact congrArg _ (if_neg fun h => h5 h.1)

/-- The state in which the receivers that are complete have switched. -/
def State.switched (s : State) : State :=
  ((s.fw.sites.filter fun i => !s.fwLate.contains i).flatMap s.physCores).foldl (fun t p => t.modCore p fun c => { c with supHalf := !c.supHalf }) s

theorem activate_complete {s : State} (h : s.fwLate = []) : ∃ st, s.activate = { s.switched with fw := { s.switched.fw with
    running := s.fw.newImage, version := imageVersion s.fw.newImage, svn := imageSvn s.fw.newImage, restarting := true, state := st } } := by
  refine ⟨setFld s.switched.fw.state 15 0 0, ?_⟩
  unfold State.activate State.switched
  dsimp only
  rw [h]
  rfl

theorem receivers_nodup {s : State} (h : s.fw.sites.Nodup) : (s.fw.sites.flatMap s.physCores).Nodup := by
  refine List.nodup_flatMap.mpr ⟨fun i _ => physCores_nodup s i, h.imp fun {a b} hab p ha hb => ?_⟩
  exact hab ((mem_physCores.mp ha).1.symm.trans (mem_physCores.mp hb).1)

theorem switched_core {s : State} (h : s.fwLate = []) (hn : s.fw.sites.Nodup) (p : Nat) : s.switched.core p =
    if siteOf p ∈ s.fw.sites ∧ p ∉ s.nv.deadCores then { s.core p with supHalf := !(s.core p).supHalf } else s.core p := by
  have hgood : (s.fw.sites.filter fun i => !s.fwLate.contains i) = s.fw.sites := by
    rw [h]
    exact List.filter_eq_self.mpr fun _ _ => rfl
  unfold State.switched
  rw [hgood, foldl_modCore_once _ _ (receivers_nodup hn)]
  refine if_congr ?_ rfl rfl
  rw [List.mem_flatMap]
  constructor
  · rintro ⟨i, hi, hp⟩
    obtain ⟨rfl, hd⟩ := mem_physCores.mp hp
    exact ⟨hi, hd⟩
  · rintro ⟨hi, hd⟩
    exact ⟨_, hi, mem_physCores.mpr ⟨rfl, hd⟩⟩

theorem activation_none {dt : Nat} (h : s.fw.tAct = none) : execActivation dt s = .next (s.pass dt) := by
  have h : (s.pass dt).fw.tAct = none := h
  unfold execActivation
  dsimp only
  rw [h]

theorem activation_some {dt : Nat} {a : BitVec 64} (h : s.fw.tAct = some a) : execActivation dt s =
    .next (if (s.pass dt).g0Time.toNat < a.toNat then s.pass dt
      else if !s.fw.restarting then (s.pass dt).activate
      else ((s.pass dt).endUpdate 6 0 (fld s.fw.state 15 0) a).panelEvent (event 0x8A (fld s.fw.state 15 0) a.toNat)) := by
  have h' : (s.pass dt).fw.tAct = some a := h
  unfold execActivation
  dsimp only
  rw [h']
  rfl

end

/-- Settles O43: the management cores and chunks by the rules above; rounds, flash and activation by what each step decides. -/
theorem firmwareRows : Obligations.FirmwareRows := by
  unfold Obligations.FirmwareRows
  refine ⟨?_, ?_, ?_, ?_, ?_⟩
  · intro s g b dt last hlast
    refine ⟨fun h1 h2 => ?_, fun h1 h => ?_, fun h1 h0 h => ?_, fun h => ?_, fun h => ?_⟩
    · exact (mcWatchdog_eq g b dt s).trans (congrArg _ (if_pos ⟨h1, h2⟩))
    · obtain ⟨gals, hg⟩ := mcExpires_frame (s.pass dt) g.val b.val false
      obtain ⟨hstate, hbit⟩ := mcExpires_spec (s.pass dt) g.val b.val false
      refine ⟨_, mcWatchdog_first hlast h1 h, ?_, hstate, hbit⟩
      rw [hg]
      rfl
    · exact ⟨_, mcWatchdog_second hlast h1 h0 h, mcFailed_spec g b.val (mcExpires_spec (s.pass dt) g.val b.val true).1 rfl⟩
    · exact congrArg _ (if_pos h)
    · exact congrArg _ (if_neg h)
  · rintro s i x rfl
    refine ⟨fun h a => probe_gone h a, fun hp hg => ⟨?_, fun h => ?_, fun h => ?_⟩, fun k => ⟨fwchunk_refused, fun hc ho hp => ?_⟩⟩
    · exact (probe_live hp hg true).trans (congrArg _ (if_pos rfl))
    · refine (probe_live hp hg false).trans (congrArg _ ((if_neg Bool.false_ne_true).trans (if_neg ?_)))
      rw [missed_next]
      omega
    · obtain ⟨-, -, hdead, hfenced⟩ := siteDies_spec (s.modSett i.val fun x => { x with missed := x.missed + 1 }) i.val
      refine ⟨_, (probe_live hp hg false).trans (congrArg _ ((if_neg Bool.false_ne_true).trans (if_pos ?_))), hdead, hfenced⟩
      rw [missed_next]
      omega
    · obtain ⟨st, hrow⟩ := fwchunk_taken hc ho hp
      exact ⟨_, hrow, chunkStaged_spec⟩
  · rintro s u v dt rfl rfl
    refine ⟨fun hlo hhi hc hb hr => ?_, fun hp h => repairRoundEnd_idle hp h⟩
    have hrow := repairRoundEnd_checked (dt := dt) hlo hhi
    obtain ⟨st, hfw, hbit, hphase⟩ := counted16_fw (s.pass dt).checkParts
    have hold : (s.pass dt).checkParts.fw = s.fw := checkParts_fw _
    rw [hold] at hfw hbit hphase
    have hc' : ((s.pass dt).checkParts.counted16).fw.cmd.isSome = true := by rw [hfw]; exact hc
    have hb' : bit ((s.pass dt).checkParts.counted16).fw.state 56 = false := by rw [hfw]; exact hbit.trans hb
    have hr' : ((s.pass dt).checkParts.counted16).fw.repaired = false := by rw [hfw]; exact hr
    have hp' : ((s.pass dt).checkParts.counted16).fw.phase = 3 ∨ ((s.pass dt).checkParts.counted16).fw.phase = 4 := by
      rw [Fw.phase, hfw]
      have : fld st 63 60 = s.fw.phase := hphase
      dsimp only
      omega
    exact ⟨fun h => hrow.trans (congrArg _ (roundEnds_ends hc' hb' hr' hp' h)), fun hl h3 => hrow.trans (congrArg _ (roundEnds_first hc' hb' hr' hl h3)),
      fun hl h4 hn => hrow.trans (congrArg _ (roundEnds_next hc' hb' hr' hl h4 hn))⟩
  · rintro s t rfl
    refine ⟨fun h ok => flashWriteDone_idle h ok, fun h => ⟨fun hb => flashWriteDone_good h hb, fun ht => ?_, fun ht hc => flashWriteDone_ends h ht hc⟩⟩
    exact flashWriteDone_retry h ht
  · rintro s u dt now rfl rfl
    refine ⟨fun hc hp hr hb ha ht hl hf => ?_, fun h4 h5 => holdBegin_early h4 h5, fun h => activation_none h, fun a ha => ⟨fun h => ?_, fun h hr hl hn => ?_, fun h hr hc => ?_⟩⟩
    · refine holdBegin_holds (s := s) (dt := dt) ?_ ht hl hf
      have hcmd : (s.pass dt).fw.cmd.isSome = true := hc
      have hphase : (s.pass dt).fw.phase = 4 := hp
      have hrep : (s.pass dt).fw.repaired = true := hr
      have hbit : bit (s.pass dt).fw.state 57 = false := hb
      have hact : (s.pass dt).fw.actTime.toNat ≤ (s.pass dt).g0Time.toNat + 1000000 := ha
      unfold State.mayHold
      rw [hcmd, decide_eq_true hphase, hrep, hbit, decide_eq_true hact]
      rfl
    · exact (activation_some ha).trans (congrArg _ (if_pos h))
    · obtain ⟨st, hact⟩ := activate_complete (s := s.pass dt) hl
      refine ⟨_, (activation_some ha).trans (congrArg _ ((if_neg (Nat.not_lt.mpr h)).trans ((if_pos (by rw [hr]; rfl)).trans hact))), rfl, rfl, rfl, ?_⟩
      exact switched_core (s := s.pass dt) hl hn
    · obtain ⟨st, x, cx, hphase, hend⟩ := endUpdate_frame (s := s.pass dt) hc (ph := 6) (by decide) 0 (fld s.fw.state 15 0) a
      refine ⟨_, (activation_some ha).trans (congrArg _ ((if_neg (Nat.not_lt.mpr h)).trans (if_neg (by rw [hr]; exact Bool.false_ne_true)))), ?_⟩
      obtain ⟨y, cy, hev⟩ := offHost_frame (offHost_panelEvent ((s.pass dt).endUpdate 6 0 (fld s.fw.state 15 0) a) (event 0x8A (fld s.fw.state 15 0) a.toNat))
      rw [hev, hend]
      exact ⟨hphase, rfl, rfl, rfl⟩

end Sys2Proof.Machine
end

section
/-! SUPPORT. Reset, bring-up and recovery (R395 to R409, R417, R418). -/

namespace Sys2Proof.Machine

/-! ### Folds over sumps and galleries -/

/-- A fold of changes of one sump each, over distinct sumps. -/
theorem foldl_sump_once {f : State → Nat → State} {g : Nat → Sump → Sump} (h : ∀ t k j, (f t k).sump j = if j = k then g k (t.sump k) else t.sump j)
    (l : List Nat) (hl : l.Nodup) (s : State) (j : Nat) : (l.foldl f s).sump j = if j ∈ l then g j (s.sump j) else s.sump j := by
  induction l generalizing s with
  | nil => exact (if_neg List.not_mem_nil).symm
  | cons k l ih =>
    obtain ⟨hk, hl⟩ := List.nodup_cons.mp hl
    rw [List.foldl_cons, ih hl, h]
    by_cases hj : j = k
    · subst hj
      rw [if_neg hk, if_pos rfl, if_pos List.mem_cons_self]
    · simp only [List.mem_cons, hj, false_or, if_false]

theorem foldl_gal_once (f : Gallery → Gallery) (l : List Nat) (hl : l.Nodup) (s : State) (j : Nat) :
    (l.foldl (fun t g => t.modGal g f) s).gal j = if j ∈ l then f (s.gal j) else s.gal j := by
  induction l generalizing s with
  | nil => exact (if_neg List.not_mem_nil).symm
  | cons k l ih =>
    obtain ⟨hk, hl⟩ := List.nodup_cons.mp hl
    rw [List.foldl_cons, ih hl, gal_modGal]
    by_cases hj : j = k
    · subst hj
      rw [if_neg hk, if_pos rfl, if_pos List.mem_cons_self]
    · simp only [List.mem_cons, hj, false_or, if_false]

theorem get_foldl_set {α : Type} [DecidableEq α] (d v : α) (l : List Nat) (t : Tab α) (j : Nat) (h : j ∈ l ∨ Tab.get d t j = v) :
    Tab.get d (l.foldl (fun m b => Tab.set d m b v) t) j = v := by
  induction l generalizing t with
  | nil => exact h.resolve_left List.not_mem_nil
  | cons k l ih =>
    refine ih _ ?_
    rw [get_set]
    by_cases hj : j = k
    · exact Or.inr (if_pos hj)
    · rw [if_neg hj]
      exact h.imp_left fun h => (List.mem_cons.mp h).resolve_left hj

/-! ### Reset -/

theorem resetPanel_spec (s : State) (rim pin go : Bool) : (s.resetPanel rim pin go).pins.panelResetN = pin ∧ (s.resetPanel rim pin go).pins.rimGood = rim
    ∧ (s.resetPanel rim pin go).boot.running = go ∧ (s.resetPanel rim pin go).boot.status = 0 ∧ (s.resetPanel rim pin go).boot.recovery = false
    ∧ (s.resetPanel rim pin go).cores = [] ∧ (s.resetPanel rim pin go).setts = [] ∧ (s.resetPanel rim pin go).sumps = []
    ∧ (s.resetPanel rim pin go).gals = [] ∧ (s.resetPanel rim pin go).flight = [] ∧ (s.resetPanel rim pin go).tclk = 0 :=
  ⟨rfl, rfl, rfl, rfl, rfl, rfl, rfl, rfl, rfl, rfl, rfl⟩

theorem resetPanel_nv (s : State) (rim pin go : Bool) : (s.resetPanel rim pin go).nv.image = s.nv.image ∧ (s.resetPanel rim pin go).nv.imageOk = s.nv.imageOk
    ∧ (s.resetPanel rim pin go).nv.vault = s.nv.vault := ⟨rfl, rfl, rfl⟩

theorem dueReset_due {s : State} {a : Nat} (h : s.boot.resetAt = some a) (ha : a ≤ s.tclk) :
    s.dueReset = some (s.resetPanel s.pins.rimGood s.pins.panelResetN (s.pins.rimGood && s.pins.panelResetN)) := by
  unfold State.dueReset
  rw [h]
  exact if_pos ha

theorem dueReset_none {s : State} (h : s.boot.resetAt = none) : s.dueReset = none := by
  unfold State.dueReset
  rw [h]

/-! ### Phases -/

section
variable {s : State} {f : PhaseFindings}

theorem bringupPhase_reset {dt : Nat} {u : State} (h : (s.pass dt).dueReset = some u) : execBringupPhase f dt s = .next u := by
  unfold execBringupPhase
  dsimp only
  rw [h]

theorem bringupPhase_none {dt : Nat} (h : (s.pass dt).dueReset = none) : execBringupPhase f dt s =
    .next (if (s.pass dt).boot.running && !(s.pass dt).boot.recovery then (s.pass dt).phaseEnds f else s.pass dt) := by
  unfold execBringupPhase
  dsimp only
  rw [h]

theorem failBoot_spec (s : State) : fld s.failBoot.boot.status 63 60 = 7 ∧ s.failBoot.boot.running = false ∧ s.failBoot.nv.lastReady = false :=
  ⟨(fld_setFld_ne (by decide) (by decide) (by decide)).trans ((fld_setFld (by decide) (by decide)).trans (by decide)), rfl, rfl⟩

theorem phaseEnds_fails (h : f.g0Fails = true ∨ (s.phase = 0 ∧ s.nv.part = 3)) : s.phaseEnds f = s.failBoot := by
  unfold State.phaseEnds
  by_cases hf : f.g0Fails = true
  · exact if_pos hf
  · obtain ⟨hp, hpart⟩ := h.resolve_left hf
    rw [if_neg hf, hp]
    exact if_pos hpart

section
variable (hf : f.g0Fails = false)
include hf

theorem phaseEnds_off (hp : s.phase = 0) (h : s.nv.part ≠ 3) : s.phaseEnds f = s.modBoot fun v => setFld v 63 60 1 := by
  unfold State.phaseEnds
  rw [if_neg (Bool.eq_false_iff.mp hf), hp]
  exact if_neg h

theorem phaseEnds_verify (hp : s.phase = 1) : s.phaseEnds f = s.verified := by
  unfold State.phaseEnds
  rw [if_neg (Bool.eq_false_iff.mp hf), hp]
  rfl

theorem phaseEnds_rim (hp : s.phase = 2) : s.phaseEnds f = s.rimDone f.galFails := by
  unfold State.phaseEnds
  rw [if_neg (Bool.eq_false_iff.mp hf), hp]
  rfl

theorem phaseEnds_hbm (hp : s.phase = 3) : s.phaseEnds f = s.hbmTested (f.hbmRows.map fun e => (e.1.val, e.2)) := by
  unfold State.phaseEnds
  rw [if_neg (Bool.eq_false_iff.mp hf), hp]
  rfl

theorem phaseEnds_benches (hp : s.phase = 4) (h : s.bench = none) : s.phaseEnds f = s.modBoot fun v => setFld v 63 60 5 := by
  unfold State.phaseEnds
  rw [if_neg (Bool.eq_false_iff.mp hf), hp, h]
  rfl

theorem phaseEnds_soaks (hp : s.phase = 5) : s.phaseEnds f = if s.boot.soaking then s else s.publish := by
  unfold State.phaseEnds
  rw [if_neg (Bool.eq_false_iff.mp hf), hp]
  rfl

end

/-! ### VERIFY and RIM -/

theorem verified_bad (h : s.nv.imageOk = false) : s.verified = { s with boot := { s.boot with recovery := true } } := if_pos (by rw [h]; rfl)

/-- The image runs, and every management core with it. -/
def State.imageStarted (s : State) : State :=
  (List.range 4).foldl (fun t g => t.modGal g fun x => { x with mcStat := (List.range 4).foldl (fun m b => Tab.set 0 m b 0x10000000) x.mcStat })
    { s with fw := { s.fw with version := imageVersion s.nv.image, svn := imageSvn s.nv.image, running := s.nv.image } }

theorem imageStarted_mcState (s : State) {g b : Nat} (hg : g < 4) (hb : b < 4) : s.imageStarted.mcState g b = 1 := by
  unfold State.mcState State.imageStarted
  rw [foldl_gal_once _ _ List.nodup_range, if_pos (List.mem_range.mpr hg)]
  dsimp only
  rw [get_foldl_set _ _ _ _ _ (Or.inl (List.mem_range.mpr hb))]
  decide

theorem imageStarted_fw (s : State) : s.imageStarted.fw = { s.fw with version := imageVersion s.nv.image, svn := imageSvn s.nv.image, running := s.nv.image } :=
  view_foldl State.fw (f := fun t g => t.modGal g fun x => { x with mcStat := (List.range 4).foldl (fun m b => Tab.set 0 m b 0x10000000) x.mcStat })
    (fun _ _ => rfl) _ _

theorem modBoot_frame (s : State) (g : BitVec 64 → BitVec 64) : ∃ v, v = g s.boot.status ∧ s.modBoot g = { s with boot := { s.boot with status := v } } :=
  ⟨_, rfl, rfl⟩

theorem verified_good (h : s.nv.imageOk = true) : ∃ v, fld v 63 60 = 2 ∧ s.verified = { s.imageStarted with boot := { s.imageStarted.boot with status := v } } := by
  have hv : s.verified = s.imageStarted.modBoot fun v => setFld v 63 60 2 := if_neg (by rw [h]; exact Bool.false_ne_true)
  obtain ⟨v, hw, hm⟩ := modBoot_frame s.imageStarted fun v => setFld v 63 60 2
  refine ⟨v, ?_, hv.trans hm⟩
  rw [hw]
  exact (fld_setFld (by decide) (by decide)).trans (by decide)

theorem mcState_boot (t : State) (x : Boot) (g b : Nat) : State.mcState { t with boot := x } g b = t.mcState g b := rfl

theorem verified_spec (h : s.nv.imageOk = true) : fld s.verified.boot.status 63 60 = 2 ∧ s.verified.fw.version = imageVersion s.nv.image
    ∧ s.verified.fw.svn = imageSvn s.nv.image ∧ ∀ g < 4, ∀ b < 4, s.verified.mcState g b = 1 := by
  have hfw := imageStarted_fw s
  obtain ⟨v, hphase, hv⟩ := verified_good h
  have hversion : s.imageStarted.fw.version = imageVersion s.nv.image := by rw [hfw]
  have hsvn : s.imageStarted.fw.svn = imageSvn s.nv.image := by rw [hfw]
  rw [hv]
  exact ⟨hphase, hversion, hsvn, fun g hg b hb => (mcState_boot _ _ _ _).trans (imageStarted_mcState s hg hb)⟩

/-- A sump as the RIM phase leaves it. -/
def Sump.rimTrained (x : Sump) (ret rep : List Nat) : Sump := { x with status := setFld x.status 31 28 1, retired := ret, repaired := rep }

theorem rimTrained_state (x : Sump) (ret rep : List Nat) : (x.rimTrained ret rep).state = 1 :=
  (fld_setFld (by decide) (by decide)).trans (by decide)

end

end Sys2Proof.Machine
end

section
/-! SUPPORT. The RIM phase, the HBM test, the benches and publication (R397 to R409). -/

namespace Sys2Proof.Machine

/-! ### RIM -/

/-- GAL_BOOT_STATUS as the RIM phase leaves it (R404). -/
def rimStatus (quick : Bool) (forced : Nat) (v : BitVec 64) : BitVec 64 := setFld (setBit (setFld v 63 60 3) 59 quick) 58 56 forced

theorem rimStatus_fields (quick : Bool) {forced : Nat} (h : forced < 8) (v : BitVec 64) : fld (rimStatus quick forced v) 63 60 = 3
    ∧ bit (rimStatus quick forced v) 59 = quick ∧ fld (rimStatus quick forced v) 58 56 = forced := by
  unfold rimStatus
  refine ⟨?_, ?_, ?_⟩
  · rw [fld_setFld_ne (by decide) (by decide) (by decide), fld_setBit_ne (by decide) (by decide)]
    exact (fld_setFld (by decide) (by decide)).trans (by decide)
  · rw [bit_setFld_ne (by decide) (by decide) (by decide), bit_setBit (by decide), if_pos rfl]
  · exact (fld_setFld (by decide) (by decide)).trans (Nat.mod_eq_of_lt h)

theorem forced_lt (n : NonVol) (version : BitVec 64) : n.forced version < 8 := by
  unfold NonVol.forced
  repeat' split
  all_goals decide

/-- The sumps as the RIM phase leaves them. -/
def State.rimSumps (t : State) (ret rep : Nat → List Nat) : State :=
  (List.range 32).foldl (fun t k => t.modSump k fun x => x.rimTrained (ret k) (rep k)) t

theorem rimDone_shape (s : State) (fails : List Gal) : ∃ t ret rep, s.rimDone fails =
    (State.rimSumps t ret rep).modBoot (rimStatus (bit s.nv.bootCfg 31 && s.nv.forced s.fw.version = 0) (s.nv.forced s.fw.version)) := by
  unfold State.rimDone State.rimSumps Sump.rimTrained rimStatus
  exact ⟨_, _, _, rfl⟩

theorem rimSumps_state (t : State) (ret rep : Nat → List Nat) {k : Nat} (hk : k < 32) : ((t.rimSumps ret rep).sump k).state = 1 := by
  unfold State.rimSumps
  rw [foldl_sump_once (g := fun k x => x.rimTrained (ret k) (rep k)) (fun t k j => sump_modSump _ _ _ _) _ List.nodup_range,
    if_pos (List.mem_range.mpr hk), rimTrained_state]

theorem sump_boot (t : State) (x : Boot) (k : Nat) : State.sump { t with boot := x } k = t.sump k := rfl

theorem rimDone_spec (s : State) (fails : List Gal) : fld (s.rimDone fails).boot.status 63 60 = 3
    ∧ bit (s.rimDone fails).boot.status 59 = (bit s.nv.bootCfg 31 && decide (s.nv.forced s.fw.version = 0))
    ∧ fld (s.rimDone fails).boot.status 58 56 = s.nv.forced s.fw.version ∧ ∀ k < 32, ((s.rimDone fails).sump k).state = 1 := by
  obtain ⟨t, ret, rep, ht⟩ := rimDone_shape s fails
  have hsump := fun k (hk : k < 32) => rimSumps_state t ret rep hk
  obtain ⟨v, hv, hm⟩ := modBoot_frame (t.rimSumps ret rep) (rimStatus (bit s.nv.bootCfg 31 && s.nv.forced s.fw.version = 0) (s.nv.forced s.fw.version))
  obtain ⟨h1, h2, h3⟩ := rimStatus_fields (bit s.nv.bootCfg 31 && s.nv.forced s.fw.version = 0) (forced_lt s.nv s.fw.version) (t.rimSumps ret rep).boot.status
  rw [← hv] at h1 h2 h3
  rw [ht, hm]
  exact ⟨h1, h2, h3, fun k hk => by rw [sump_boot, hsump k hk]⟩

/-! ### The next bench -/

/-- What the start of a bench keeps of GAL_BOOT_STATUS: the phase, and the benches that are done or skipped. -/
structure BenchKept (v w : BitVec 64) : Prop where
  phase   : fld w 63 60 = fld v 63 60
  skipped : ∀ b < 4, bit v (48 + b) = true → bit w (48 + b) = true
  done    : ∀ b < 4, bit v (52 + b) = true → bit w (52 + b) = true

theorem benchKept_step (v : BitVec 64) (n : Nat) : BenchKept v (setFld v 42 40 n) where
  phase := fld_setFld_ne (by decide) (by decide) (by decide)
  skipped b _ h := (bit_setFld_ne (by decide) (by decide) (by omega)).trans h
  done b _ h := (bit_setFld_ne (by decide) (by decide) (by omega)).trans h

theorem benchKept_skip (v : BitVec 64) (n : Nat) : BenchKept v (setFld v 51 48 (fld v 51 48 ||| n)) where
  phase := fld_setFld_ne (by decide) (by decide) (by decide)
  skipped b hb h := by
    rw [bit_setFld (by decide) (by decide), if_pos (by omega), Nat.testBit_or, fld_testBit, Nat.add_sub_cancel_left, h, decide_eq_true (by omega)]
    rfl
  done b _ h := (bit_setFld_ne (by decide) (by decide) (by omega)).trans h

theorem BenchKept.trans {u v w : BitVec 64} (h : BenchKept u v) (k : BenchKept v w) : BenchKept u w where
  phase := k.phase.trans h.phase
  skipped b hb hu := k.skipped b hb (h.skipped b hb hu)
  done b hb hu := k.done b hb (h.done b hb hu)

theorem benchKept_stop (v : BitVec 64) : BenchKept v (setFld (setFld v 42 40 0) 51 48 (fld v 51 48 ||| (15 - fld v 55 52))) := by
  have hsame : fld (setFld v 42 40 0) 51 48 = fld v 51 48 := fld_setFld_ne (by decide) (by decide) (by decide)
  have h := benchKept_skip (setFld v 42 40 0) (15 - fld v 55 52)
  rw [hsame] at h
  exact (benchKept_step v 0).trans h

theorem startBench_frame (s : State) : ∃ v p, BenchKept s.boot.status v ∧ s.startBench = { s with boot := { s.boot with status := v }, power := p } := by
  unfold State.startBench
  split
  · obtain ⟨v, hv, hm⟩ := modBoot_frame s fun v => setFld v 42 40 0
    rw [hm]
    exact ⟨v, s.power, hv ▸ benchKept_step s.boot.status 0, rfl⟩
  · split
    · obtain ⟨v, hv, hm⟩ := modBoot_frame s fun v => setFld (setFld v 42 40 0) 51 48 (fld v 51 48 ||| (15 - fld v 55 52))
      rw [hm]
      exact ⟨v, s.power, hv ▸ benchKept_stop s.boot.status, rfl⟩
    · obtain ⟨v, hv, hm⟩ := modBoot_frame s fun v => setFld v 42 40 1
      dsimp only
      rw [hm]
      exact ⟨v, _, hv ▸ benchKept_step s.boot.status 1, rfl⟩

/-! ### The HBM test -/

theorem mem_spallRows (s : State) (rows : List (Nat × Nat)) (k : Nat) : ((s.spallRows rows).sump k).mem = (s.sump k).mem := by
  refine view_foldl (fun t => (t.sump k).mem) (f := fun t (e : Nat × Nat) => t.modSump e.1 fun x => { x with spall := addOnce x.spall (e.2 % 2 ^ 21) })
    (fun t e => ?_) rows s
  rw [sump_modSump]
  split
  case isTrue h => rw [h]
  case isFalse => rfl

theorem status_spallRows (s : State) (rows : List (Nat × Nat)) (k : Nat) : ((s.spallRows rows).sump k).status = (s.sump k).status := by
  refine view_foldl (fun t => (t.sump k).status) (f := fun t (e : Nat × Nat) => t.modSump e.1 fun x => { x with spall := addOnce x.spall (e.2 % 2 ^ 21) })
    (fun t e => ?_) rows s
  rw [sump_modSump]
  split
  case isTrue h => rw [h]
  case isFalse => rfl

/-- A sump with its pause bits set while it is READY (R282). -/
def Sump.pausedBy (x : Sump) (mask : Nat) : Sump := if x.ready then { x with ref := setFld x.ref 3 0 mask } else x

theorem pauseGroup_sump (s : State) (mask : Nat) {k : Nat} (hk : k < 32) : (s.pauseGroup mask).sump k = (s.sump k).pausedBy mask := by
  unfold State.pauseGroup
  rw [foldl_sump_once (g := fun _ x => x.pausedBy mask) ?_ _ List.nodup_range, if_pos (List.mem_range.mpr hk)]
  intro t i j
  unfold Sump.pausedBy
  split
  · rw [sump_modSump]
  case isFalse => split <;> simp only [*]

theorem mem_paused (x : Sump) (mask : Nat) : (x.pausedBy mask).mem = x.mem := by
  unfold Sump.pausedBy
  split <;> rfl

theorem ref_paused {x : Sump} {mask : Nat} (h : x.ready = true) (hm : mask < 16) : fld (x.pausedBy mask).ref 3 0 = mask := by
  unfold Sump.pausedBy
  rw [if_pos h]
  exact (fld_setFld (by decide) (by decide)).trans (Nat.mod_eq_of_lt hm)

theorem boot_modSump_foldl {α : Type} {f : State → α → State} (h : ∀ t a, (f t a).boot = t.boot) (l : List α) (s : State) :
    (l.foldl f s).boot = s.boot := view_foldl State.boot h l s

theorem boot_pauseGroup (s : State) (mask : Nat) : (s.pauseGroup mask).boot = s.boot :=
  boot_modSump_foldl (fun t k => by split <;> rfl) _ s

theorem boot_spallRows (s : State) (rows : List (Nat × Nat)) : (s.spallRows rows).boot = s.boot :=
  boot_modSump_foldl (f := fun t (e : Nat × Nat) => t.modSump e.1 fun x => { x with spall := addOnce x.spall (e.2 % 2 ^ 21) }) (fun _ _ => rfl) rows s

/-- The stacks of which the test is over: memory reads zero, and failed rows are listed. -/
def State.hbmCleared (s : State) (rows : List (Nat × Nat)) : State :=
  ((List.range 32).foldl (fun t k => t.modSump k fun x => { x with mem := [] }) s).spallRows rows

theorem hbmCleared_spec (s : State) (rows : List (Nat × Nat)) : (s.hbmCleared rows).boot = s.boot
    ∧ ∀ k < 32, ((s.hbmCleared rows).sump k).mem = [] := by
  refine ⟨(boot_spallRows _ _).trans (boot_modSump_foldl (f := fun t k => t.modSump k fun x => { x with mem := [] }) (fun _ _ => rfl) _ s), fun k hk => ?_⟩
  unfold State.hbmCleared
  rw [mem_spallRows, foldl_sump_once (g := fun _ x => { x with mem := [] }) (fun t k j => sump_modSump _ _ _ _) _ List.nodup_range,
    if_pos (List.mem_range.mpr hk)]

/-- The stacks with the first group paused, when soaks follow. -/
def State.hbmSoaking (t : State) : State := if bit t.boot.status 59 then t else t.pauseGroup 1

theorem hbmSoaking_spec (t : State) : t.hbmSoaking.boot = t.boot ∧ ∀ k < 32, (t.hbmSoaking.sump k).mem = (t.sump k).mem := by
  unfold State.hbmSoaking
  split
  · exact ⟨rfl, fun _ _ => rfl⟩
  · exact ⟨boot_pauseGroup _ _, fun k hk => by rw [pauseGroup_sump _ _ hk, mem_paused]⟩

/-- The state that shows the BENCHES phase, with or without soaks to come. -/
def State.toBenches (t : State) (soaks : Bool) : State := ({ t with boot := { t.boot with soaking := soaks } } : State).modBoot fun v => setFld v 63 60 4

theorem toBenches_frame (t : State) (soaks : Bool) : ∃ v, fld v 63 60 = 4 ∧ t.toBenches soaks = { t with boot := { t.boot with soaking := soaks, status := v } } :=
  ⟨_, (fld_setFld (by decide) (by decide)).trans (by decide), rfl⟩

section
variable {s : State} {rows : List (Nat × Nat)}

theorem hbmTested_waits (h : ∃ k < 32, (s.sump k).state = 1) : s.hbmTested rows = s := by
  obtain ⟨k, hk, h1⟩ := h
  exact if_pos (List.any_eq_true.mpr ⟨k, List.mem_range.mpr hk, decide_eq_true h1⟩)

theorem hbmTested_done (h : ∀ k < 32, (s.sump k).state ≠ 1) : s.hbmTested rows =
    ((s.hbmCleared rows).hbmSoaking.toBenches (!bit (s.hbmCleared rows).boot.status 59)).startBench := by
  refine if_neg fun hany => ?_
  obtain ⟨k, hk, h1⟩ := List.any_eq_true.mp hany
  exact h k (List.mem_range.mp hk) (of_decide_eq_true h1)

theorem hbmTested_spec (h : ∀ k < 32, (s.sump k).state ≠ 1) : fld (s.hbmTested rows).boot.status 63 60 = 4
    ∧ (∀ k < 32, ((s.hbmTested rows).sump k).mem = []) ∧ (s.hbmTested rows).boot.soaking = !bit s.boot.status 59 := by
  obtain ⟨hboot, hmem⟩ := hbmCleared_spec s rows
  obtain ⟨-, hkeep⟩ := hbmSoaking_spec (s.hbmCleared rows)
  obtain ⟨v, hphase, hto⟩ := toBenches_frame (s.hbmCleared rows).hbmSoaking (!bit (s.hbmCleared rows).boot.status 59)
  obtain ⟨w, p, hkept, hstart⟩ := startBench_frame ((s.hbmCleared rows).hbmSoaking.toBenches (!bit (s.hbmCleared rows).boot.status 59))
  rw [hbmTested_done h, hstart]
  rw [hto] at hkept ⊢
  refine ⟨hkept.phase.trans hphase, fun k hk => (hkeep k hk).trans (hmem k hk), ?_⟩
  rw [hboot]

end

/-! ### Publication -/

theorem endUnlaunched_map (s : State) (q : QPass) (st : Nat) : (s.endUnlaunched q st).map = s.map := by
  have hcancel : ∀ (t : State) (src : Src) (after : Option QPass), (t.cancelChain src after).map = t.map := fun t src after => by
    unfold State.cancelChain
    dsimp only
    refine (view_foldl State.map (fun t q => ?_) _ _).trans ?_
    · obtain ⟨x, c, h⟩ := offHost_frame (offHost_complete t q.cmd (t.unlaunchedRec q 0x24))
      rw [h]
    · cases after <;> dsimp only <;> split <;> rfl
  obtain ⟨x, c, h⟩ := offHost_frame (offHost_complete s q.cmd (s.unlaunchedRec q st))
  refine (hcancel _ _ _).trans ?_
  rw [h]

/-- What the waiting changes of the map add up to (R20). -/
def State.mapSum (s : State) : MapSum := s.map.waiting.foldl MapSum.add
  { sites := s.nv.deadSites, cores := s.nv.deadCores, lanes := s.map.deadLanes, lit := s.litMask, dark := s.map.darkRows }

theorem map_of_offHost {t u : State} (h : t.offHost = u.offHost) : t.map = u.map := by
  obtain ⟨x, c, hx⟩ := offHost_frame h
  rw [hx]

theorem map_mapCores (s : State) (f : Nat → Core → Core) : (s.mapCores f).map = s.map :=
  view_foldl State.map (f := fun t p => t.modCore p (f p)) (fun _ _ => rfl) _ _

theorem changeMap_map {s : State} (hw : s.map.waiting ≠ []) (hp : s.map.published = true) : s.changeMap.map =
    { s.map.build s.mapSum.sites s.mapSum.cores s.mapSum.lanes s.mapSum.lit with
      gen := s.map.gen + 1, waiting := [], darkRows := s.mapSum.dark, published := true } := by
  have hno : ¬ (s.map.waiting.isEmpty || !s.map.published) = true := by simp [hw, hp]
  unfold State.changeMap
  rw [if_neg hno]
  dsimp only
  refine (view_foldl State.map (fun t q => endUnlaunched_map t q 0x20) _ _).trans ((map_of_offHost (offHost_ctxEvents _ _ _)).trans ?_)
  dsimp only
  rw [map_mapCores]
  exact view_foldl State.map (f := fun u h => u.modEntry h fun e => { e with invalid := true }) (fun _ _ => rfl) _ _

theorem changeMap_applies {s : State} (hw : s.map.waiting ≠ []) (hp : s.map.published = true) :
    s.changeMap.map.published = true ∧ s.changeMap.map.waiting = [] ∧ s.changeMap.map.gen = s.map.gen + 1 := by
  rw [changeMap_map hw hp]
  exact ⟨rfl, rfl, rfl⟩

/-- The meadows' entries of the first map change. -/
def State.meadowItems (s : State) : List MapItem :=
  (List.range 8).map fun m => if s.meadowState m = 3 then MapItem.meadowLit m else MapItem.meadowDark m

/-- The panel as it is published, before the first map change. -/
def State.toPublish (s : State) : State :=
  { s.writeTables with
    map := { s.map with published := true, waiting := s.map.waiting ++ s.meadowItems } }

theorem toPublish_map (s : State) : s.toPublish.map.waiting ≠ [] ∧ s.toPublish.map.published = true ∧ s.toPublish.map.gen = s.map.gen := by
  refine ⟨fun h => ?_, rfl, rfl⟩
  have hlen := congrArg List.length (List.append_eq_nil_iff.mp (show s.map.waiting ++ s.meadowItems = [] from h)).2
  rw [State.meadowItems, List.length_map, List.length_range] at hlen
  cases hlen

theorem endBoot_frame (s : State) (ph : Nat) (h : ph < 16) : ∃ v, fld v 63 60 = ph ∧ s.endBoot ph = { s with boot := { s.boot with status := v, running := false } } :=
  ⟨_, (fld_setFld_ne (by decide) (by decide) (by decide)).trans ((fld_setFld (by decide) (by decide)).trans (Nat.mod_eq_of_lt h)), rfl⟩

/-- The first map change of a publication ends bring-up (R406). -/
theorem publish_shape (s : State) : ∃ q v, s.publish = { s.toPublish.changeMap.endBoot 6 with
    nv := { (s.toPublish.changeMap.endBoot 6).nv with lastReady := true, quickRuns := q, stdVersion := v } } := ⟨_, _, rfl⟩

theorem publish_spec (s : State) : fld s.publish.boot.status 63 60 = 6 ∧ s.publish.boot.running = false ∧ s.publish.map.published = true
    ∧ s.publish.map.waiting = [] ∧ s.publish.map.gen = s.map.gen + 1 ∧ s.publish.nv.lastReady = true := by
  obtain ⟨hw, hp, hg⟩ := toPublish_map s
  obtain ⟨h1, h2, h3⟩ := changeMap_applies hw hp
  obtain ⟨v, hphase, hend⟩ := endBoot_frame s.toPublish.changeMap 6 (by decide)
  obtain ⟨q, x, hpub⟩ := publish_shape s
  rw [hpub, hend]
  exact ⟨hphase, rfl, h1, h2, h3.trans (congrArg (· + 1) hg), rfl⟩

end Sys2Proof.Machine
end

section
/-! SUPPORT. Benches, the tests of a meadow, retention soaks and recovery (R399 to R403, R407, R409, R417, R418). -/

namespace Sys2Proof.Machine

/-! ### Benches -/

theorem bench_lt {s : State} {b : Nat} (h : s.bench = some b) : b < 4 := List.mem_range.mp (List.mem_of_find?_eq_some h)

theorem meadow_frame (s : State) (m v : Nat) : ∃ w, s.setMeadow m v = { s with power := { s.power with meadow := w } } := ⟨_, rfl⟩

theorem boot_setMeadow (s : State) (m v : Nat) : (s.setMeadow m v).boot = s.boot := by
  obtain ⟨w, h⟩ := meadow_frame s m v
  rw [h]

/-- The part of `dropLateRequests` that puts the meadow of a dropped request back. -/
def State.dropLate (t : State) (r : InrushReq) : State := if t.meadowState r.meadow = 1 then t.setMeadow r.meadow 0 else t

theorem boot_dropLate (t : State) (r : InrushReq) : (t.dropLate r).boot = t.boot := by
  unfold State.dropLate
  split
  · exact boot_setMeadow t r.meadow 0
  · rfl

theorem dropLateRequests_boot (s : State) : s.dropLateRequests.boot = s.boot := by
  unfold State.dropLateRequests
  exact view_foldl State.boot (f := State.dropLate) boot_dropLate _ _

theorem benchStep_row {s : State} {f : Findings} {dt b : Nat} (hp : fld s.boot.status 63 60 = 4) (hb : s.bench = some b) :
    execBenchStep f dt s = .next ((s.pass dt).benchStep f b) := by
  have hp : (s.pass dt).phase = 4 := hp
  have hb : (s.pass dt).bench = some b := hb
  unfold execBenchStep
  dsimp only
  rw [if_pos hp, hb]

/-- A bench's step on the state `u` that the late requests have left (R399, R407). -/
def State.benchOn (u : State) (f : Findings) (b : Nat) (lit : List Nat) : State :=
  if (fld u.boot.status 42 40 = 1 && (benchMeadows b).any fun m => u.meadowState m = 2 || u.power.requests.any fun r => r.meadow = m) then u
  else if lit.isEmpty then
    ((if u.boot.found.isEmpty && u.boot.spFound.isEmpty then u else u.mapUpdate).modBoot fun v => setBit v (48 + b) true).startBench
  else if stepAfter (bit u.boot.status 59) (fld u.boot.status 42 40) = 0 then
    (((u.testStep f lit (fld u.boot.status 42 40)).mapUpdate).modBoot fun v => setBit v (52 + b) true).startBench
  else (u.testStep f lit (fld u.boot.status 42 40)).modBoot fun v => setFld v 42 40 (stepAfter (bit u.boot.status 59) (fld u.boot.status 42 40))

theorem benchStep_eq (s : State) (f : Findings) (b : Nat) : s.benchStep f b =
    s.dropLateRequests.benchOn f b ((benchMeadows b).filter fun m => s.dropLateRequests.meadowState m = 3) := rfl

section
variable {u : State} {f : Findings} {b c : Nat} {lit : List Nat} (hc : fld u.boot.status 42 40 = c)
include hc

theorem benchOn_waits (h1 : c = 1) (h : ∃ m ∈ benchMeadows b, u.meadowState m = 2 ∨ ∃ r ∈ u.power.requests, r.meadow = m) : u.benchOn f b lit = u := by
  refine if_pos ?_
  rw [hc, h1, Bool.and_eq_true]
  refine ⟨rfl, ?_⟩
  obtain ⟨m, hm, hbusy⟩ := h
  refine List.any_eq_true.mpr ⟨m, hm, ?_⟩
  rw [Bool.or_eq_true, decide_eq_true_eq]
  refine hbusy.imp_right fun ⟨r, hr, hrm⟩ => List.any_eq_true.mpr ⟨r, hr, decide_eq_true hrm⟩

theorem benchOn_goes (h : c ≠ 1 ∨ ∀ m ∈ benchMeadows b, u.meadowState m ≠ 2 ∧ ∀ r ∈ u.power.requests, r.meadow ≠ m) :
    u.benchOn f b lit = if lit.isEmpty then
      ((if u.boot.found.isEmpty && u.boot.spFound.isEmpty then u else u.mapUpdate).modBoot fun v => setBit v (48 + b) true).startBench
      else if stepAfter (bit u.boot.status 59) c = 0 then (((u.testStep f lit c).mapUpdate).modBoot fun v => setBit v (52 + b) true).startBench
      else (u.testStep f lit c).modBoot fun v => setFld v 42 40 (stepAfter (bit u.boot.status 59) c) := by
  unfold State.benchOn
  rw [hc]
  refine if_neg fun hb => ?_
  rw [Bool.and_eq_true, decide_eq_true_eq] at hb
  obtain ⟨h1, hany⟩ := hb
  obtain ⟨m, hm, hbusy⟩ := List.any_eq_true.mp hany
  obtain ⟨hst, hreq⟩ := h.resolve_left (fun hn => hn h1) m hm
  rw [Bool.or_eq_true, decide_eq_true_eq] at hbusy
  rcases hbusy with h2 | h2
  · exact hst h2
  · obtain ⟨r, hr, hrm⟩ := List.any_eq_true.mp h2
    exact hreq r hr (of_decide_eq_true hrm)

end

theorem startBench_skipped {t : State} {b : Nat} (hb : b < 4) (h : bit t.boot.status (48 + b) = true) :
    bit t.startBench.boot.status (48 + b) = true := by
  obtain ⟨v, p, hkept, hs⟩ := startBench_frame t
  rw [hs]
  exact hkept.skipped b hb h

/-- A bench that is skipped shows it (R407). -/
theorem skipBench_bit (t : State) {b : Nat} (hb : b < 4) : bit (t.modBoot fun v => setBit v (48 + b) true).startBench.boot.status (48 + b) = true := by
  obtain ⟨v, hv, hm⟩ := modBoot_frame t fun v => setBit v (48 + b) true
  have hbit : bit v (48 + b) = true := by
    rw [hv, bit_setBit (by omega), if_pos rfl]
  rw [hm]
  exact startBench_skipped hb hbit

theorem mapUpdate_spec (s : State) : s.mapUpdate.boot.found = [] ∧ s.mapUpdate.nv.mapStored = true := ⟨rfl, rfl⟩

/-- A bench that is done shows it, with its findings in the lists (R399, R408). -/
theorem doneBench_spec (t : State) {b : Nat} (hb : b < 4) : bit (t.mapUpdate.modBoot fun v => setBit v (52 + b) true).startBench.boot.status (52 + b) = true
    ∧ (t.mapUpdate.modBoot fun v => setBit v (52 + b) true).startBench.boot.found = []
    ∧ (t.mapUpdate.modBoot fun v => setBit v (52 + b) true).startBench.nv.mapStored = true := by
  obtain ⟨hfound, hstored⟩ := mapUpdate_spec t
  obtain ⟨v, hv, hm⟩ := modBoot_frame t.mapUpdate fun v => setBit v (52 + b) true
  have hbit : bit v (52 + b) = true := by
    rw [hv, bit_setBit (by omega), if_pos rfl]
  rw [hm]
  obtain ⟨w, p, hkept, hs⟩ := startBench_frame { t.mapUpdate with boot := { t.mapUpdate.boot with status := v } }
  rw [hs]
  exact ⟨hkept.done b hb hbit, hfound, hstored⟩

theorem stepAfter_pos {quick : Bool} {c : Nat} (h : c ≠ 7) : stepAfter quick c ≠ 0 := by
  unfold stepAfter
  rw [if_neg h]
  split
  · cases quick <;> decide
  · exact Nat.succ_ne_zero c

theorem stepAfter_lt {quick : Bool} {c : Nat} (h : c < 8) : stepAfter quick c < 8 := by
  unfold stepAfter
  split
  · cases quick <;> decide
  · split <;> omega

theorem modBoot_step (t : State) {n : Nat} (hn : n < 8) : fld (t.modBoot fun v => setFld v 42 40 n).boot.status 42 40 = n := by
  obtain ⟨v, hv, hm⟩ := modBoot_frame t fun v => setFld v 42 40 n
  rw [hm]
  dsimp only
  rw [hv, fld_setFld (by decide) (by decide)]
  exact Nat.mod_eq_of_lt hn

/-! ### The tests of a meadow -/

section
variable {s : State} {f : Findings} {dt m c : Nat} {rest : List (Nat × Nat)}

theorem meadowTest_row (hp : fld s.boot.status 63 60 = 6) (ht : s.power.tests = (m, c) :: rest) :
    execBenchStep f dt s = .next ((s.pass dt).meadowTest f m c rest) := by
  have h4 : (s.pass dt).phase ≠ 4 := fun h => absurd ((show (s.pass dt).phase = 6 from hp).symm.trans h) (by decide)
  have h6 : (s.pass dt).phase = 6 := hp
  have ht : (s.pass dt).power.tests = (m, c) :: rest := ht
  unfold execBenchStep
  dsimp only
  rw [if_neg h4, ht]
  dsimp only
  rw [if_pos h6]

theorem meadowTest_goes (h : c ≠ 7) : (s.meadowTest f m c rest).power.tests = (m, if c = 5 then 7 else c + 1) :: rest := by
  have hrow : s.meadowTest f m c rest = { s.testStep f [m] c with power := { (s.testStep f [m] c).power with tests := (m, stepAfter true c) :: rest } } :=
    if_pos (stepAfter_pos h)
  rw [hrow]
  unfold stepAfter
  rw [if_neg h]
  rfl

/-- The state of a meadow whose tests are over, before its map change. -/
def State.tested (t : State) (w : List MapItem) (rest : List (Nat × Nat)) : State :=
  { t with power := { t.power with tests := rest }, boot := { t.boot with found := [] }, map := { t.map with waiting := w } }

theorem meadowTest_ends (h : c = 7) : (s.meadowTest f m c rest).power.tests = rest := by
  have hrow : ∃ t w, s.meadowTest f m c rest = (State.tested t w rest).mapIfIdle := by
    unfold State.meadowTest
    dsimp only
    rw [h, if_neg (by decide)]
    exact ⟨_, _, rfl⟩
  obtain ⟨t, w, hrow⟩ := hrow
  have hkeep := congrArg Power.tests (supply_mapIfIdle (t.tested w rest))
  rw [hrow]
  exact hkeep

/-! ### Soaks -/

theorem spallRows_ready (rows : List (Nat × Nat)) (k : Nat) : ((s.spallRows rows).sump k).ready = (s.sump k).ready := by
  unfold Sump.ready Sump.state
  rw [status_spallRows]

theorem pauseMask_lt {n : Nat} (h : n ≤ 8) : (if n = 8 then 0 else 2 ^ (n / 2)) < 16 := by
  split
  · decide
  · have h4 : n / 2 < 4 := by omega
    exact Nat.pow_lt_pow_right (a := 2) (by decide) h4

/-- The state in which one pause of the soaks is over (R402). -/
def State.soaked (s : State) (rows : List (Nat × Nat)) (n : Nat) : State :=
  { (s.spallRows rows).pauseGroup (if n = 8 then 0 else 2 ^ (n / 2)) with
    boot := { ((s.spallRows rows).pauseGroup (if n = 8 then 0 else 2 ^ (n / 2))).boot with soakDone := n, soaking := decide (n < 8) } }

theorem soaked_sump (rows : List (Nat × Nat)) {n k : Nat} (hn : n ≤ 8) (hk : k < 32) (hr : (s.sump k).ready = true) :
    fld ((s.soaked rows n).sump k).ref 3 0 = if n = 8 then 0 else 2 ^ (n / 2) := by
  unfold State.soaked
  rw [sump_boot, pauseGroup_sump _ _ hk]
  exact ref_paused (by rw [spallRows_ready]; exact hr) (pauseMask_lt hn)

theorem soaked_boot (rows : List (Nat × Nat)) (n : Nat) : (s.soaked rows n).boot = { s.boot with soakDone := n, soaking := decide (n < 8) } := by
  unfold State.soaked
  rw [boot_pauseGroup, boot_spallRows]

theorem retentionSoak_row {g : Fin 4} {rows : List (Stack × BitVec 21)} (h1 : s.boot.soaking = true) (h2 : s.boot.soakDone / 2 = g.val) :
    execRetentionSoak g rows s = .next (if s.boot.soakDone + 1 = 8 then
      (s.soaked (rows.map fun e => (e.1.val, e.2.toNat)) (s.boot.soakDone + 1)).modBoot fun v => setBit v 47 true
      else s.soaked (rows.map fun e => (e.1.val, e.2.toNat)) (s.boot.soakDone + 1)) :=
  congrArg _ (if_pos (by rw [h1, decide_eq_true h2]; rfl))

/-- What a soak's end shows, also after the last. -/
theorem soakEnd_spec (rows : List (Nat × Nat)) {n : Nat} (hn : n ≤ 8) (u : State)
    (hu : u = if n = 8 then (s.soaked rows n).modBoot fun v => setBit v 47 true else s.soaked rows n) : u.boot.soakDone = n
      ∧ u.boot.soaking = decide (n < 8) ∧ (n = 8 → bit u.boot.status 47 = true)
      ∧ ∀ k < 32, (s.sump k).ready = true → fld (u.sump k).ref 3 0 = if n = 8 then 0 else 2 ^ (n / 2) := by
  have hboot := soaked_boot (s := s) rows n
  have hsump := fun k hk hr => soaked_sump (s := s) rows hn (k := k) hk hr
  by_cases h8 : n = 8
  · obtain ⟨v, hv, hm⟩ := modBoot_frame (s.soaked rows n) fun v => setBit v 47 true
    rw [if_pos h8, hm] at hu
    subst hu
    refine ⟨congrArg Boot.soakDone hboot, congrArg Boot.soaking hboot, fun _ => ?_, fun k hk hr => hsump k hk hr⟩
    dsimp only
    rw [hv, bit_setBit (by decide), if_pos rfl]
  · rw [if_neg h8] at hu
    subst hu
    exact ⟨congrArg Boot.soakDone hboot, congrArg Boot.soaking hboot, fun h => absurd h h8, hsump⟩

/-! ### Recovery -/

/-- GO reports what failed (R418). -/
def State.goError (s : State) (e : Nat) : State := { s with boot := { s.boot with recCtrl := setFld s.boot.recCtrl 27 24 e } }

section
variable {r : HostRead} (hr : s.boot.recovery = true) (hz : fld s.boot.recCtrl 30 28 = 0)
include hr hz

theorem go_accepted : ¬ (¬ s.boot.recovery ∨ fld s.boot.recCtrl 30 28 ≠ 0) := by
  rintro (h | h)
  · exact h hr
  · exact h hz

theorem go_short (h : fld s.boot.recCtrl 14 0 < 8 ∨ 16384 < fld s.boot.recCtrl 14 0) : execGo r s = .next (s.goError 1) := by
  unfold execGo State.goError
  dsimp only
  rw [if_neg (go_accepted hr hz), if_pos h]

theorem go_fail {st : BitVec 4} (h : ¬ (fld s.boot.recCtrl 14 0 < 8 ∨ 16384 < fld s.boot.recCtrl 14 0)) : execGo (.fail st) s = .next (s.goError 5) := by
  unfold execGo State.goError
  dsimp only
  rw [if_neg (go_accepted hr hz), if_neg h]

theorem go_read {data : List Byte} (h : ¬ (fld s.boot.recCtrl 14 0 < 8 ∨ 16384 < fld s.boot.recCtrl 14 0))
    (hl : ¬ (data.take (1024 * fld s.boot.recCtrl 14 0)).length < 1024 * fld s.boot.recCtrl 14 0) :
    (∀ e, imageError s.nv (data.take (1024 * fld s.boot.recCtrl 14 0)) = some e → execGo (.ok data) s = .next (s.goError e))
    ∧ (imageError s.nv (data.take (1024 * fld s.boot.recCtrl 14 0)) = none → execGo (.ok data) s =
      .next (State.resetPanel { s with nv := { s.nv with image := data.take (1024 * fld s.boot.recCtrl 14 0), imageOk := true } }
        s.pins.rimGood s.pins.panelResetN true)) := by
  unfold execGo State.goError
  dsimp only
  rw [if_neg (go_accepted hr hz), if_neg h, if_neg hl]
  refine ⟨fun e he => ?_, fun he => ?_⟩
  · rw [he]
  · rw [he]

end

end

/-- Settles O42: each row is taken to the phase, the bench or the image that it is about; what follows the deciding step keeps its mark. -/
theorem bringUpRows : Obligations.BringUpRows := by
  unfold Obligations.BringUpRows
  refine ⟨?_, ?_, ?_, ?_, ?_, ?_⟩
  · intro s
    refine ⟨?_, fun h => congrArg _ ((if_pos rfl).trans (if_pos h)), fun h => congrArg _ ((if_pos rfl).trans (if_neg (by rw [h]; exact Bool.false_ne_true))),
      fun h => congrArg _ (if_pos h), fun h => congrArg _ (if_neg (by rw [h]; exact Bool.false_ne_true))⟩
    obtain ⟨h1, h2, h3, -, -, h4, h5, h6, h7, h8, h9⟩ := resetPanel_spec s s.pins.rimGood false false
    obtain ⟨h10, -, h11⟩ := resetPanel_nv s s.pins.rimGood false false
    exact ⟨_, rfl, h1, h2, h3, h4, h5, h6, h7, h8, h9, h10, h11⟩
  · rintro s u f dt ph rfl rfl
    refine ⟨fun a ha hle => ?_, fun hn h => ?_, fun hn hrun hrec => ?_⟩
    · obtain ⟨-, -, h3, h4, -, h5, -⟩ := resetPanel_spec (s.pass dt) s.pins.rimGood s.pins.panelResetN (s.pins.rimGood && s.pins.panelResetN)
      exact ⟨_, bringupPhase_reset (dueReset_due (s := s.pass dt) ha hle), h4, h5, h3⟩
    · refine (bringupPhase_none (dueReset_none (s := s.pass dt) hn)).trans (congrArg _ (if_neg ?_))
      rw [Bool.and_eq_true, Bool.not_eq_true']
      rintro ⟨h1, h2⟩
      have h1 : s.boot.running = true := h1
      have h2 : s.boot.recovery = false := h2
      rcases h with h | h
      · rw [h] at h1
        cases h1
      · rw [h] at h2
        cases h2
    · have hrow : execBringupPhase f dt s = .next ((s.pass dt).phaseEnds f) :=
        (bringupPhase_none (dueReset_none (s := s.pass dt) hn)).trans (congrArg _ (if_pos (Bool.and_eq_true _ _ ▸ ⟨hrun, (Bool.not_eq_true' _).mpr hrec⟩)))
      refine ⟨fun h => ⟨_, hrow.trans (congrArg _ (phaseEnds_fails h)), failBoot_spec (s.pass dt)⟩, fun hf => ⟨?_, ?_, ?_, ?_, ?_, ?_, ?_, ?_, ?_⟩⟩
      · exact fun hp hpart => hrow.trans (congrArg _ (phaseEnds_off (s := s.pass dt) hf hp hpart))
      · exact fun hp himg => hrow.trans (congrArg _ ((phaseEnds_verify (s := s.pass dt) hf hp).trans (verified_bad himg)))
      · exact fun hp himg => ⟨_, hrow.trans (congrArg _ (phaseEnds_verify (s := s.pass dt) hf hp)), verified_spec (s := s.pass dt) himg⟩
      · exact fun hp => ⟨_, hrow.trans (congrArg _ (phaseEnds_rim (s := s.pass dt) hf hp)), rimDone_spec (s.pass dt) f.galFails⟩
      · exact fun hp h => hrow.trans (congrArg _ ((phaseEnds_hbm (s := s.pass dt) hf hp).trans (hbmTested_waits h)))
      · exact fun hp h => ⟨_, hrow.trans (congrArg _ (phaseEnds_hbm (s := s.pass dt) hf hp)), hbmTested_spec (s := s.pass dt) h⟩
      · exact fun hp h => hrow.trans (congrArg _ (phaseEnds_benches (s := s.pass dt) hf hp h))
      · exact fun hp h => hrow.trans (congrArg _ ((phaseEnds_soaks (s := s.pass dt) hf hp).trans (if_pos h)))
      · exact fun hp h => ⟨_, hrow.trans (congrArg _ ((phaseEnds_soaks (s := s.pass dt) hf hp).trans (if_neg (Bool.eq_false_iff.mp h)))), publish_spec (s.pass dt)⟩
  · rintro s u f dt b c lit rfl hc rfl hp hb
    have hrow := (benchStep_row (f := f) (dt := dt) hp hb).trans (congrArg _ (benchStep_eq (s.pass dt) f b))
    have hboot : (s.pass dt).dropLateRequests.boot = s.boot := dropLateRequests_boot (s.pass dt)
    have hc' : fld (s.pass dt).dropLateRequests.boot.status 42 40 = c := by rw [hboot]; exact hc.symm
    refine ⟨fun h1 h => hrow.trans (congrArg _ (benchOn_waits hc' h1 h)), fun h => ?_⟩
    have hgo := hrow.trans (congrArg _ (benchOn_goes hc' h))
    refine ⟨fun hl => ⟨_, hgo.trans (congrArg _ (if_pos (by rw [hl]; rfl))), skipBench_bit _ (bench_lt hb)⟩, fun hl h7 => ?_, fun hl h7 => ?_⟩
    · exact ⟨_, hgo.trans (congrArg _ ((if_neg (mt List.isEmpty_iff.mp hl)).trans (if_pos (by rw [h7]; rfl)))), doneBench_spec _ (bench_lt hb)⟩
    · have hlt : c < 8 := by
        rw [hc]
        exact Nat.mod_lt _ (by decide)
      refine ⟨_, hgo.trans (congrArg _ ((if_neg (mt List.isEmpty_iff.mp hl)).trans (if_neg (stepAfter_pos h7)))), ?_⟩
      rw [modBoot_step _ (stepAfter_lt hlt), hboot]
  · intro s f dt m c rest hp ht
    refine ⟨_, meadowTest_row hp ht, ?_⟩
    by_cases h7 : c = 7
    · rw [if_pos h7, meadowTest_ends h7]
    · rw [if_neg h7, meadowTest_goes h7]
  · intro s g rows h1 h2
    have hlt : s.boot.soakDone + 1 ≤ 8 := by
      have := g.isLt
      omega
    obtain ⟨e1, e2, e3, e4⟩ := soakEnd_spec (s := s) (rows.map fun e => (e.1.val, e.2.toNat)) hlt _ rfl
    refine ⟨_, retentionSoak_row h1 h2, e1, e2, fun h => e3 (by omega), fun k hk hr => (e4 k hk hr).trans ?_⟩
    exact if_congr (by omega) rfl rfl
  · rintro s r len rfl hr hz
    refine ⟨fun h => go_short hr hz h, ?_, ?_⟩
    · rintro st hlo hhi rfl
      exact go_fail hr hz (st := st) (by omega)
    · rintro data hlo hhi rfl hlen
      have hfull : ¬ (data.take (1024 * fld s.boot.recCtrl 14 0)).length < 1024 * fld s.boot.recCtrl 14 0 := by
        rw [List.length_take, Nat.min_eq_left hlen]
        exact Nat.lt_irrefl _
      obtain ⟨hbad, hgood⟩ := go_read hr hz (data := data) (by omega) hfull
      refine ⟨hbad, fun h => ?_⟩
      obtain ⟨-, -, h3, h4, h5, h6, -⟩ := resetPanel_spec { s with nv := { s.nv with image := data.take (1024 * fld s.boot.recCtrl 14 0), imageOk := true } }
        s.pins.rimGood s.pins.panelResetN true
      obtain ⟨h7, h8, h9⟩ := resetPanel_nv { s with nv := { s.nv with image := data.take (1024 * fld s.boot.recCtrl 14 0), imageOk := true } }
        s.pins.rimGood s.pins.panelResetN true
      exact ⟨_, hgood h, h7, h8, h4, h5, h3, h6, h9⟩

end Sys2Proof.Machine
end

section
/-! SUPPORT. Doorbells, fetches, posts, messages and the checks of a command (R307 to R316, R319 to R322). -/

namespace Sys2Proof.Machine

/-! ### Functions and keys -/

theorem key_fn {f n : Nat} (h : n < 1024) : qpKey f n / 1024 = f := by
  unfold qpKey
  omega

theorem key_index {f n : Nat} (h : n < 1024) : qpKey f n % 1024 = n := by
  unfold qpKey
  omega

theorem fnIndex_port (port : Gal) (vf : Fin 64) : fnIndex port vf / 64 = port.val := by
  unfold fnIndex
  omega

theorem fnIndex_vf (port : Gal) (vf : Fin 64) : fnIndex port vf % 64 = vf.val := by
  unfold fnIndex
  omega

theorem get_set_same {α : Type} [DecidableEq α] (d : α) (t : Tab α) (i : Nat) (v : α) : Tab.get d (Tab.set d t i v) i = v :=
  (get_set d t i i v).trans (if_pos rfl)

theorem fn_modFn (s : State) (f j : Nat) (g : Fn → Fn) : (s.modFn f g).fn j = if j = f then g (s.fn f) else s.fn j := get_set _ _ _ _ _

theorem fn_modFn_same (s : State) (f : Nat) (g : Fn → Fn) : (s.modFn f g).fn f = g (s.fn f) := (fn_modFn s f f g).trans (if_pos rfl)

theorem qp_modFn (s : State) (f k : Nat) (g : Fn → Fn) : (s.modFn f g).qp k = s.qp k := rfl

theorem fn_setQp (s : State) (k j : Nat) (q : Option Qp) : (s.setQp k q).fn j = s.fn j := rfl

theorem qp_edge (s : State) (g n k : Nat) : (s.edge g n).qp k = s.qp k := rfl

/-! ### Events leave the rest of a queue pair and of a function -/

/-- Events that enter a function's admin queue add to what is due there. -/
theorem pumpFn_qp {s : State} {k : Nat} {q : Qp} (h : s.qp k = some q) (f : Nat) :
    ∃ due r, (s.pumpFn f).qp k = some { q with due := q.due ++ due, reserved := r } := by
  unfold State.pumpFn
  split
  · exact ⟨[], q.reserved, by rw [h, List.append_nil]⟩
  · next a ha =>
    dsimp only
    rw [qp_setQp]
    split
    case isTrue hk =>
      obtain rfl : a = q := Option.some.inj (ha.symm.trans (hk ▸ h))
      exact ⟨_, _, rfl⟩
    case isFalse => exact ⟨[], q.reserved, by rw [qp_modFn, h, List.append_nil]⟩

theorem pumpFn_fn (s : State) (f j : Nat) : ∃ e r, (s.pumpFn f).fn j = { s.fn j with events := e, reserve := r } := by
  unfold State.pumpFn
  split
  · exact ⟨_, _, rfl⟩
  · dsimp only
    rw [fn_setQp, fn_modFn]
    split
    case isTrue hj => exact ⟨_, _, by rw [hj]⟩
    case isFalse => exact ⟨_, _, rfl⟩

theorem fnEvent_qp {s : State} {k : Nat} {q : Qp} (h : s.qp k = some q) (f : Nat) (e : EventRec) :
    ∃ due r, (s.fnEvent f e).qp k = some { q with due := q.due ++ due, reserved := r } := pumpFn_qp (s := s.modFn f _) h f

theorem fnEvent_fn (s : State) (f j : Nat) (e : EventRec) : ∃ ev r, (s.fnEvent f e).fn j = { s.fn j with events := ev, reserve := r } := by
  unfold State.fnEvent
  obtain ⟨ev, r, h⟩ := pumpFn_fn (s.modFn f fun x => let (a, b) := evJoin x.events x.reserve e; { x with events := a, reserve := b }) f j
  refine ⟨ev, r, h.trans ?_⟩
  rw [fn_modFn]
  split
  case isTrue hj => rw [hj]
  case isFalse => rfl

/-! ### Errors of queue pairs (R311) -/

theorem modQp_some {s : State} {k : Nat} {q : Qp} (h : s.qp k = some q) (g : Qp → Qp) : s.modQp k g = s.setQp k (some (g q)) := by
  unfold State.modQp
  rw [h]

/-- FN_ERR after an error of a queue pair. -/
def errWord (e : BitVec 32) (n kind : Nat) : BitVec 32 := setFld (setFld (setBit e 31 true) 30 29 kind) 25 16 n

theorem errWord_fields (e : BitVec 32) {n kind : Nat} (hn : n < 1024) (hkind : kind < 4) :
    bit (errWord e n kind) 31 = true ∧ fld (errWord e n kind) 30 29 = kind ∧ fld (errWord e n kind) 25 16 = n := by
  unfold errWord
  refine ⟨?_, ?_, ?_⟩
  · rw [bit_setFld_ne (by decide) (by decide) (by decide), bit_setFld_ne (by decide) (by decide) (by decide), bit_setBit (by decide), if_pos rfl]
  · rw [fld_setFld_ne (by decide) (by decide) (by decide), fld_setFld (by decide) (by decide)]
    exact Nat.mod_eq_of_lt hkind
  · rw [fld_setFld (by decide) (by decide)]
    exact Nat.mod_eq_of_lt hn

/-- A queue pair in ERROR keeps its place in both queues and what is due; its function shows the error. -/
theorem queueError_spec {s : State} {f n : Nat} {q : Qp} (hn : n < 1024) (h : s.qp (qpKey f n) = some q) (kind : Nat) :
    (∃ due r, (s.queueError (qpKey f n) kind).qp (qpKey f n) = some { q with error := true, due := q.due ++ due, reserved := r })
    ∧ ((s.queueError (qpKey f n) kind).fn f).err = errWord (s.fn f).err n kind := by
  unfold State.queueError
  dsimp only
  rw [key_fn hn, key_index hn, modQp_some h]
  refine ⟨?_, ?_⟩
  · refine fnEvent_qp (q := { q with error := true }) ?_ f _
    rw [qp_modFn, qp_setQp, if_pos rfl]
  · obtain ⟨ev, r, he⟩ := fnEvent_fn ((s.setQp (qpKey f n) (some { q with error := true })).modFn f fun x => { x with err := errWord x.err n kind })
      f f (event 0x82 (n * 2 ^ 16 + kind) 0)
    refine (congrArg Fn.err he).trans ?_
    rw [fn_modFn_same, fn_setQp]

/-- What the statements say of an error: the queue pair's, and FN_ERR's fields. -/
theorem queueError_shown {s : State} {f n kind : Nat} {q : Qp} (hn : n < 1024) (h : s.qp (qpKey f n) = some q) (hkind : kind < 4) :
    (∃ p, (s.queueError (qpKey f n) kind).qp (qpKey f n) = some p ∧ p.error = true ∧ p.sqTail = q.sqTail ∧ ∀ r ∈ q.due, r ∈ p.due)
    ∧ bit ((s.queueError (qpKey f n) kind).fn f).err 31 = true ∧ fld ((s.queueError (qpKey f n) kind).fn f).err 30 29 = kind
    ∧ fld ((s.queueError (qpKey f n) kind).fn f).err 25 16 = n := by
  obtain ⟨⟨due, r, hqp⟩, herr⟩ := queueError_spec hn h kind
  rw [herr]
  exact ⟨⟨_, hqp, rfl, rfl, fun _ => List.mem_append_left due⟩, errWord_fields _ hn hkind⟩

/-! ### Doorbells (R308) -/

section
variable {s : State} {f n port x : Nat} (hn : n < 1024) (hp : f / 64 = port)
include hn hp

theorem sqBell_absent (h : s.qp (qpKey f n) = none) :
    s.sqBell (qpKey f n) x = (s.edge port 256).modFn f fun x => { x with err := satFld x.err 15 0 1 } := by
  unfold State.sqBell
  dsimp only
  rw [key_fn hn, hp, qp_edge, h]
  rfl

theorem sqBell_present {q : Qp} (h : s.qp (qpKey f n) = some q) : s.sqBell (qpKey f n) x =
    if x = q.sqTail then s.edge port 256 else if q.sqDepth ≤ x then (s.edge port 256).queueError (qpKey f n) 0
    else (s.edge port 256).setQp (qpKey f n) (some { q with sqTail := x }) := by
  unfold State.sqBell
  dsimp only
  rw [key_fn hn, hp, qp_edge, h]

theorem cqBell_absent (h : s.qp (qpKey f n) = none) :
    s.cqBell (qpKey f n) x = (s.edge port 257).modFn f fun x => { x with err := satFld x.err 15 0 1 } := by
  unfold State.cqBell
  dsimp only
  rw [key_fn hn, hp, qp_edge, h]
  rfl

theorem cqBell_present {q : Qp} (h : s.qp (qpKey f n) = some q) : s.cqBell (qpKey f n) x =
    if x = q.cqHead then s.edge port 257
    else if q.cqDepth ≤ x ∨ ringUsed q.cqDepth q.cqHead q.cqTail < ringUsed q.cqDepth q.cqHead x then (s.edge port 257).queueError (qpKey f n) 1
    else ((s.edge port 257).setQp (qpKey f n) (some { q with cqHead := x })).pumpQp (qpKey f n) := by
  unfold State.cqBell
  dsimp only
  rw [key_fn hn, hp, qp_edge, h]

end

/-! ### Fetch and post (R309, R310) -/

section
variable {s : State} {port : Gal} {vf : Fin 64} {qp : Fin 1024} {q : Qp}

theorem sqFetch_idle (h : s.qp (qpKey (fnIndex port vf) qp.val) = some q) (hf : s.mayFetch (qpKey (fnIndex port vf) qp.val) q = false) (r : HostRead) :
    execSqFetch port vf qp r s = .next s := by
  unfold execSqFetch
  dsimp only
  rw [h]
  dsimp only
  rw [hf]
  rfl

theorem sqFetch_fail (h : s.qp (qpKey (fnIndex port vf) qp.val) = some q) (hf : s.mayFetch (qpKey (fnIndex port vf) qp.val) q = true) (st : BitVec 4) :
    execSqFetch port vf qp (.fail st) s = .next (s.queueError (qpKey (fnIndex port vf) qp.val) 2) := by
  unfold execSqFetch
  dsimp only
  rw [h]
  dsimp only
  rw [hf]
  rfl

theorem sqFetch_read (h : s.qp (qpKey (fnIndex port vf) qp.val) = some q) (hf : s.mayFetch (qpKey (fnIndex port vf) qp.val) q = true) (data : List Byte)
    {n : Nat} (hn : n = if bit (descOf data none).w0 48 then 2 else 1) (hroom : n ≤ ringUsed q.sqDepth q.sqHead q.sqTail) :
    execSqFetch port vf qp (.ok data) s = .next
      ((s.setQp (qpKey (fnIndex port vf) qp.val) (some { q with sqHead := (q.sqHead + n) % q.sqDepth, reserved := q.reserved + 1 })).acceptCmd
        { src := .queue port vf qp, desc := descOf (data.take 64) (if bit (descOf data none).w0 48 then some ((data.drop 64).take 64) else none) }) := by
  subst hn
  unfold execSqFetch
  dsimp only
  rw [h]
  dsimp only
  rw [hf, if_neg (by decide), if_neg (Nat.not_lt.mpr hroom)]

theorem cqPost_idle (h : s.qp (qpKey (fnIndex port vf) qp.val) = some q) (hd : q.due = []) (ok : Bool) : execCqPost port vf qp ok s = .next s := by
  unfold execCqPost
  dsimp only
  rw [h]
  dsimp only
  rw [hd]

/-- The queue pair after its oldest record has been written (R310). -/
def Qp.posted (q : Qp) (rest : List Rec) : Qp :=
  { q with due := rest, reserved := q.reserved - 1, cqTail := (q.cqTail + 1) % q.cqDepth,
           phase := if (q.cqTail + 1) % q.cqDepth = 0 then !q.phase else q.phase }

/-- The state in which the record `r` of a queue pair has been written (R310). -/
def State.posted (s : State) (port : Gal) (vf : Fin 64) (qp : Fin 1024) (q : Qp) (r : Rec) (rest : List Rec) : State :=
  let t := s.setQp (qpKey (fnIndex port vf) qp.val) (some (q.posted rest))
  { t with host := { t.host with
      out := s.host.out ++ [HostOut.write port.val vf.val (q.cqBase + BitVec.ofNat 48 (32 * q.cqTail)) (r.bytes q.sqHead qp.val q.phase)] } }

variable {r : Rec} {rest : List Rec}

theorem cqPost_due (h : s.qp (qpKey (fnIndex port vf) qp.val) = some q) (hd : q.due = r :: rest) (hl : s.fnLive (fnIndex port vf) = true) (ok : Bool) :
    execCqPost port vf qp ok s = .next (if !ok then s.queueError (qpKey (fnIndex port vf) qp.val) 3
      else ((State.coalesce (if r.opcode = 0x36 && r.status = 0 then { s.posted port vf qp q r rest with
          boot := { (s.posted port vf qp q r rest).boot with resetAt := some ((s.posted port vf qp q r rest).tclk + 1000000) } }
          else s.posted port vf qp q r rest) (qpKey (fnIndex port vf) qp.val)).answerAborts).closeStep) := by
  unfold execCqPost
  dsimp only
  rw [h]
  dsimp only
  rw [hd]
  dsimp only
  rw [key_fn qp.isLt, hl]
  rfl

end

/-! ### The checks of a command (R320) -/

section
variable {s t : State} {c : Cmd} (ht : t = { s with host := { s.host with inProg := s.host.inProg ++ [c] } })
include ht

theorem checkCmd_opcode (h : c.op ∉ opcodes) : s.checkCmd c = t.completeSt c 0x03 := by
  subst ht
  refine if_pos ?_
  rw [Bool.not_eq_true', ← Bool.not_eq_true, List.contains_iff_mem]
  exact h

theorem checkCmd_permitted (h : c.op ∈ opcodes) : s.checkCmd c = if !t.permitted c then t.completeSt c 0x05
    else if t.fnState ≠ 1 && c.op ≠ 0x40 && c.op ≠ 0x48 then t.completeSt c 0x02
    else (t.recovery c).getD (if !t.fieldsOk c then t.completeSt c 0x04
      else if !t.ctxOk c then t.completeSt c 0x06
      else if !t.unfenced c then t.completeSt c 0x30
      else { t.logStep c with host := { (t.logStep c).host with toDo := (t.logStep c).host.toDo ++ [c] } }) := by
  subst ht
  unfold State.checkCmd
  dsimp only
  rw [List.contains_iff_mem.mpr h, if_neg (by decide)]
  congr 2
  cases State.recovery _ c <;> rfl

end

theorem recovery_unpaired {c : Cmd} (h : c.paired = false) (t : State) : t.recovery c = none := if_pos (by rw [h]; rfl)

theorem logStep_unpaired {c : Cmd} (h : c.paired = false) (t : State) : t.logStep c = t := if_pos (by rw [h]; rfl)

/-! ### MSI-X and the admin queue (R307, R315, R316) -/

/-- Unmasking sends what is pending (R316). -/
theorem maskVector_sends {s : State} {f v : Nat} (hm : (s.fn f).fnMask = false) (hp : Tab.get false (s.fn f).pendBit v = true) :
    (s.maskVector f v false).host.out = s.host.out ++ [HostOut.msix (f / 64) (f % 64) v]
    ∧ Tab.get false ((s.maskVector f v false).fn f).pendBit v = false ∧ Tab.get true ((s.maskVector f v false).fn f).mask v = false := by
  have hfn : ((s.modFn f fun x => { x with mask := Tab.set true x.mask v false }).modFn f fun x => { x with pendBit := Tab.set false x.pendBit v false }).fn f
      = { s.fn f with mask := Tab.set true (s.fn f).mask v false, pendBit := Tab.set false (s.fn f).pendBit v false } := by
    rw [fn_modFn_same, fn_modFn_same]
  have hsent : s.maskVector f v false =
      { ((s.modFn f fun x => { x with mask := Tab.set true x.mask v false }).modFn f fun x => { x with pendBit := Tab.set false x.pendBit v false }) with
        host := { ((s.modFn f fun x => { x with mask := Tab.set true x.mask v false }).modFn f
          fun x => { x with pendBit := Tab.set false x.pendBit v false }).host with out := s.host.out ++ [HostOut.msix (f / 64) (f % 64) v] } } := by
    refine (if_pos ?_).trans (if_neg ?_)
    · rw [fn_modFn_same, hm, hp]
      rfl
    · rw [hfn]
      dsimp only
      rw [hm, get_set, if_pos rfl]
      decide
  rw [hsent]
  refine ⟨rfl, ?_, ?_⟩
  · exact (congrArg (fun x : Fn => Tab.get false x.pendBit v) hfn).trans (get_set_same false (s.fn f).pendBit v false)
  · exact (congrArg (fun x : Fn => Tab.get true x.mask v) hfn).trans (get_set_same true (s.fn f).mask v false)

theorem maskVector_quiet {s : State} {f v : Nat} (h : (s.fn f).fnMask = true ∨ Tab.get false (s.fn f).pendBit v = false) :
    s.maskVector f v false = s.modFn f fun x => { x with mask := Tab.set true x.mask v false } := by
  refine if_neg ?_
  rw [fn_modFn_same]
  dsimp only
  rcases h with h | h <;> rw [h] <;> simp

theorem enableAq_refused {s : State} {f : Nat} (h : s.hasIo f = true ∨ bit (s.fn f).aqCfg 31 = true ∨ fld (s.fn f).aqCfg 11 0 = 0
    ∨ fld (s.fn f).aqCfg 27 16 = 0) : s.enableAq f = s := by
  refine if_pos ?_
  rw [Bool.or_eq_true, Bool.or_eq_true, Bool.or_eq_true, decide_eq_true_eq, decide_eq_true_eq, or_assoc, or_assoc]
  exact h

/-- An admin queue pair as AQ_ENABLE makes it (R307). -/
def Fn.adminQp (x : Fn) : Qp :=
  { ctx := 0, sqBase := x.asqBase.setWidth 48, cqBase := x.acqBase.setWidth 48, sqDepth := fld x.aqCfg 11 0 + 1, cqDepth := fld x.aqCfg 27 16 + 1,
    sqHead := 0, sqTail := 0, cqHead := 0, cqTail := 0, phase := true, vector := 0, ien := true, thresh := 0, time := 0, unsig := 0, unsigAt := 0,
    error := false, reserved := 0, deleting := false, due := [], deleter := [] }

theorem enableAq_made {s : State} {f : Nat} (h1 : s.hasIo f = false) (h2 : bit (s.fn f).aqCfg 31 = false) (h3 : fld (s.fn f).aqCfg 11 0 ≠ 0)
    (h4 : fld (s.fn f).aqCfg 27 16 ≠ 0) : ∃ due r, (s.enableAq f).qp (qpKey f 0) = some { (s.fn f).adminQp with due := due, reserved := r } := by
  have hmade : s.enableAq f =
      ((s.modFn f fun x => { x with aqCfg := setFld x.aqCfg 31 30 3 }).setQp (qpKey f 0) (some (s.fn f).adminQp)).pumpFn f := by
    refine if_neg ?_
    rw [h1, h2, decide_eq_false h3, decide_eq_false h4]
    decide
  obtain ⟨due, r, h⟩ := pumpFn_qp (s := (s.modFn f fun x => { x with aqCfg := setFld x.aqCfg 31 30 3 }).setQp (qpKey f 0) (some (s.fn f).adminQp))
    (k := qpKey f 0) (q := (s.fn f).adminQp) (by rw [qp_setQp, if_pos rfl]) f
  rw [hmade]
  exact ⟨_, _, h⟩

end Sys2Proof.Machine
end

section
/-! SUPPORT. Resets of functions and ports: what ends with them, and what stays gone (R291, R293, R298, R305, R312). -/

namespace Sys2Proof.Machine

/-! ### What ending commands, passes and contexts never does -/

/-- Whether a port's link is up and its VFs are enabled. -/
def Gallery.links (x : Gallery) : Bool × Bool := (x.linkUp, x.vfsOn)

/-- From `s` to `t` no queue pair comes back, no function's registers change, and the ports keep their links and VFs. -/
structure State.Calm (s t : State) : Prop where
  gone  : ∀ k, s.qp k = none → t.qp k = none
  fns   : t.host.fns = s.host.fns
  links : ∀ g, (t.gal g).links = (s.gal g).links

theorem State.Calm.refl (s : State) : s.Calm s := ⟨fun _ => id, rfl, fun _ => rfl⟩

theorem State.Calm.trans {s t u : State} (h : s.Calm t) (h' : t.Calm u) : s.Calm u where
  gone k hk := h'.gone k (h.gone k hk)
  fns := h'.fns.trans h.fns
  links g := (h'.links g).trans (h.links g)

/-- The same, from the last change back. -/
theorem State.Calm.after {s t u : State} (h' : t.Calm u) (h : s.Calm t) : s.Calm u := h.trans h'

theorem calm_foldl {α : Type} {f : State → α → State} (h : ∀ (s : State) a, s.Calm (f s a)) (l : List α) (s : State) : s.Calm (l.foldl f s) :=
  foldl_keeps (State.Calm s) (fun t a ht => ht.trans (h t a)) l s (.refl s)

theorem calm_of_same {s t : State} (hq : t.host.qps = s.host.qps) (hf : t.host.fns = s.host.fns) (hg : t.gals = s.gals) : s.Calm t where
  gone k hk := by rw [State.qp, hq]; exact hk
  fns := hf
  links g := by rw [State.gal, hg]; rfl

theorem calm_of_host {s t : State} (hh : t.host = s.host) (hg : t.gals = s.gals) : s.Calm t :=
  calm_of_same (congrArg HostSide.qps hh) (congrArg HostSide.fns hh) hg

section
variable (s : State)

theorem calm_setQp_none (k : Nat) : s.Calm (s.setQp k none) where
  gone j hj := by
    rw [qp_setQp]
    split
    · rfl
    · exact hj
  fns := rfl
  links _ := rfl

theorem calm_modQp (k : Nat) (g : Qp → Qp) : s.Calm (s.modQp k g) := by
  unfold State.modQp
  split
  · next q hq =>
    refine ⟨fun j hj => ?_, rfl, fun _ => rfl⟩
    rw [qp_setQp]
    split
    · next hjk =>
      rw [hjk, hq] at hj
      cases hj
    · exact hj
  · exact .refl s

theorem calm_emit (src : Src) (r : Rec) : s.Calm (s.emit src r) := by
  unfold State.emit
  split
  · exact calm_modQp s _ _
  · exact calm_of_same rfl rfl rfl

theorem calm_drop (c : Cmd) : s.Calm (s.drop c) := calm_of_same rfl rfl rfl

theorem calm_logFinal (c : Cmd) (r : Rec) : s.Calm (s.logFinal c r) := by
  unfold State.logFinal
  split
  · exact .refl s
  · dsimp only
    refine State.Calm.after (calm_foldl (fun t w => (calm_drop t w).trans (calm_emit _ _ _)) _ _) ?_
    exact calm_of_same rfl rfl rfl

theorem calm_complete0 (c : Cmd) (r : Rec) : s.Calm (s.complete0 c r) := by
  unfold State.complete0
  split
  · exact ((calm_drop s c).trans (calm_emit _ _ _)).trans (calm_logFinal _ _ _)
  · exact .refl s

theorem calm_finishDelete (k : Nat) : s.Calm (s.finishDelete k) := by
  unfold State.finishDelete
  split
  · exact .refl s
  · split
    · exact (calm_setQp_none s k).trans (calm_foldl (fun t c => calm_complete0 t c _) _ _)
    · exact .refl s

theorem calm_complete (c : Cmd) (r : Rec) : s.Calm (s.complete c r) := by
  unfold State.complete
  dsimp only
  split
  · exact (calm_complete0 s c r).trans (calm_finishDelete _ _)
  · exact calm_complete0 s c r

theorem calm_completeAll (cs : List Cmd) (st : Nat) : s.Calm (s.completeAll cs st) := calm_foldl (fun t c => calm_complete t c _) cs s

theorem calm_cancelChain (src : Src) (after : Option QPass) : s.Calm (s.cancelChain src after) := by
  unfold State.cancelChain
  dsimp only
  refine State.Calm.after (calm_foldl (fun t q => calm_complete t _ _) _ _) ?_
  cases after <;> dsimp only <;> split <;> exact calm_of_same rfl rfl rfl

theorem calm_endUnlaunched (q : QPass) (st : Nat) : s.Calm (s.endUnlaunched q st) :=
  ((calm_complete s q.cmd (s.unlaunchedRec q st)).trans (calm_cancelChain _ _ _)).trans (calm_of_same rfl rfl rfl)

theorem calm_modCtx (n : Nat) (g : Ctx → Ctx) : s.Calm (s.modCtx n g) := by
  unfold State.modCtx
  split
  · exact calm_of_same rfl rfl rfl
  · exact .refl s

theorem gals_mapCores (f : Nat → Core → Core) : (s.mapCores f).gals = s.gals :=
  view_foldl State.gals (f := fun t p => t.modCore p (f p)) (fun _ _ => rfl) _ _

theorem gals_mapSetts (f : Nat → Sett → Sett) : (s.mapSetts f).gals = s.gals :=
  view_foldl State.gals (f := fun t p => t.modSett p (f p)) (fun _ _ => rfl) _ _

theorem calm_unregister (h : Nat) : s.Calm (s.unregister h) :=
  calm_of_host (host_release s h) ((gals_mapSetts _ _).trans (gals_mapCores _ _))

theorem calm_dropRegions (n : Nat) : s.Calm (s.dropRegions n) :=
  calm_foldl (f := fun t i => t.modSump i fun x =>
    let x := if s.unlocking then x.wipe n else x
    { x with regions := x.regions.filter (fun e => fld e.2 57 48 ≠ n), fills := x.fills.filter fun f => fld f.entry 57 48 ≠ n })
    (fun _ _ => calm_of_same rfl rfl rfl) _ s

theorem calm_tryClose (n : Nat) : s.Calm (s.tryClose n) := by
  unfold State.tryClose
  split
  · exact .refl s
  · split
    · dsimp only
      have hdropped := fun hs => (calm_foldl (f := State.unregister) calm_unregister hs s).trans (calm_dropRegions _ n)
      have hqps := fun ks u => calm_foldl (f := fun t i => State.setQp t i none) calm_setQp_none ks u
      exact (((hdropped _).trans (hqps _ _)).trans (calm_of_same (t := State.setCtx _ n none) rfl rfl rfl)).trans (calm_completeAll _ _ _)
    · exact .refl s

theorem calm_closeStep : s.Calm s.closeStep := calm_foldl calm_tryClose _ s

/-! ### Aborts -/

theorem links_edge (g n h : Nat) : ((s.edge g n).gal h).links = (s.gal h).links := by
  rw [State.edge, gal_modGal]
  split
  case isFalse => rfl
  case isTrue hh =>
    subst hh
    unfold Gallery.edge
    split
    case isFalse => rfl
    case isTrue =>
      dsimp only
      split <;> obtain ⟨st, hw⟩ := wakeMc_frame _ n <;> rw [hw] <;> rfl

theorem calm_edge (g n : Nat) : s.Calm (s.edge g n) := ⟨fun _ => id, rfl, links_edge s g n⟩

theorem calm_checkQuiesced : s.Calm s.checkQuiesced := by
  obtain ⟨st, h⟩ := checkQuiesced_frame s
  rw [h]
  exact calm_of_same rfl rfl rfl

theorem calm_recordAbort (reason : Nat) : s.Calm (s.recordAbort reason []) := by
  unfold State.recordAbort
  dsimp only
  split
  · exact calm_of_same rfl rfl rfl
  case h_2 | h_3 => exact .after (calm_checkQuiesced (State.edge _ 0 592)) (.after (calm_edge _ 0 592) (calm_of_same rfl rfl rfl))
  · refine State.Calm.after (calm_checkQuiesced { s with ledger := _ }) ?_
    exact calm_of_same rfl rfl rfl
  · exact calm_of_same rfl rfl rfl

/-! ### Closing a context -/

theorem calm_answerLoads (cs : List Cmd) (host : Bool) (h st ready bytes : Nat) : s.Calm (s.answerLoads cs host h st ready bytes) :=
  calm_foldl (fun t c => calm_complete t c _) cs s

theorem calm_dropLoad (l : Load) : s.Calm (s.dropLoad l) := by
  unfold State.dropLoad
  exact calm_foldl (fun t (e : Nat × Nat) => calm_of_same (t := t.modCore e.2 _) rfl rfl rfl) _ s

theorem calm_fill (f : Fill) : s.Calm { s with fill := f } := calm_of_same rfl rfl rfl

theorem calm_closeLoads (n : Nat) : s.Calm (s.closeLoads n) := by
  have hqueue := fun (l : List LoadReq) (f : Fill) => (calm_fill s f).trans
    (calm_foldl (f := fun t q => t.answerLoads q.cmds q.host.isSome q.handle.toNat 0x06 0 0) (fun t q => calm_answerLoads t _ _ _ _ _ _) l _)
  unfold State.closeLoads
  dsimp only
  split
  · split
    · refine .after (calm_fill _ _) (.after (calm_answerLoads _ _ _ _ _ _ _) (.after (calm_dropLoad _ _) ?_))
      exact hqueue _ _
    · exact hqueue _ _
  · exact hqueue _ _

theorem calm_ite {p : Prop} [Decidable p] {t u : State} (ht : s.Calm t) (hu : s.Calm u) : s.Calm (if p then t else u) := by
  split
  · exact ht
  · exact hu

theorem calm_startClose (n : Nat) : s.Calm (s.startClose n) := by
  have hended := fun (l : List QPass) (u : State) => calm_foldl (f := fun t q => t.endUnlaunched q 0x06) (fun t q => calm_endUnlaunched t q _) l u
  unfold State.startClose
  dsimp only
  refine State.Calm.trans ?_ (calm_closeLoads _ n)
  have hclosing := (calm_modCtx s n fun c => { c with closing := true })
  have habort := fun (p : Prop) (_ : Decidable p) => hclosing.trans (calm_ite (p := p) _ (calm_recordAbort _ abClosed) (.refl _))
  have hqueued := fun p d l => (habort p d).trans (hended l _)
  split
  · split
    · exact (hqueued _ _ _).trans (calm_endUnlaunched _ _ _)
    · exact hqueued _ _ _
  · exact hqueued _ _ _

/-! ### Host requests and queue pairs -/

theorem calm_send (ks : List Packet) : s.Calm (s.send ks) := calm_of_same rfl rfl rfl

theorem calm_flushed (port id : Nat) : s.Calm (s.flushed port id) := by
  unfold State.flushed
  dsimp only
  refine State.Calm.after (calm_foldl (fun t x => calm_complete t _ _) _ _) ?_
  exact calm_of_same rfl rfl rfl

theorem calm_endRequest (r : HostReq) (st : BitVec 4) (data : List Byte) : s.Calm (s.endRequest r st data) := by
  unfold State.endRequest
  dsimp only
  split
  · refine State.Calm.after (calm_send { s with host := _ } _) ?_
    exact calm_of_same rfl rfl rfl
  · refine State.Calm.after (calm_flushed _ _ _) ?_
    exact calm_of_same rfl rfl rfl

theorem calm_endRequests (port : Nat) (p : HostReq → Bool) (st : BitVec 4) : s.Calm (s.endRequests port p st) :=
  calm_foldl (fun t r => calm_endRequest t r _ _) _ s

/-- The state in which what was queued from a pair has ended, and no context uses the pair for its events. -/
def State.emptied (s : State) (k : Nat) : State :=
  let t := (s.sched.queue.filter fun q => q.cmd.src.key = some k).foldl (fun t q => t.endUnlaunched q 0x0C) s
  let t := { t with sched := { t.sched with chains := t.sched.chains.filter fun e => e.1.key ≠ some k } }
  t.openCtxs.foldl (fun t n => t.modCtx n fun c => if c.evq = some k then { c with evq := none } else c) t

theorem killQp_eq (k : Nat) : s.killQp k = (s.emptied k).setQp k none := rfl

theorem calm_killQp (k : Nat) : s.Calm (s.killQp k) := by
  rw [killQp_eq, State.emptied]
  dsimp only
  refine .after (calm_setQp_none _ k) (.after (calm_foldl (fun t n => calm_modCtx t n _) _ _) ?_)
  refine State.Calm.after ?_ (calm_foldl (f := fun t q => t.endUnlaunched q 0x0C) (fun t q => calm_endUnlaunched t q _)
    (s.sched.queue.filter fun q => q.cmd.src.key = some k) s)
  exact calm_of_same rfl rfl rfl

theorem killQp_gone (k : Nat) : (s.killQp k).qp k = none := by
  rw [killQp_eq, qp_setQp, if_pos rfl]

theorem calm_detach (n f : Nat) : s.Calm (s.detach n f) :=
  ((calm_foldl calm_killQp _ s).trans (calm_endRequests _ _ _ _)).trans (calm_modCtx _ _ _)

/-- Every queue pair of a list is gone once each of the list has been killed. -/
theorem foldl_killQp_gone {k : Nat} (ks : List Nat) (h : k ∈ ks ∨ s.qp k = none) : (ks.foldl State.killQp s).qp k = none := by
  induction ks generalizing s with
  | nil => exact h.resolve_left List.not_mem_nil
  | cons j ks ih =>
    refine ih (s.killQp j) ?_
    rcases h with h | h
    · rcases List.mem_cons.mp h with rfl | h
      · exact .inr (killQp_gone s k)
      · exact .inl h
    · exact .inr ((calm_killQp s j).gone k h)

/-! ### FLR -/

/-- The contexts of a function close, or lose it (R298, R305). -/
def State.unbound (s : State) (f : Nat) : State :=
  let t := (s.openCtxs.filter fun n => (s.ctx n).any fun c => c.home = f && !c.closing).foldl State.startClose s
  (t.openCtxs.filter fun n => (t.ctx n).any fun c => c.home ≠ f && c.bound.contains f).foldl (fun t n => t.detach n f) t

/-- A function's registers after an FLR, but for its admin queue's. -/
def Fn.reset1 (x : Fn) : Fn := { x with mask := [], pendBit := [], msgAddr := [], msgData := [], fnMask := false, d3hot := false }

/-- A function's registers with the admin queue disabled. -/
def Fn.adminOff (x : Fn) : Fn := { x with aqCfg := setFld x.aqCfg 31 30 0 }

theorem disableAq_eq (f : Nat) : s.disableAq f = (s.modFn f Fn.adminOff).setQp (qpKey f 0) none := rfl

theorem flr1_eq (f : Nat) : s.flr1 f =
    ((((s.unbound f).host.qps.map Prod.fst).filter fun k => k / 1024 = f).foldl State.killQp (s.unbound f) |>.disableAq f).modFn f Fn.reset1 := rfl

theorem calm_unbound (f : Nat) : s.Calm (s.unbound f) :=
  (calm_foldl calm_startClose _ s).trans (calm_foldl (fun t n => calm_detach t n f) _ _)

end

/-- The registers of a function that has had an FLR (R298). -/
structure Fn.Cleared (x : Fn) : Prop where
  d3hot   : x.d3hot = false
  mask    : x.mask = []
  pendBit : x.pendBit = []
  admin   : bit x.aqCfg 31 = false

theorem reset1_cleared (x : Fn) : (Fn.reset1 x.adminOff).Cleared :=
  ⟨rfl, rfl, rfl, (bit_setFld (by decide) (by decide) 31).trans (if_pos (by decide))⟩

/-- What an FLR of a function leaves of it (R298). -/
structure State.FlrDone (f : Nat) (s : State) : Prop where
  gone    : ∀ q < 1024, s.qp (qpKey f q) = none
  cleared : (s.fn f).Cleared

theorem State.FlrDone.of_calm {f : Nat} {s t : State} (h : s.FlrDone f) (hc : s.Calm t) : t.FlrDone f where
  gone q hq := hc.gone _ (h.gone q hq)
  cleared := by
    rw [State.fn, hc.fns]
    exact h.cleared

/-! The last steps of an FLR change the function's registers by `g` and `h` and take its admin queue away. -/

section
variable (s : State) (f : Nat) (g h : Fn → Fn)

theorem flrEnd_qp (k : Nat) : (((s.modFn f g).setQp (qpKey f 0) none).modFn f h).qp k = if k = qpKey f 0 then none else s.qp k := by
  rw [qp_modFn, qp_setQp, qp_modFn]

theorem flrEnd_fn (j : Nat) : (((s.modFn f g).setQp (qpKey f 0) none).modFn f h).fn j = if j = f then h (g (s.fn f)) else s.fn j := by
  rw [fn_modFn, fn_setQp, fn_setQp, fn_modFn_same, fn_modFn]
  split <;> rfl

theorem flrEnd_gal (j : Nat) : (((s.modFn f g).setQp (qpKey f 0) none).modFn f h).gal j = s.gal j := rfl

end

theorem flr1_done (s : State) (f : Nat) : (s.flr1 f).FlrDone f := by
  rw [flr1_eq, disableAq_eq]
  refine ⟨fun q hq => ?_, ?_⟩
  · rw [flrEnd_qp]
    split
    · rfl
    · refine foldl_killQp_gone _ _ ?_
      by_cases hk : qpKey f q ∈ (s.unbound f).host.qps.map Prod.fst
      · exact .inl (List.mem_filter.mpr ⟨hk, decide_eq_true (key_fn hq)⟩)
      · exact .inr (get_of_not_mem hk)
  · rw [flrEnd_fn, if_pos rfl]
    exact reset1_cleared _

theorem flr1_keeps {s : State} {f g : Nat} (h : s.FlrDone g) : (s.flr1 f).FlrDone g := by
  by_cases hg : g = f
  · rw [hg]
    exact flr1_done s f
  · obtain ⟨hgone, hclear⟩ := h.of_calm ((calm_unbound s f).trans (calm_foldl calm_killQp
      (((s.unbound f).host.qps.map Prod.fst).filter fun k => k / 1024 = f) _))
    rw [flr1_eq, disableAq_eq]
    refine ⟨fun q hq => ?_, ?_⟩
    · rw [flrEnd_qp]
      split
      · rfl
      · exact hgone q hq
    · rw [flrEnd_fn, if_neg hg]
      exact hclear

theorem links_flr1 (s : State) (f g : Nat) : ((s.flr1 f).gal g).links = (s.gal g).links := by
  have hcalm := (calm_unbound s f).trans (calm_foldl calm_killQp (((s.unbound f).host.qps.map Prod.fst).filter fun k => k / 1024 = f) _)
  rw [flr1_eq, disableAq_eq, flrEnd_gal]
  exact hcalm.links g

/-- Every function of a list is done once each has had its FLR. -/
theorem foldl_flr1_done {g : Nat} (fs : List Nat) (p : Nat) {v : Nat} (hg : g = 64 * p + v) (s : State) (h : v ∈ fs ∨ s.FlrDone g) :
    (fs.foldl (fun t v => t.flr1 (64 * p + v)) s).FlrDone g := by
  induction fs generalizing s with
  | nil => exact h.resolve_left List.not_mem_nil
  | cons j fs ih =>
    refine ih (s.flr1 (64 * p + j)) ?_
    rcases h with h | h
    · rcases List.mem_cons.mp h with rfl | h
      · exact .inr (hg ▸ flr1_done s _)
      · exact .inl h
    · exact .inr (flr1_keeps h)

theorem links_foldl_flr1 (fs : List Nat) (p g : Nat) (s : State) : ((fs.foldl (fun t v => t.flr1 (64 * p + v)) s).gal g).links = (s.gal g).links :=
  view_foldl (fun t => (t.gal g).links) (f := fun t v => t.flr1 (64 * p + v)) (fun t v => links_flr1 t _ g) fs s

theorem flr_done (s : State) {port vf v : Nat} (hv : v < 64) (h : v = vf ∨ vf = 0) : (s.flr port vf).FlrDone (64 * port + v) := by
  unfold State.flr
  split
  · exact (foldl_flr1_done _ port rfl s (.inl (List.mem_range.mpr hv))).of_calm (calm_closeStep _)
  · next hz =>
    rw [h.resolve_right hz]
    exact (flr1_done s _).of_calm (calm_closeStep _)

theorem links_flr (s : State) (port vf g : Nat) : ((s.flr port vf).gal g).links = (s.gal g).links := by
  unfold State.flr
  split
  · exact ((calm_closeStep _).links g).trans (links_foldl_flr1 _ _ _ _)
  · exact ((calm_closeStep _).links g).trans (links_flr1 _ _ _)

end Sys2Proof.Machine
end

section
/-! SUPPORT. Ports, functions, queues and host requests, row by row (R290 to R301, R307 to R316, R319 to R322). -/

namespace Sys2Proof.Machine

theorem msixTimeout_row {s : State} {port : Gal} {vf : Fin 64} {qp : Fin 1024} {dt : Nat} {q : Qp} (h : s.qp (qpKey (fnIndex port vf) qp.val) = some q) :
    execMsixCoalesceTimeout port vf qp dt s = .next
      (if q.unsig ≠ 0 ∧ q.time ≠ 0 ∧ q.unsigAt + 100 * q.time.toNat ≤ (s.pass dt).tclk ∧ ¬ (s.fn (fnIndex port vf)).d3hot then
        ((s.pass dt).setQp (qpKey (fnIndex port vf) qp.val) (some { q with unsig := 0 })).signal (fnIndex port vf) q.vector
      else s.pass dt) := by
  have hq : (s.pass dt).qp (qpKey (fnIndex port vf) qp.val) = some q := h
  unfold execMsixCoalesceTimeout
  dsimp only
  rw [hq, key_fn qp.isLt]
  rfl

/-! ### Ports -/

section
variable {s : State} {port : Gal}

theorem linkUp_of_links {x y : Gallery} (h : x.links = y.links) : x.linkUp = y.linkUp := congrArg Prod.fst h

theorem vfsOn_of_links {x y : Gallery} (h : x.links = y.links) : x.vfsOn = y.vfsOn := congrArg Prod.snd h

theorem links_down (s : State) (port : Nat) : ((s.linkDown port).gal port).linkUp = false := by
  have hcalm : State.Calm _ (s.linkDown port) := calm_foldl (fun t r => calm_endRequest t r _ _) _ (s.modGal port fun x => { x with linkUp := false })
  have hlinks := linkUp_of_links (hcalm.links port)
  rw [gal_modGal, if_pos rfl] at hlinks
  exact hlinks

theorem linkDown_quiet (h : ∀ r ∈ s.host.reqs, r.port ≠ port.val) : s.linkDown port.val = s.modGal port.val fun x => { x with linkUp := false } := by
  have hnone : s.host.reqs.filter (fun r => r.port = port.val && true) = [] := by
    refine List.filter_eq_nil_iff.mpr fun r hr hp => ?_
    rw [Bool.and_true, decide_eq_true_eq] at hp
    exact h r hr hp
  refine (congrArg (fun l => List.foldl (fun (t : State) r => t.endRequest r stAbsent []) (s.modGal port.val fun x => { x with linkUp := false }) l) hnone).trans rfl

theorem linkUp_edge (s : State) (g n h : Nat) : ((s.edge g n).gal h).linkUp = (s.gal h).linkUp := linkUp_of_links (links_edge s g n h)

/-- A port's reset takes its link and every queue pair of its functions (R291). -/
theorem portReset_spec (s : State) (port : Nat) : ((((s.linkDown port).flr port 0).edge port 258).gal port).linkUp = false
    ∧ ∀ vf < 64, (((s.linkDown port).flr port 0).edge port 258).FlrDone (64 * port + vf) := by
  refine ⟨?_, fun vf hvf => (flr_done _ hvf (.inr rfl)).of_calm (calm_edge _ _ _)⟩
  rw [linkUp_edge]
  exact (linkUp_of_links (links_flr (s.linkDown port) port 0 port)).trans (links_down s port)

theorem perst_spec (s : State) (port : Gal) (kind : PortReset) : ∃ u, execPerst port kind s = .next u ∧ (u.gal port.val).linkUp = false
    ∧ ∀ vf < 64, u.FlrDone (64 * port.val + vf) := by
  obtain ⟨hlink, hdone⟩ := portReset_spec s port.val
  refine ⟨_, rfl, ?_, ?_⟩ <;> split
  · rw [linkUp_edge]
    exact hlink
  · exact hlink
  · exact fun vf hvf => (hdone vf hvf).of_calm (calm_edge _ _ _)
  · exact hdone

theorem flrDone_modGal {f : Nat} (h : s.FlrDone f) (g : Nat) (y : Gallery → Gallery) : (s.modGal g y).FlrDone f := ⟨h.gone, h.cleared⟩

/-- VFs that are disabled have each had an FLR (R293, R298). -/
theorem vfDisable_spec (s : State) (port : Gal) (hon : (s.gal port.val).vfsOn = true) : ∃ u, execVfEnable port false s = .next u
    ∧ (u.gal port.val).vfsOn = false ∧ ∀ vf, 1 ≤ vf → vf < 64 → u.FlrDone (64 * port.val + vf) := by
  have hrow : execVfEnable port false s = .next (((((List.range' 1 63).foldl (fun t v => t.flr1 (64 * port.val + v)) s).modGal port.val
      fun x => { x with vfsOn := false }).closeStep).edge port.val 259) := by
    unfold execVfEnable
    dsimp only
    rw [if_neg (by rw [hon]; decide), if_neg (by decide)]
  refine ⟨_, hrow, ?_, fun vf hlo hhi => ?_⟩
  · have hlinks := vfsOn_of_links ((links_edge _ port.val 259 port.val).trans ((calm_closeStep
      (((List.range' 1 63).foldl (fun t v => t.flr1 (64 * port.val + v)) s).modGal port.val fun x => { x with vfsOn := false })).links port.val))
    rw [gal_modGal, if_pos rfl] at hlinks
    exact hlinks
  · have hdone := foldl_flr1_done (List.range' 1 63) port.val rfl s (.inl (List.mem_range'_1.mpr ⟨hlo, by omega⟩))
    exact (flrDone_modGal hdone port.val _).of_calm ((calm_closeStep _).trans (calm_edge _ _ _))

end

/-! ### Host requests (R300) -/

/-- A read request from the panel ends with its answer. -/
theorem endRequest_read {r : HostReq} (h : r.packet.opc = 1) (s : State) (st : BitVec 4) (data : List Byte) : s.endRequest r st data =
    State.send { s with host := { s.host with reqs := s.host.reqs.erase r } } [readAnswer r.packet (srcGal r.port 0) 4 st data] := if_pos h

section
variable {s : State} {port : Gal} {id : Nat} {r : HostReq} (hr : s.host.reqs.find? (fun r => r.port = port.val && r.id = id) = some r)
include hr

/-- How the link's outcome ends a request. -/
theorem hostCompletion_row : (∀ data, execHostCompletion port id (.success data) s = .next (s.endRequest r stOk (data.take r.packet.len.toNat)).closeStep)
    ∧ execHostCompletion port id .unsupported s = .next (s.endRequest r stDenied []).closeStep
    ∧ execHostCompletion port id .completerAbort s = .next (s.endRequest r stDenied []).closeStep
    ∧ execHostCompletion port id .poisoned s = .next (s.endRequest r stUe []).closeStep := by
  unfold execHostCompletion
  rw [hr]
  exact ⟨fun _ => rfl, rfl, rfl, rfl⟩

theorem completionTimeout_row : execCompletionTimeout port id s = .next (s.endRequest r stTimeout []).closeStep := by
  unfold execCompletionTimeout
  rw [hr]

end

/-- Settles O45: a doorbell, a fetch or a post is the branch its queue pair's state selects; after a reset nothing makes a queue pair again. -/
theorem hostInterfaceRows : Obligations.HostInterfaceRows := by
  unfold Obligations.HostInterfaceRows
  refine ⟨?_, ?_, ?_, ?_, ?_, ?_, ?_⟩
  · rintro s t port vf qp v f k n rfl rfl rfl hfn
    have hp := fnIndex_port port vf
    refine ⟨?_, ?_⟩
    · rintro rfl
      have hrow : exec (.sqDoorbell port vf qp v) s = .next (s.sqBell (qpKey (fnIndex port vf) qp.val) (fld v 15 0)) := congrArg _ (if_pos hfn)
      refine ⟨fun h => hrow.trans (congrArg _ (sqBell_absent qp.isLt hp h)), fun q hq => ?_⟩
      have hbell := hrow.trans (congrArg _ (sqBell_present qp.isLt hp hq))
      refine ⟨fun h => hbell.trans (congrArg _ (if_pos h)), fun h1 h2 => hbell.trans (congrArg _ ((if_neg h1).trans (if_neg (Nat.not_le.mpr h2)))), fun h1 h2 => ?_⟩
      obtain ⟨⟨p, hp1, hp2, hp3, -⟩, h31, h30, h25⟩ := queueError_shown (s := s.edge port.val 256) (kind := 0) qp.isLt hq (by decide)
      exact ⟨_, hbell.trans (congrArg _ ((if_neg h1).trans (if_pos h2))), ⟨p, hp1, hp2, hp3⟩, h31, h30, h25⟩
    · rintro rfl
      have hrow : exec (.cqDoorbell port vf qp v) s = .next (s.cqBell (qpKey (fnIndex port vf) qp.val) (fld v 15 0)) := congrArg _ (if_pos hfn)
      refine ⟨fun h => hrow.trans (congrArg _ (cqBell_absent qp.isLt hp h)), fun q hq => ?_⟩
      have hbell := hrow.trans (congrArg _ (cqBell_present qp.isLt hp hq))
      refine ⟨fun h => hbell.trans (congrArg _ (if_pos h)), fun h1 h2 h3 => hbell.trans (congrArg _ ((if_neg h1).trans (if_neg (by omega)))), fun h1 h2 => ?_⟩
      obtain ⟨⟨p, hp1, hp2, -, -⟩, -, h30, -⟩ := queueError_shown (s := s.edge port.val 257) (kind := 1) qp.isLt hq (by decide)
      exact ⟨_, hbell.trans (congrArg _ ((if_neg h1).trans (if_pos h2))), ⟨p, hp1, hp2⟩, h30⟩
  · rintro s port vf qp q k rfl hq
    refine ⟨fun h r => sqFetch_idle hq h r, fun h => ⟨fun st => ?_, ?_, ?_⟩, fun hd ok => cqPost_idle hq hd ok, ?_⟩
    · obtain ⟨⟨p, hp1, hp2, -, -⟩, -, h30, -⟩ := queueError_shown (kind := 2) qp.isLt hq (by decide)
      exact ⟨_, sqFetch_fail hq h st, ⟨p, hp1, hp2⟩, h30⟩
    · rintro data d hext hroom rfl
      refine (sqFetch_read hq h data (n := 1) (by rw [hext]; rfl) hroom).trans ?_
      rw [hext]
      rfl
    · rintro data d hext hroom rfl
      refine (sqFetch_read hq h data (n := 2) (by rw [hext]; rfl) hroom).trans ?_
      rw [hext]
      rfl
    · rintro r rest q' u hd hl rfl rfl
      have hrow := fun ok => cqPost_due hq hd hl ok
      refine ⟨?_, fun h => ?_, fun h36 h0 => ?_⟩
      · obtain ⟨⟨p, hp1, hp2, -, hp4⟩, -, h30, -⟩ := queueError_shown (kind := 3) qp.isLt hq (by decide)
        exact ⟨_, hrow false, ⟨p, hp1, hp2, hp4 r (hd ▸ List.mem_cons_self)⟩, h30⟩
      · refine (hrow true).trans (congrArg _ ((if_neg (by decide)).trans ?_))
        rw [if_neg (by rw [Bool.and_eq_true, decide_eq_true_eq, decide_eq_true_eq]; exact fun hand => h.elim (fun h => h hand.1) fun h => h hand.2)]
        rfl
      · refine (hrow true).trans (congrArg _ ((if_neg (by decide)).trans ?_))
        rw [if_pos (by rw [h36, h0]; rfl)]
        rfl
  · intro s c t ht
    refine ⟨checkCmd_opcode ht, fun hop => ?_⟩
    have hcheck := checkCmd_permitted ht hop
    refine ⟨fun h => hcheck.trans (if_pos (by rw [h]; rfl)), fun h => ?_⟩
    have hperm := hcheck.trans (if_neg (by rw [h]; decide))
    refine ⟨fun h1 h2 h3 => hperm.trans (if_pos (by simp [h1, h2, h3])), fun hready hpair => ?_⟩
    have hrec := (hperm.trans (if_neg (by rcases hready with h | h | h <;> simp [h]))).trans
      (congrArg (fun o => Option.getD o _) (recovery_unpaired hpair t))
    rw [logStep_unpaired hpair] at hrec
    refine ⟨fun h1 => hrec.trans (if_pos (by rw [h1]; rfl)), fun h1 h2 => hrec.trans ((if_neg (by rw [h1]; decide)).trans (if_pos (by rw [h2]; rfl))),
      fun h1 h2 h3 => hrec.trans ((if_neg (by rw [h1]; decide)).trans ((if_neg (by rw [h2]; decide)).trans (if_pos (by rw [h3]; rfl)))),
      fun h1 h2 h3 => hrec.trans ((if_neg (by rw [h1]; decide)).trans ((if_neg (by rw [h2]; decide)).trans (if_neg (by rw [h3]; decide))))⟩
  · rintro s t port vf qp dt f k q rfl rfl hq rfl
    have hrow := msixTimeout_row (dt := dt) hq
    refine ⟨fun h => hrow.trans (congrArg _ (if_neg ?_)), fun h1 h2 h3 h4 => hrow.trans (congrArg _ (if_pos ⟨h1, h2, h3, by rw [h4]; decide⟩))⟩
    rintro ⟨h1, h2, h3, h4⟩
    rcases h with h | h | h | h
    · exact h1 h
    · exact h2 h
    · exact absurd h3 (Nat.not_le.mpr h)
    · exact h4 h
  · rintro s t port vf v f rfl hfn rfl
    have hmask : exec (.msixUnmask port vf v) s = .next (s.maskVector (fnIndex port vf) v.val false) := congrArg _ (if_pos hfn)
    have haq : exec (.aqEnable port vf) s = .next (s.enableAq (fnIndex port vf)) := congrArg _ (if_pos hfn)
    refine ⟨fun h => hmask.trans (congrArg _ (maskVector_quiet h)), fun h1 h2 => ?_, ?_, fun d3 => congrArg _ (if_pos hfn), ?_⟩
    · obtain ⟨hout, hpend, hmasked⟩ := maskVector_sends h1 h2
      rw [fnIndex_port, fnIndex_vf] at hout
      exact ⟨_, hmask, hout, hpend, hmasked⟩
    · rintro x rfl
      refine ⟨fun h => haq.trans (congrArg _ (enableAq_refused h)), fun h1 h2 h3 h4 => ?_⟩
      obtain ⟨due, r, hqp⟩ := enableAq_made h1 h2 h3 h4
      exact ⟨_, _, haq, hqp, rfl, rfl, rfl, rfl, rfl, rfl, rfl, rfl, rfl, rfl⟩
    · obtain ⟨hgone, h1, h2, h3, h4⟩ := (flr_done s (port := port.val) vf.isLt (.inl rfl)).of_calm (calm_edge _ port.val 259)
      have hflr : exec (.flr port vf) s = .next ((s.flr port.val vf.val).edge port.val 259) := congrArg _ (if_pos hfn)
      exact ⟨_, hflr, hgone, h1, h2, h3, h4⟩
  · intro s port
    refine ⟨fun b h => congrArg _ (if_pos h), fun h => ?_, fun h => ?_, fun kind => ?_, fun up h => congrArg _ (if_pos h), fun h hreq => ?_, fun h1 h2 h3 h4 h5 => ?_⟩
    · exact congrArg _ (if_neg (by rw [h]; decide))
    · obtain ⟨u, hrow, hoff, hdone⟩ := vfDisable_spec s port h
      exact ⟨u, hrow, hoff, fun vf hlo hhi => (hdone vf hlo hhi).gone⟩
    · obtain ⟨u, hrow, hlink, hdone⟩ := perst_spec s port kind
      exact ⟨u, hrow, hlink, fun vf hvf => (hdone vf hvf).gone⟩
    · refine congrArg _ ((if_neg (by rw [h]; decide)).trans ((if_pos (by decide)).trans ?_))
      rw [linkDown_quiet hreq]
    · refine congrArg _ ((if_neg (by rw [h1]; decide)).trans ((if_neg (by decide)).trans (if_neg ?_)))
      rintro (h | h | h | ⟨h, hport⟩)
      · rw [h2] at h
        cases h
      · exact h h3
      · exact h h4
      · rcases h5 with h5 | h5
        · rw [h5] at h
          cases h
        · rw [h5] at hport
          exact hport rfl
  · rintro s t port id r hr hread rfl
    obtain ⟨h1, h2, h3, h4⟩ := hostCompletion_row hr
    have h5 := completionTimeout_row hr
    simp only [endRequest_read hread] at h1 h2 h3 h4 h5
    exact ⟨h1, h2, h3, h4, h5⟩

end Sys2Proof.Machine
end

section
/-! SUPPORT. Penlet links, frames that leave, members and the roster: what each changes of the span (R446 to R451, R455). -/

namespace Sys2Proof.Machine

/-! ### Links (R446, R447) -/

theorem penLink_edge (s : State) (g n h : Nat) : ((s.edge g n).gal h).penLink = (s.gal h).penLink := by
  rw [State.edge, gal_modGal]
  split
  case isFalse => rfl
  case isTrue hh =>
    subst hh
    unfold Gallery.edge
    split
    case isFalse => rfl
    case isTrue =>
      dsimp only
      split <;> obtain ⟨st, hw⟩ := wakeMc_frame _ n <;> rw [hw] <;> rfl

theorem pen_edge (s : State) (g n e : Nat) : (s.edge g n).pen e = s.pen e := congrArg (fun t => Tab.get 0 t (e % 4)) (penLink_edge s g n (e / 4))

/-- PEN_LINK of an engine is written, and no more than the galleries changes (R424). -/
theorem setPen_frame (s : State) (e : Nat) (v : BitVec 64) : ∃ gals, s.setPen e v = { s with gals := gals } ∧ (s.setPen e v).pen e = v := by
  have hpen : (s.modGal (e / 4) fun x => { x with penLink := Tab.set 0 x.penLink (e % 4) v }).pen e = v := by
    rw [State.pen, gal_modGal, if_pos rfl]
    exact (get_set _ _ _ _ _).trans (if_pos rfl)
  unfold State.setPen
  dsimp only
  split
  · exact ⟨_, rfl, hpen⟩
  · exact ⟨_, rfl, (pen_edge _ _ _ _).trans hpen⟩

theorem spanRoutes_frame (s : State) : ∃ r, s.spanRoutes = { s with span := { s.span with routes := r } } := ⟨_, rfl⟩

/-- The state in which the link of engine e has changed and what came by it is forgotten. -/
theorem resetLink_frame (s : State) (e : Nat) (v : BitVec 64) : ∃ gals hops r,
    ((s.setPen e v).forgetHops e).spanRoutes = { s with gals := gals, span := { s.span with hops := hops, routes := r } }
    ∧ (((s.setPen e v).forgetHops e).spanRoutes).pen e = v ∧ ∀ k < 64, Tab.get 0 hops (64 * e + k) = 0 := by
  obtain ⟨gals, hset, hpen⟩ := setPen_frame s e v
  obtain ⟨r, hr⟩ := spanRoutes_frame ((s.setPen e v).forgetHops e)
  refine ⟨gals, Tab.clear s.span.hops (64 * e) 64, r, ?_, ?_, fun k hk => ?_⟩
  · rw [hr, hset]
    rfl
  · rw [hr]
    exact hpen
  · rw [get_clear]
    exact if_pos (by omega)

/-! ### Frames that leave (R448) -/

theorem foldl_sendFrame (f : PenFrame) (es : List Nat) (s : State) :
    es.foldl (fun t e => t.sendFrame e f) s = { s with span := { s.span with out := s.span.out ++ es.map fun e => (e, f) } } := by
  induction es generalizing s with
  | nil => rw [List.foldl_nil, List.map_nil, List.append_nil]
  | cons e es ih =>
    refine (ih (s.sendFrame e f)).trans ?_
    unfold State.sendFrame
    dsimp only
    rw [List.append_assoc]
    rfl

theorem sendAll_eq (s : State) (but : Option Nat) (f : PenFrame) : s.sendAll but f =
    { s with span := { s.span with out := s.span.out ++ (s.upEngines.filter fun e => some e ≠ but).map fun e => (e, f) } } := foldl_sendFrame f _ s

theorem filter_some_none (es : List Nat) : es.filter (fun e => some e ≠ none) = es := List.filter_eq_self.mpr fun _ _ => rfl

theorem sendRoster_frame (s : State) : ∃ out, s.sendRoster = { s with span := { s.span with out := s.span.out ++ out } } := ⟨_, sendAll_eq s none _⟩

/-- The TIME frames that leave, with the AGE that the panel adds (R453). -/
def State.timeFrames (s : State) (but : Option Nat) (t : BitVec 64) (age : Nat) : List (Nat × PenFrame) :=
  (s.upEngines.filter fun e => some e ≠ but).map fun e => (e, PenFrame.time t (age + (Config.fresh s.free).toNat))

theorem sendTime_eq (s : State) (but : Option Nat) (t : BitVec 64) (age : Nat) : s.sendTime but t age =
    { s with free := s.free + 1, span := { s.span with out := s.span.out ++ s.timeFrames but t age } } := sendAll_eq s.fresh.2 but _

/-! ### Members (R450) -/

theorem peerState_setPeer (s : State) (k j v : Nat) (hv : v < 8) : (s.setPeer k v).peerState j = if j = k then v else s.peerState j := by
  unfold State.setPeer State.peerState
  dsimp only
  rw [Tab.mod, get_set]
  split
  · rw [fld_setFld (by decide) (by decide)]
    exact Nat.mod_eq_of_lt hv
  · rfl

theorem setPeer_frame (s : State) (k v : Nat) : ∃ peers, s.setPeer k v = { s with span := { s.span with peers := peers } } := ⟨_, rfl⟩

/-- What admits a member: the roster, with its field of PEN_SPAN, and frames that leave. -/
theorem enrol_frame (s : State) (k : Nat) (serial : BitVec 64) : ∃ roster reg out,
    s.enrol k serial = { s with span := { s.span with roster := roster, reg := reg, out := s.span.out ++ out } } := by
  unfold State.enrol
  split
  · obtain ⟨out, h⟩ := sendRoster_frame { s with span := s.span.setRoster (s.span.roster ++ [(k, serial)]) }
    exact ⟨_, _, out, h⟩
  · exact ⟨s.span.roster, s.span.reg, [], by rw [List.append_nil]⟩

/-- The lead admits a panel that the roster does not hold. -/
theorem enrol_admits {s : State} {k : Nat} (serial : BitVec 64) (hl : s.isLead = true) (hr : ∀ m ∈ s.span.roster, m.1 ≠ k) :
    (k, serial) ∈ (s.enrol k serial).span.roster := by
  have hnone : s.span.roster.any (fun e => e.1 = k) = false := List.any_eq_false.mpr fun m hm => by
    rw [decide_eq_true_eq]
    exact hr m hm
  obtain ⟨out, h⟩ := sendRoster_frame { s with span := s.span.setRoster (s.span.roster ++ [(k, serial)]) }
  unfold State.enrol
  rw [if_pos (by rw [hl, hnone]; rfl), h]
  exact List.mem_append_right _ List.mem_cons_self

theorem heard_conflict {s : State} {k : Nat} {serial : BitVec 64} (h : s.conflicts k serial = true) : s.heard k serial = s.setPeer k 3 := if_pos h

/-- The panel whose conflict is over, if there was one. -/
def State.calmed (s : State) (k : Nat) : State := if s.peerState k = 3 then s.setPeer k 0 else s

theorem heard_clear {s : State} {k : Nat} {serial : BitVec 64} (h : s.conflicts k serial = false) : s.heard k serial = (s.calmed k).enrol k serial :=
  if_neg (by rw [h]; exact Bool.false_ne_true)

theorem calmed_frame (s : State) (k : Nat) : ∃ peers, s.calmed k = { s with span := { s.span with peers := peers } } := by
  unfold State.calmed
  split
  · exact setPeer_frame s k 0
  · exact ⟨s.span.peers, rfl⟩

theorem peerState_calmed (s : State) (k : Nat) : (s.calmed k).peerState k ≠ 3 := by
  unfold State.calmed
  split
  · rw [peerState_setPeer _ _ _ _ (by decide), if_pos rfl]
    decide
  · next h => exact h

theorem heard_frame (s : State) (k : Nat) (serial : BitVec 64) : ∃ peers roster reg out,
    s.heard k serial = { s with span := { s.span with peers := peers, roster := roster, reg := reg, out := s.span.out ++ out } } := by
  cases h : s.conflicts k serial with
  | true =>
    rw [heard_conflict h]
    obtain ⟨peers, hp⟩ := setPeer_frame s k 3
    exact ⟨peers, s.span.roster, s.span.reg, [], by rw [hp, List.append_nil]⟩
  | false =>
    rw [heard_clear h]
    obtain ⟨peers, hp⟩ := calmed_frame s k
    obtain ⟨roster, reg, out, he⟩ := enrol_frame (s.calmed k) k serial
    exact ⟨peers, roster, reg, out, by rw [he, hp]⟩

theorem peerState_enrol (s : State) (k j : Nat) (serial : BitVec 64) : (s.enrol k serial).peerState j = s.peerState j := by
  obtain ⟨roster, reg, out, h⟩ := enrol_frame s k serial
  rw [h]
  rfl

/-- A panel that the roster holds under another serial number conflicts. -/
theorem conflicts_of_roster {s : State} {k : Nat} {serial : BitVec 64} (h : ∃ m ∈ s.span.roster, m.1 = k ∧ m.2 ≠ serial) : s.conflicts k serial = true := by
  obtain ⟨m, hm, hk, hs⟩ := h
  refine Bool.or_eq_true_iff.mpr (.inl (List.any_eq_true.mpr ⟨m, hm, ?_⟩))
  rw [Bool.and_eq_true, decide_eq_true_eq, decide_eq_true_eq]
  exact ⟨hk, hs⟩

theorem conflicts_none {s : State} {k : Nat} {serial : BitVec 64} (hr : ∀ m ∈ s.span.roster, m.1 ≠ k) (hl : k ∉ s.span.leads) :
    s.conflicts k serial = false := by
  have hnone : s.span.roster.any (fun e => e.1 = k && e.2 ≠ serial) = false := List.any_eq_false.mpr fun m hm hp => by
    rw [Bool.and_eq_true, decide_eq_true_eq] at hp
    exact hr m hm hp.1
  have hlead : s.span.leads.contains k = false := by
    rw [← Bool.not_eq_true, List.contains_iff_mem]
    exact hl
  unfold State.conflicts
  rw [hnone, hlead, Bool.and_false, Bool.false_and, Bool.or_false]

/-! ### IDENT frames (R450) -/

/-- PEN_LINK of an engine after an IDENT frame: the neighbour's index and engine, and STATE. -/
def identWord (v : BitVec 64) (f : IdentFrame) (st : Nat) : BitVec 64 := setFld (setFld (setFld v 55 50 f.index.val) 49 46 f.engine.val) 63 60 st

theorem identWord_fields (v : BitVec 64) (f : IdentFrame) {st : Nat} (h : st < 16) : fld (identWord v f st) 55 50 = f.index.val
    ∧ fld (identWord v f st) 49 46 = f.engine.val ∧ fld (identWord v f st) 63 60 = st := by
  unfold identWord
  refine ⟨?_, ?_, ?_⟩
  · rw [fld_setFld_ne (by decide) (by decide) (by decide), fld_setFld_ne (by decide) (by decide) (by decide), fld_setFld (by decide) (by decide)]
    exact Nat.mod_eq_of_lt f.index.isLt
  · rw [fld_setFld_ne (by decide) (by decide) (by decide), fld_setFld (by decide) (by decide)]
    exact Nat.mod_eq_of_lt f.engine.isLt
  · rw [fld_setFld (by decide) (by decide)]
    exact Nat.mod_eq_of_lt h

section
variable {s : State} {e : Nat} {f : IdentFrame}

theorem identified_mismatch (h : f.spanId ≠ s.span.record.spanId ∨ f.index = s.span.record.index) :
    s.identified e f = ((s.setPen e (identWord (s.pen e) f 4)).forgetHops e).spanRoutes := by
  refine if_pos ?_
  rw [Bool.or_eq_true, decide_eq_true_eq, decide_eq_true_eq]
  exact h

/-- The claims to the lead after an IDENT frame (R450). -/
def leadsHeard (l : List Nat) (f : IdentFrame) : List Nat := if f.lead then addOnce l f.index.val else l.erase f.index.val

/-- The state in which the neighbour on engine e is known by what its IDENT frame says. -/
def State.metOn (t : State) (e : Nat) (f : IdentFrame) : State :=
  { t with span := Span.setLeads { t.span with hops := Tab.set 0 t.span.hops (64 * e + f.index.val) 1 } (leadsHeard t.span.leads f) }

theorem pen_metOn (t : State) (e d : Nat) (f : IdentFrame) : (t.metOn e f).pen d = t.pen d := rfl

theorem metOn_frame (t : State) (e : Nat) (f : IdentFrame) : ∃ hops reg, t.metOn e f =
    { t with span := { t.span with hops := hops, leads := leadsHeard t.span.leads f, reg := reg } } ∧ Tab.get 0 hops (64 * e + f.index.val) = 1 :=
  ⟨Tab.set 0 t.span.hops (64 * e + f.index.val) 1, _, rfl, get_set_same _ _ _ _⟩

/-- The same once PEN_LINK shows the neighbour. -/
def State.met (s : State) (e : Nat) (f : IdentFrame) : State :=
  (s.setPen e (identWord (s.pen e) f (if fld (s.pen e) 59 56 = 8 then 2 else 3))).metOn e f

theorem identified_match (h1 : f.spanId = s.span.record.spanId) (h2 : f.index ≠ s.span.record.index) :
    s.identified e f = ((s.met e f).heard f.index.val f.serial).spanRoutes := by
  unfold State.identified
  dsimp only
  rw [if_neg (by simp [h1, h2]), fld_setFld_ne (by decide) (by decide) (by decide), fld_setFld_ne (by decide) (by decide) (by decide)]
  rfl

theorem leadsHeard_member {l : List Nat} (h1 : f.lead = false) (h2 : f.index.val ∉ l) : leadsHeard l f = l := by
  rw [leadsHeard, h1, if_neg Bool.false_ne_true]
  exact List.erase_of_not_mem h2

theorem met_frame (s : State) (e : Nat) (f : IdentFrame) : ∃ gals hops reg, s.met e f =
    { s with gals := gals, span := { s.span with hops := hops, leads := leadsHeard s.span.leads f, reg := reg } }
    ∧ (s.met e f).pen e = identWord (s.pen e) f (if fld (s.pen e) 59 56 = 8 then 2 else 3) ∧ Tab.get 0 hops (64 * e + f.index.val) = 1 := by
  unfold State.met
  rw [pen_metOn]
  obtain ⟨gals, hset, hpen⟩ := setPen_frame s e (identWord (s.pen e) f (if fld (s.pen e) 59 56 = 8 then 2 else 3))
  rw [hpen, hset]
  obtain ⟨hops, reg, h, hhops⟩ := metOn_frame { s with gals := gals } e f
  exact ⟨gals, hops, reg, h, rfl, hhops⟩

end

end Sys2Proof.Machine
end

section
/-! SUPPORT. Links, rosters, records, span time and heartbeats, row by row (R446 to R451, R453 to R455, R466). -/

namespace Sys2Proof.Machine

/-! ### Links (R446, R447, R451) -/

/-- PEN_LINK of an engine whose link has trained, or lost lanes. -/
def laneWord (v : BitVec 64) (lanes st : Nat) : BitVec 64 := setFld (setFld v 59 56 (min 8 lanes)) 63 60 st

theorem laneWord_fields (v : BitVec 64) (lanes : Nat) {st : Nat} (h : st < 16) :
    fld (laneWord v lanes st) 59 56 = min 8 lanes ∧ fld (laneWord v lanes st) 63 60 = st := by
  unfold laneWord
  refine ⟨?_, ?_⟩
  · rw [fld_setFld_ne (by decide) (by decide) (by decide), fld_setFld (by decide) (by decide)]
    exact Nat.mod_eq_of_lt (by omega)
  · rw [fld_setFld (by decide) (by decide)]
    exact Nat.mod_eq_of_lt h

theorem pen_sendFrame (s : State) (e d : Nat) (f : PenFrame) : (s.sendFrame e f).pen d = s.pen d := rfl

theorem hopsVia_of_frame {t : State} {hops : Tab Nat} {e : Nat} (h : t.span.hops = hops) (hz : ∀ k < 64, Tab.get 0 hops (64 * e + k) = 0) :
    ∀ k < 64, t.hopsVia e k = 0 := fun k hk => by
  rw [State.hopsVia, h]
  exact hz k hk

section
variable {s : State} {e : Engine} {lanes : Nat}

theorem trainLink_idle (h : s.inSpan = false ∨ (s.gal (e.val / 4)).failed = true ∨ s.pins.rimGood = false) : s.trainLink e.val lanes = s := by
  refine if_pos ?_
  rw [Bool.or_eq_true, Bool.or_eq_true, Bool.not_eq_true', Bool.not_eq_true', or_assoc]
  exact h

section
variable (hin : s.inSpan = true) (hok : (s.gal (e.val / 4)).failed = false) (hrim : s.pins.rimGood = true)
include hin hok hrim

theorem trains : ¬ (!s.inSpan || (s.gal (e.val / 4)).failed || !s.pins.rimGood) = true := by
  rw [hin, hok, hrim]
  decide

theorem trainLink_down (h : lanes < 4) : s.trainLink e.val lanes = ((s.setPen e.val (laneWord (s.pen e.val) lanes 5)).forgetHops e.val).spanRoutes := by
  refine (if_neg (trains hin hok hrim)).trans ?_
  dsimp only
  rw [if_pos h, if_pos h]
  rfl

theorem trainLink_training (h : ¬ lanes < 4) : ∃ t, t = ((s.setPen e.val (laneWord (s.pen e.val) lanes 1)).forgetHops e.val).spanRoutes
    ∧ s.trainLink e.val lanes = t.sendFrame e.val (.ident (t.ownIdent e.val)) := by
  refine ⟨_, rfl, (if_neg (trains hin hok hrim)).trans ?_⟩
  dsimp only
  rw [if_neg h, if_neg h]
  rfl

/-- A link that trains shows its lanes; with at least 4 the panel names itself (R447, R450). -/
theorem trainLink_spec : ∃ t, s.trainLink e.val lanes = t ∧ fld (t.pen e.val) 59 56 = min 8 lanes ∧ (∀ k < 64, t.hopsVia e.val k = 0)
    ∧ (lanes < 4 → t.penState e.val = 5 ∧ t.span.out = s.span.out)
    ∧ (4 ≤ lanes → t.penState e.val = 1 ∧ t.span.out = s.span.out ++ [(e.val, PenFrame.ident { spanId := s.span.record.spanId, index := s.span.record.index
                                                                                               serial := s.nv.serial, lead := s.span.record.lead, engine := e })]) := by
  by_cases h : lanes < 4
  · obtain ⟨gals, hops, r, hframe, hpen, hzero⟩ := resetLink_frame s e.val (laneWord (s.pen e.val) lanes 5)
    obtain ⟨hlanes, hst⟩ := laneWord_fields (s.pen e.val) lanes (st := 5) (by decide)
    refine ⟨_, trainLink_down hin hok hrim h, ?_, ?_, fun _ => ⟨?_, ?_⟩, fun h4 => absurd h (Nat.not_lt.mpr h4)⟩
    · rw [hpen]
      exact hlanes
    · refine hopsVia_of_frame ?_ hzero
      rw [hframe]
    · rw [State.penState, hpen]
      exact hst
    · rw [hframe]
  · obtain ⟨gals, hops, r, hframe, hpen, hzero⟩ := resetLink_frame s e.val (laneWord (s.pen e.val) lanes 1)
    obtain ⟨hlanes, hst⟩ := laneWord_fields (s.pen e.val) lanes (st := 1) (by decide)
    obtain ⟨t, ht, hrow⟩ := trainLink_training hin hok hrim h
    rw [← ht] at hframe hpen
    have he : Fin.ofNat 16 e.val = e := Fin.ext (Nat.mod_eq_of_lt e.isLt)
    refine ⟨_, hrow, ?_, ?_, fun h4 => absurd h4 h, fun _ => ⟨?_, ?_⟩⟩
    · rw [pen_sendFrame, hpen]
      exact hlanes
    · refine hopsVia_of_frame ?_ hzero
      rw [hframe]
      rfl
    · rw [State.penState, pen_sendFrame, hpen]
      exact hst
    · rw [hframe]
      unfold State.sendFrame State.ownIdent
      dsimp only
      rw [he]

end

theorem linkLoss_dark (h : s.penState e.val = 0) (l : BitVec 4) : execPenletLinkLoss e l s = .next s := congrArg _ (if_pos h)

theorem linkLoss_down (h : s.penState e.val ≠ 0) {l : BitVec 4} (hl : l.toNat < 4) : ∃ t, execPenletLinkLoss e l s = .next t
    ∧ t.penState e.val = 5 ∧ (∀ k < 64, t.hopsVia e.val k = 0) ∧ t.span.out = s.span.out := by
  have hrow : execPenletLinkLoss e l s = .next (((s.setPen e.val (laneWord (s.pen e.val) l.toNat 5)).forgetHops e.val).spanRoutes) := by
    unfold execPenletLinkLoss
    dsimp only
    rw [if_neg h, if_pos hl]
    rfl
  obtain ⟨gals, hops, r, hframe, hpen, hzero⟩ := resetLink_frame s e.val (laneWord (s.pen e.val) l.toNat 5)
  obtain ⟨-, hst⟩ := laneWord_fields (s.pen e.val) l.toNat (st := 5) (by decide)
  refine ⟨_, hrow, ?_, ?_, ?_⟩
  · rw [State.penState, hpen]
    exact hst
  · refine hopsVia_of_frame ?_ hzero
    rw [hframe]
  · rw [hframe]

/-- A link with 4 to 7 lanes left is degraded (R447). -/
theorem linkLoss_degraded (h : s.penState e.val ≠ 0) {l : BitVec 4} (hl : ¬ l.toNat < 4) : ∃ t, execPenletLinkLoss e l s = .next t
    ∧ t = { s with gals := t.gals } ∧ fld (t.pen e.val) 59 56 = min 8 l.toNat
    ∧ t.penState e.val = if s.penState e.val = 2 ∧ l.toNat < 8 then 3 else s.penState e.val := by
  have hword : ∃ w, execPenletLinkLoss e l s = .next (s.setPen e.val w) ∧ fld w 59 56 = min 8 l.toNat
      ∧ fld w 63 60 = if s.penState e.val = 2 ∧ l.toNat < 8 then 3 else s.penState e.val := by
    have hcond : (s.penState e.val = 2 && decide (l.toNat < 8)) = true ↔ s.penState e.val = 2 ∧ l.toNat < 8 := by
      rw [Bool.and_eq_true, decide_eq_true_eq, decide_eq_true_eq]
    refine ⟨_, congrArg _ ((if_neg h).trans (if_neg hl)), ?_, ?_⟩
    · split
      · exact (laneWord_fields (s.pen e.val) l.toNat (st := 3) (by decide)).1
      · rw [fld_setFld (by decide) (by decide)]
        exact Nat.mod_eq_of_lt (by omega)
    · by_cases hc : s.penState e.val = 2 ∧ l.toNat < 8
      · rw [if_pos (hcond.mpr hc), if_pos hc]
        exact (laneWord_fields (s.pen e.val) l.toNat (st := 3) (by decide)).2
      · rw [if_neg (mt hcond.mp hc), if_neg hc, fld_setFld_ne (by decide) (by decide) (by decide)]
        rfl
  obtain ⟨w, hrow, hlanes, hst⟩ := hword
  obtain ⟨gals, hframe, hpen⟩ := setPen_frame s e.val w
  refine ⟨_, hrow, by rw [hframe], ?_, ?_⟩
  · rw [hpen]
    exact hlanes
  · rw [State.penState, hpen]
    exact hst

end

/-! ### IDENT and ROSTER frames (R450) -/

section
variable {s : State} {e : Nat}

theorem pen_spanRoutes (s : State) (d : Nat) : s.spanRoutes.pen d = s.pen d := rfl
theorem hopsVia_spanRoutes (s : State) (d k : Nat) : s.spanRoutes.hopsVia d k = s.hopsVia d k := rfl
theorem peerState_spanRoutes (s : State) (k : Nat) : s.spanRoutes.peerState k = s.peerState k := rfl
theorem roster_spanRoutes (s : State) : s.spanRoutes.span.roster = s.span.roster := rfl
theorem roster_setPeer (s : State) (k v : Nat) : (s.setPeer k v).span.roster = s.span.roster := by
  obtain ⟨peers, h⟩ := setPeer_frame s k v
  rw [h]

theorem pen_heard (s : State) (k : Nat) (serial : BitVec 64) (d : Nat) : (s.heard k serial).pen d = s.pen d := by
  obtain ⟨peers, roster, reg, out, h⟩ := heard_frame s k serial
  rw [h]
  rfl

theorem hopsVia_heard (s : State) (k : Nat) (serial : BitVec 64) (d j : Nat) : (s.heard k serial).hopsVia d j = s.hopsVia d j := by
  obtain ⟨peers, roster, reg, out, h⟩ := heard_frame s k serial
  rw [h]
  rfl

/-- A neighbour of another span, or with the panel's own index, does not match. -/
theorem identified_mismatch_spec {f : IdentFrame} (h : f.spanId ≠ s.span.record.spanId ∨ f.index = s.span.record.index) :
    (s.identified e f).pen e = identWord (s.pen e) f 4 ∧ (s.identified e f).span.roster = s.span.roster := by
  rw [identified_mismatch h]
  obtain ⟨gals, hops, r, hframe, hpen, -⟩ := resetLink_frame s e (identWord (s.pen e) f 4)
  exact ⟨hpen, by rw [hframe]⟩

theorem identified_match_spec {f : IdentFrame} (h1 : f.spanId = s.span.record.spanId) (h2 : f.index ≠ s.span.record.index) :
    (s.identified e f).pen e = identWord (s.pen e) f (if fld (s.pen e) 59 56 = 8 then 2 else 3)
    ∧ (s.identified e f).hopsVia e f.index.val = 1
    ∧ (s.isLead = true → f.lead = false → f.index.val ∉ s.span.leads → (∀ m ∈ s.span.roster, m.1 ≠ f.index.val) →
      (f.index.val, f.serial) ∈ (s.identified e f).span.roster)
    ∧ ((∃ m ∈ s.span.roster, m.1 = f.index.val ∧ m.2 ≠ f.serial) →
      (s.identified e f).peerState f.index.val = 3 ∧ (s.identified e f).span.roster = s.span.roster) := by
  obtain ⟨gals, hops, reg, hmet, hpen, hone⟩ := met_frame s e f
  rw [identified_match h1 h2, pen_spanRoutes, hopsVia_spanRoutes, peerState_spanRoutes, roster_spanRoutes, pen_heard, hopsVia_heard]
  refine ⟨hpen, ?_, fun hl hf hlead hroster => ?_, fun hc => ?_⟩
  · rw [hmet]
    exact hone
  · have hclear : (s.met e f).conflicts f.index.val f.serial = false := by
      rw [hmet]
      refine conflicts_none hroster ?_
      dsimp only
      rw [leadsHeard_member hf hlead]
      exact hlead
    obtain ⟨peers, hp⟩ := calmed_frame (s.met e f) f.index.val
    rw [heard_clear hclear]
    refine enrol_admits f.serial ?_ ?_
    · rw [hp, hmet]
      exact hl
    · rw [hp, hmet]
      exact hroster
  · have hconf : (s.met e f).conflicts f.index.val f.serial = true := by
      rw [hmet]
      exact conflicts_of_roster hc
    rw [heard_conflict hconf, peerState_setPeer _ _ _ _ (by decide), if_pos rfl, roster_setPeer, hmet]
    exact ⟨rfl, rfl⟩

/-- One claim to the lead names it, and the span is not LEADERLESS (R450). -/
theorem setLeads_single {x : Span} {k : Nat} (hk : k < 64) (h : x.record.lead = false) :
    ∃ reg, x.setLeads [k] = { x with leads := [k], reg := reg } ∧ fld reg 21 16 = k ∧ bit reg 29 = false := by
  refine ⟨setFld (setBit x.reg 29 (x.record.spanId ≠ 0 && decide ([k].length ≠ 1))) 21 16 k, ?_, ?_, ?_⟩
  · unfold Span.setLeads
    dsimp only
    rw [h, if_neg Bool.false_ne_true]
  · rw [fld_setFld (by decide) (by decide)]
    exact Nat.mod_eq_of_lt hk
  · rw [bit_setFld_ne (by decide) (by decide) (by decide), bit_setBit (by decide), if_pos rfl, List.length_singleton]
    simp

theorem addOnce_single {l : List Nat} {k : Nat} (h : l = [] ∨ l = [k]) : addOnce l k = [k] := by
  unfold addOnce
  rcases h with rfl | rfl <;> simp

/-- A member takes a roster (R450). -/
theorem takeRoster_spec {f : RosterFrame} (hlead : s.span.record.lead = false) (hl : s.span.leads = [] ∨ s.span.leads = [f.lead.val]) :
    (s.takeRoster e f).span.roster = f.members.map (fun m => (m.1.val, m.2)) ∧ (s.takeRoster e f).span.rosterJobs = f.jobs
    ∧ fld (s.takeRoster e f).span.reg 21 16 = f.lead.val ∧ bit (s.takeRoster e f).span.reg 29 = false := by
  obtain ⟨reg, hset, hidx, hbit⟩ := setLeads_single (x := s.span) f.lead.isLt hlead
  unfold State.takeRoster
  dsimp only
  rw [addOnce_single hl, hset]
  dsimp only
  rw [hbit, Bool.false_or]
  split
  case isTrue hsame =>
    rw [Bool.and_eq_true, decide_eq_true_eq, decide_eq_true_eq] at hsame
    exact ⟨hsame.1.symm, hsame.2.symm, hidx, hbit⟩
  case isFalse =>
    rw [sendAll_eq]
    refine ⟨rfl, rfl, ?_, ?_⟩
    · exact (fld_setFld_ne (by decide) (by decide) (by decide)).trans hidx
    · exact (bit_setFld_ne (by decide) (by decide) (by decide)).trans hbit

end

/-! ### The span record (R449) -/

theorem pollRecord_none {s : State} (h : s.span.waiting = none) : s.pollRecord = s := by
  unfold State.pollRecord
  rw [h]

/-- What a link that trains anew keeps. -/
def State.recordView (s : State) : SpanRecord × Option SpanRecord × BitVec 64 × Tab Core × Ledger :=
  (s.span.record, s.span.waiting, s.span.reg, s.cores, s.ledger)

theorem recordView_setPen (s : State) (e : Nat) (v : BitVec 64) : (s.setPen e v).recordView = s.recordView := by
  obtain ⟨gals, h, -⟩ := setPen_frame s e v
  rw [h]
  rfl

theorem recordView_resetLink (s : State) (e : Nat) (v : BitVec 64) : (((s.setPen e v).forgetHops e).spanRoutes).recordView = s.recordView := by
  obtain ⟨gals, hops, r, h, -⟩ := resetLink_frame s e v
  rw [h]
  rfl

theorem recordView_sendFrame (s : State) (e : Nat) (f : PenFrame) : (s.sendFrame e f).recordView = s.recordView := rfl

theorem recordView_trainLink (s : State) (e lanes : Nat) : (s.trainLink e lanes).recordView = s.recordView := by
  unfold State.trainLink
  split
  · rfl
  · dsimp only
    split
    · exact recordView_resetLink _ _ _
    · rw [recordView_sendFrame]
      exact recordView_resetLink _ _ _

theorem recordView_relink (s : State) (e : Nat) : (s.relink e).recordView = s.recordView := by
  unfold State.relink
  split
  · rfl
  · split
    · exact recordView_setPen _ _ _
    · exact recordView_trainLink _ _ _

theorem setLeads_index (x : Span) (l : List Nat) : fld (x.setLeads l).reg 13 8 = fld x.reg 13 8 := by
  unfold Span.setLeads
  dsimp only
  split
  · exact fld_setBit_ne (by decide) (by decide)
  · split
    · exact (fld_setFld_ne (by decide) (by decide) (by decide)).trans (fld_setBit_ne (by decide) (by decide))
    · exact fld_setBit_ne (by decide) (by decide)

theorem setRoster_index (x : Span) (l : List (Nat × BitVec 64)) : fld (x.setRoster l).reg 13 8 = fld x.reg 13 8 :=
  fld_setFld_ne (by decide) (by decide) (by decide)

/-- The index that a record names stands in PEN_SPAN. -/
theorem recordReg_index {id i : Nat} (a b : Bool) (hid : id < 2 ^ 32) (hi : i < 64) :
    fld (BitVec.ofNat 64 (id * 2 ^ 32 + b2n a * 2 ^ 31 + b2n b * 2 ^ 30 + (if b then i * 2 ^ 16 else 0) + i * 2 ^ 8)) 13 8 = i := by
  unfold fld b2n
  rw [BitVec.toNat_ofNat, Nat.shiftRight_eq_div_pow]
  cases a <;> cases b <;> simp only [if_true, if_false, Bool.false_eq_true] <;> omega

/-- A span as a record leaves it, whatever PEN_SPAN then holds apart from the index. -/
theorem withRecord_frame (x : Span) (r : SpanRecord) (serial : BitVec 64) : (x.withRecord r serial).record = r ∧ (x.withRecord r serial).waiting = none
    ∧ fld (x.withRecord r serial).reg 13 8 = r.index.val := by
  refine ⟨rfl, rfl, ?_⟩
  unfold Span.withRecord
  dsimp only
  rw [setRoster_index, setLeads_index]
  exact recordReg_index _ _ r.spanId.isLt r.index.isLt

theorem useRecord_spec (s : State) (r : SpanRecord) : (s.useRecord r).span.record = r ∧ (s.useRecord r).span.waiting = none
    ∧ fld (s.useRecord r).span.reg 13 8 = r.index.val ∧ (s.useRecord r).cores = s.cores ∧ (s.useRecord r).ledger = s.ledger := by
  obtain ⟨hrec, hwait, hidx⟩ := withRecord_frame s.span r s.nv.serial
  have hview := view_foldl State.recordView recordView_relink (List.range 16) { s with span := s.span.withRecord r s.nv.serial
                                                                                       timeSvc := { s.timeSvc with ctrl := setBit s.timeSvc.ctrl 62 (r.spanId ≠ 0 && !r.lead), stepping := false } }
  obtain ⟨h1, h2, h3, h4, h5⟩ : _ ∧ _ ∧ _ ∧ _ ∧ _ := by
    simpa only [State.recordView, Prod.mk.injEq] using hview
  unfold State.useRecord
  dsimp only
  exact ⟨h1.trans hrec, h2.trans hwait, (congrArg (fun v => fld v 13 8) h3).trans hidx, h4, h5⟩

end Sys2Proof.Machine
end

section
/-! SUPPORT. Span time and heartbeats (R453 to R455). -/

namespace Sys2Proof.Machine

/-! ### The lead's time (R453, R454) -/

theorem timeFrames_all (s : State) (t : BitVec 64) :
    s.timeFrames none t 0 = s.upEngines.map fun e => (e, PenFrame.time t (Config.fresh s.free).toNat) := by
  unfold State.timeFrames
  rw [filter_some_none, Nat.zero_add]

theorem pollRecord_pass {s : State} (h : s.span.waiting = none) (dt : Nat) : (s.pass dt).pollRecord = s.pass dt := pollRecord_none h

theorem timeFrameSend_row {s : State} (h : s.span.waiting = none) (dt : Nat) : execTimeFrameSend dt s = .next
    (if s.isLead ∧ (s.island (.gal 0)).live ∧ s.span.timeAt + 8192 ≤ s.tclk + dt then
      State.sendTime { s.pass dt with span := { s.span with timeAt := s.tclk + dt } } none (s.pass dt).g0Time 0
    else s.pass dt) := by
  unfold execTimeFrameSend
  dsimp only
  rw [pollRecord_pass h]
  rfl

theorem timeFrameSend_sends {s : State} {dt : Nat} {t : BitVec 64} : State.sendTime { s.pass dt with span := { s.span with timeAt := s.tclk + dt } } none t 0 =
    { s.pass dt with free := s.free + 1, span := { s.span with
      timeAt := s.tclk + dt, out := s.span.out ++ s.upEngines.map fun e => (e, PenFrame.time t (Config.fresh s.free).toNat) } } := by
  rw [sendTime_eq, timeFrames_all]
  rfl

theorem setTsync_frame (s : State) (v : Bool) : ∃ reg, s.setTsync v = { s with span := { s.span with reg := reg } } ∧ bit reg 30 = v :=
  ⟨setBit s.span.reg 30 v, rfl, (bit_setBit (by decide) 30).trans (if_pos rfl)⟩

/-- A request of a step: the multiple of 1,024 that it names (R355). -/
theorem requestStep_frame (s : State) (t : BitVec 64) : ∃ ctrl v reg, s.requestStep t =
    { s with timeSvc := { s.timeSvc with ctrl := ctrl, stepVal := v, stepping := true }, span := { s.span with reg := reg } }
    ∧ bit ctrl 63 = true ∧ v.toNat % 1024 = 0 ∧ bit reg 30 = false := by
  refine ⟨setBit s.timeSvc.ctrl 63 true,
    BitVec.ofNat 64 (((t + BitVec.ofNat 64 (1024 - s.g0Time.toNat % 1024)).toNat + 512) / 1024 * 1024), setBit s.span.reg 30 false, rfl,
    (bit_setBit (by decide) 63).trans (if_pos rfl), ?_, (bit_setBit (by decide) 30).trans (if_pos rfl)⟩
  rw [BitVec.toNat_ofNat]
  omega

theorem slew_correct {x : Island} {now : Nat} {t : BitVec 64} {e : Int} (he : e = (t - x.time now).toInt) (hlo : -64 ≤ e) (hhi : e ≤ 64) :
    (x.correct now t false).slew = e := by
  unfold Island.correct
  dsimp only
  rw [← he, if_neg Bool.false_ne_true]
  split
  case isTrue hz => exact hz.symm
  case isFalse => rw [if_neg (show ¬ 64 < e by omega)]

/-- The correction of G0's time for the lead's time `t` (R453). -/
def State.corrected (u : State) (t : BitVec 64) : State :=
  if !u.span.joined || decide (64 < (t - u.g0Time).toInt) || decide ((t - u.g0Time).toInt < -64) then u.requestStep t
  else (u.modIsland (.gal 0) fun x => x.correct u.tclk t false).setTsync true

section
variable {s : State} {t : BitVec 64} (hctrl : bit s.timeSvc.ctrl 63 = false) (hstep : s.timeSvc.stepping = false)
include hctrl hstep

theorem takeTime_eq : s.takeTime t = s.corrected t := by
  have hsame : { s with timeSvc := { s.timeSvc with stepping := false }, span := { s.span with joined := s.span.joined || false } } = s := by
    rw [Bool.or_false, ← hstep]
  unfold State.takeTime
  dsimp only
  rw [hctrl, if_neg Bool.false_ne_true, hstep]
  exact congrArg (fun u : State => u.corrected t) hsame

/-- A small error is slewed away (R352, R453). -/
theorem takeTime_slews {d : Int} (hd : d = (t - s.g0Time).toInt) (hj : s.span.joined = true) (hlo : -64 ≤ d) (hhi : d ≤ 64) :
    bit (s.takeTime t).span.reg 30 = true ∧ ((s.takeTime t).island (.gal 0)).slew = d ∧ bit (s.takeTime t).timeSvc.ctrl 63 = false
    ∧ (s.takeTime t).span.timeAt = s.span.timeAt := by
  have hno : ¬ (!s.span.joined || decide (64 < (t - s.g0Time).toInt) || decide ((t - s.g0Time).toInt < -64)) = true := by
    rw [← hd, hj, decide_eq_false (by omega), decide_eq_false (by omega)]
    decide
  have hslew : ((s.modIsland (.gal 0) fun x => x.correct s.tclk t false).island (.gal 0)).slew = d := by
    rw [island_modIsland]
    exact slew_correct hd hlo hhi
  obtain ⟨reg, hset, hbit⟩ := setTsync_frame (s.modIsland (.gal 0) fun x => x.correct s.tclk t false) true
  rw [takeTime_eq hctrl hstep, State.corrected, if_neg hno, hset]
  exact ⟨hbit, hslew, hctrl, rfl⟩

/-- A larger error, and the first after joining, asks for a step (R453). -/
theorem takeTime_steps {d : Int} (hd : d = (t - s.g0Time).toInt) (h : s.span.joined = false ∨ d < -64 ∨ 64 < d) :
    bit (s.takeTime t).span.reg 30 = false ∧ bit (s.takeTime t).timeSvc.ctrl 63 = true ∧ (s.takeTime t).timeSvc.stepVal.toNat % 1024 = 0 := by
  have hyes : (!s.span.joined || decide (64 < (t - s.g0Time).toInt) || decide ((t - s.g0Time).toInt < -64)) = true := by
    rw [← hd, Bool.or_eq_true, Bool.or_eq_true, Bool.not_eq_true', decide_eq_true_eq, decide_eq_true_eq]
    rcases h with h | h | h
    · exact .inl (.inl h)
    · exact .inr h
    · exact .inl (.inr h)
  obtain ⟨ctrl, v, reg, hreq, h1, h2, h3⟩ := requestStep_frame s t
  rw [takeTime_eq hctrl hstep, State.corrected, if_pos hyes, hreq]
  exact ⟨h3, h1, h2⟩

end

theorem time_row {s : State} {e : Engine} {t : BitVec 64} {age : Nat} (h1 : s.inSpan = true) (h2 : s.isLead = false) (h3 : s.engineUp e.val = true)
    (h4 : s.timeParent = some e.val) (h5 : (s.island (.gal 0)).live = true) : ∃ u, u = State.takeTime { s with span := { s.span with timeAt := s.tclk } }
      (t + BitVec.ofNat 64 ((age + 500) / 1000)) ∧ ∃ out, execTime e t age s = .next { u with free := u.free + 1, span := { u.span with out := out } } := by
  have hrow : execTime e t age s = .next (State.sendTime (State.takeTime { s with span := { s.span with timeAt := s.tclk } }
      (t + BitVec.ofNat 64 ((age + 500) / 1000))) (some e.val) t age) := congrArg _ (if_pos ⟨h1, by rw [h2]; decide, h3, h4, h5⟩)
  exact ⟨_, rfl, _, hrow.trans (congrArg _ (sendTime_eq _ _ _ _))⟩

/-! ### Heartbeats (R455) -/

theorem noteJobs_frame (s : State) (l : List (BitVec 64 × BitVec 64)) : ∃ jobs out,
    s.noteJobs l = { s with span := { s.span with rosterJobs := jobs, out := s.span.out ++ out } } := by
  unfold State.noteJobs
  split
  · obtain ⟨out, h⟩ := sendRoster_frame { s with span := { s.span with rosterJobs := l } }
    exact ⟨l, out, h⟩
  · exact ⟨s.span.rosterJobs, [], by rw [List.append_nil]⟩

/-- The heartbeat that a panel sends. -/
def State.ownBeat (s : State) : HeartbeatFrame :=
  { index := s.span.record.index, serial := s.nv.serial, count := s.span.hbCount + 1, sentAt := s.g0Time, fnState := BitVec.ofNat 4 s.fnState,
    pwrState := BitVec.ofNat 2 s.powerState, ttl := 63 }

/-- The state in which a heartbeat is counted, before it leaves. -/
def State.beating (s : State) : State :=
  { s with span := { s.span with
      hbCount := s.span.hbCount + 1, hbSeen := s.span.hbSeen ++ [(s.ownIndex, s.span.hbCount + 1)], hbAt := Tab.set 0 s.span.hbAt 64 s.tclk } }

theorem beat_eq (s : State) : s.beat = (s.beating.sendAll none (.heartbeat s.ownBeat)).noteJobs (s.beating.sendAll none (.heartbeat s.ownBeat)).jobsNow := rfl

theorem upEngines_beating (s : State) : s.beating.upEngines = s.upEngines := rfl

/-- A heartbeat is counted and leaves on every link that is up. -/
theorem beat_spec (s : State) : s.beat.span.hbCount = s.span.hbCount + 1 ∧ ∀ e ∈ s.upEngines, (e, PenFrame.heartbeat s.ownBeat) ∈ s.beat.span.out := by
  obtain ⟨jobs, out, hnote⟩ := noteJobs_frame (s.beating.sendAll none (.heartbeat s.ownBeat)) (s.beating.sendAll none (.heartbeat s.ownBeat)).jobsNow
  rw [beat_eq, hnote, sendAll_eq, filter_some_none, upEngines_beating]
  refine ⟨rfl, fun e he => ?_⟩
  exact List.mem_append_left _ (List.mem_append_right _ (List.mem_map.mpr ⟨e, he, rfl⟩))

/-- The state in which a member's heartbeat has shown the hops by engine e. -/
def State.heardVia (s : State) (e k ttl : Nat) : State := { s with span := { s.span with hops := Tab.set 0 s.span.hops (64 * e + k) (64 - ttl) } }

/-- The state in which a heartbeat counts as seen. -/
def State.seen (s : State) (k : Nat) (n : BitVec 32) : State := { s with span := { s.span with hbSeen := s.span.hbSeen ++ [(k, n)] } }

/-- A member that names itself is ALIVE, unless it conflicts. -/
def State.revived (t : State) (k : Nat) : State := if t.peerState k = 3 then t else t.alive k

section
variable (s : State) (e : Nat) (f : HeartbeatFrame)

/-- The state in which a new heartbeat's member is to be heard. -/
def State.toHear : State := ((s.heardVia e f.index.val f.ttl.toNat).spanRoutes).seen f.index.val f.count

/-- The state in which a new heartbeat has been taken, before it is passed on. -/
def State.newBeat : State := ((s.toHear e f).heard f.index.val f.serial).revived f.index.val

end

/-- A heartbeat that is passed on with a smaller TTL, or counted at its end. -/
def State.passOn (t : State) (e : Nat) (f : HeartbeatFrame) : State :=
  if f.ttl.toNat ≤ 1 then { t with span := { t.span with stat := satFld t.span.stat 15 0 1 } } else t.sendAll (some e) (.heartbeat { f with ttl := f.ttl - 1 })

section
variable {s : State} {e : Nat} {f : HeartbeatFrame}

theorem heartbeat_own (h : f.index.val = s.ownIndex) : s.heartbeat e f = s := if_pos h

theorem heartbeat_seen (h : f.index.val ≠ s.ownIndex) (hs : (f.index.val, f.count) ∈ s.span.hbSeen) :
    s.heartbeat e f = (s.heardVia e f.index.val f.ttl.toNat).spanRoutes := (if_neg h).trans (if_pos (List.contains_iff_mem.mpr hs))

theorem heartbeat_new (h : f.index.val ≠ s.ownIndex) (hs : (f.index.val, f.count) ∉ s.span.hbSeen) : s.heartbeat e f =
    (s.newBeat e f).passOn e f :=
  (if_neg h).trans (if_neg (mt List.contains_iff_mem.mp hs))

end

theorem alive_frame (s : State) (k : Nat) : ∃ peers, s.alive k =
    { s with span := { s.span with peers := peers, hbAt := Tab.set 0 s.span.hbAt k s.tclk } } ∧ fld (Tab.get 0 peers k) 63 61 = 1 := by
  refine ⟨Tab.mod 0 s.span.peers k fun x => setFld (setFld x 63 61 1) 47 0 s.g0Time.toNat, rfl, ?_⟩
  rw [Tab.mod, get_set_same, fld_setFld_ne (by decide) (by decide) (by decide), fld_setFld (by decide) (by decide)]
  rfl

theorem revived_frame (s : State) (k : Nat) : ∃ peers hbAt, s.revived k = { s with span := { s.span with peers := peers, hbAt := hbAt } } := by
  unfold State.revived
  split
  · exact ⟨s.span.peers, s.span.hbAt, rfl⟩
  · obtain ⟨peers, h, -⟩ := alive_frame s k
    exact ⟨peers, _, h⟩

theorem passOn_frame (s : State) (e : Nat) (f : HeartbeatFrame) : ∃ stat out,
    s.passOn e f = { s with span := { s.span with stat := stat, out := s.span.out ++ out } } := by
  unfold State.passOn
  split
  · exact ⟨_, [], by rw [List.append_nil]⟩
  · exact ⟨s.span.stat, _, sendAll_eq _ _ _⟩

/-- What the statements ask of a heartbeat that passes on. -/
theorem passOn_sends {s : State} {e : Nat} {f : HeartbeatFrame} (h : 2 ≤ f.ttl.toNat) {d : Nat} (hd : d ∈ s.upEngines) (hde : d ≠ e) :
    (d, PenFrame.heartbeat { f with ttl := f.ttl - 1 }) ∈ (s.passOn e f).span.out := by
  have hrow : s.passOn e f = s.sendAll (some e) (.heartbeat { f with ttl := f.ttl - 1 }) := if_neg (by omega)
  rw [hrow, sendAll_eq]
  refine List.mem_append_right _ (List.mem_map.mpr ⟨d, List.mem_filter.mpr ⟨hd, decide_eq_true fun h => hde (Option.some.inj h)⟩, rfl⟩)

theorem passOn_counts {s : State} {e : Nat} {f : HeartbeatFrame} (h : f.ttl.toNat ≤ 1) :
    fld (s.passOn e f).span.stat 15 0 = min 65535 (fld s.span.stat 15 0 + 1) := by
  have hrow : s.passOn e f = { s with span := { s.span with stat := satFld s.span.stat 15 0 1 } } := if_pos h
  rw [hrow]
  dsimp only
  rw [satFld, fld_setFld (by decide) (by decide)]
  omega

/-- The state of the member and its time once it has been heard. -/
theorem revived_alive {s : State} {k : Nat} (h : s.peerState k ≠ 3) : (s.revived k).peerState k = 1 ∧ Tab.get 0 (s.revived k).span.hbAt k = s.tclk := by
  obtain ⟨peers, hal, h1⟩ := alive_frame s k
  have hrow : s.revived k = s.alive k := if_neg h
  rw [hrow, hal]
  exact ⟨h1, get_set_same _ _ _ _⟩

section
variable (s : State) (e : Nat) (f : HeartbeatFrame)

theorem toHear_frame : ∃ r, s.toHear e f = { s with span := { s.span with
    hops := Tab.set 0 s.span.hops (64 * e + f.index.val) (64 - f.ttl.toNat), routes := r, hbSeen := s.span.hbSeen ++ [(f.index.val, f.count)] } } := by
  obtain ⟨r, h⟩ := spanRoutes_frame (s.heardVia e f.index.val f.ttl.toNat)
  exact ⟨r, by rw [State.toHear, h]; rfl⟩

/-- What a new heartbeat leaves, apart from the member's own state and the frames. -/
theorem newBeat_frame : ∃ r peers hbAt roster reg out, s.newBeat e f =
    { s with span := { s.span with
      hops := Tab.set 0 s.span.hops (64 * e + f.index.val) (64 - f.ttl.toNat), routes := r, hbSeen := s.span.hbSeen ++ [(f.index.val, f.count)],
      peers := peers, hbAt := hbAt, roster := roster, reg := reg, out := out } } := by
  obtain ⟨r, h0⟩ := toHear_frame s e f
  obtain ⟨peers, roster, reg, out, h1⟩ := heard_frame (s.toHear e f) f.index.val f.serial
  obtain ⟨peers', hbAt, h2⟩ := revived_frame ((s.toHear e f).heard f.index.val f.serial) f.index.val
  refine ⟨r, peers', hbAt, roster, reg, s.span.out ++ out, ?_⟩
  rw [State.newBeat, h2, h1, h0]

theorem newBeat_alive (h : s.conflicts f.index.val f.serial = false) :
    (s.newBeat e f).peerState f.index.val = 1
    ∧ Tab.get 0 (s.newBeat e f).span.hbAt f.index.val = s.tclk := by
  obtain ⟨r, h0⟩ := toHear_frame s e f
  have hclear : (s.toHear e f).conflicts f.index.val f.serial = false := by
    rw [h0]
    exact h
  have hst : ((s.toHear e f).heard f.index.val f.serial).peerState f.index.val ≠ 3 := by
    rw [heard_clear hclear, peerState_enrol]
    exact peerState_calmed _ _
  obtain ⟨peers, roster, reg, out, h1⟩ := heard_frame (s.toHear e f) f.index.val f.serial
  obtain ⟨ha, hb⟩ := revived_alive hst
  refine ⟨ha, hb.trans ?_⟩
  rw [h1, h0]

end

end Sys2Proof.Machine
end

section
/-! SUPPORT. Spans, row by row (R446 to R451, R453 to R455, R466). -/

namespace Sys2Proof.Machine

section
variable {s : State}

theorem ident_row {e : Engine} {f : IdentFrame} (h1 : s.inSpan = true) (h2 : 1 ≤ s.penState e.val) (h3 : s.penState e.val ≤ 4) :
    execIdent e f s = .next (s.identified e.val f) := congrArg _ (if_pos ⟨h1, h2, h3⟩)

theorem ident_ignored {e : Engine} {f : IdentFrame} (h : s.inSpan = false ∨ s.penState e.val = 0 ∨ s.penState e.val = 5) : execIdent e f s = .next s := by
  refine congrArg _ (if_neg ?_)
  rintro ⟨h1, h2, h3⟩
  rcases h with h | h | h
  · rw [h] at h1
    cases h1
  · omega
  · omega

theorem record_member (h1 : s.inSpan = true) (h2 : s.isLead = false) : s.span.record.lead = false := by
  unfold State.isLead at h2
  rw [h1, Bool.true_and] at h2
  exact h2

theorem roster_ignored {e : Engine} {f : RosterFrame} (h : s.inSpan = false ∨ s.isLead = true ∨ s.engineUp e.val = false) : execRoster e f s = .next s := by
  refine congrArg _ (if_neg ?_)
  rintro ⟨h1, h2, h3⟩
  rcases h with h | h | h
  · rw [h] at h1
    cases h1
  · exact h2 h
  · rw [h] at h3
    cases h3

theorem recordRead_same : execSpanRecordRead s.span.record s = .next { s with span := { s.span with waiting := none } } := congrArg _ (if_pos rfl)

theorem recordRead_waits {r : SpanRecord} (h : r ≠ s.span.record) (hf : s.recordFree = false) :
    execSpanRecordRead r s = .next { s with span := { s.span with waiting := some r } } := by
  refine congrArg _ ((if_neg h).trans ?_)
  have hf : State.recordFree { s with span := { s.span with waiting := some r } } = false := hf
  unfold State.pollRecord
  dsimp only
  rw [hf, if_neg Bool.false_ne_true]

theorem recordRead_used {r : SpanRecord} (h : r ≠ s.span.record) (hf : s.recordFree = true) :
    execSpanRecordRead r s = .next (State.useRecord { s with span := { s.span with waiting := some r } } r) := by
  refine congrArg _ ((if_neg h).trans ?_)
  have hf : State.recordFree { s with span := { s.span with waiting := some r } } = true := hf
  unfold State.pollRecord
  dsimp only
  rw [hf, if_pos rfl]

theorem tsyncLoss_quiet {dt : Nat} (h : s.inSpan = false ∨ s.isLead = true ∨ s.tclk + dt < s.span.timeAt + 64000) :
    execTsyncLoss dt s = .next (s.pass dt) := by
  refine congrArg _ (if_neg ?_)
  rintro ⟨h1, h2, h3⟩
  have h1 : s.inSpan = true := h1
  have h2 : ¬ s.isLead = true := h2
  have h3 : s.span.timeAt + 64000 ≤ s.tclk + dt := h3
  rcases h with h | h | h
  · rw [h] at h1
    cases h1
  · exact h2 h
  · omega

theorem heartbeatSend_row (hw : s.span.waiting = none) (dt : Nat) : execHeartbeatSend dt s = .next
    (if s.inSpan ∧ Tab.get 0 s.span.hbAt 64 + s.span.period ≤ s.tclk + dt then (s.pass dt).beat else s.pass dt) := by
  unfold execHeartbeatSend
  dsimp only
  rw [pollRecord_pass hw]
  rfl

/-- A member becomes UNRESPONSIVE, and no other peer changes (R455). -/
theorem unresponsive_spec {k : Fin 64} {dt since : Nat} (hs : since = s.tclk + dt - Tab.get 0 s.span.hbAt k.val) (h1 : s.peerState k.val = 1)
    (h2 : s.span.period * s.span.missLimit ≤ since) : ∃ t, execUnresponsive k dt s = .next t
      ∧ t = { s.pass dt with span := { s.span with peers := t.span.peers } } ∧ t.peerState k.val = 2 ∧ ∀ j, j ≠ k.val → t.peerState j = s.peerState j := by
  obtain ⟨v, hv⟩ : ∃ v : BitVec 64, v = satFld (Tab.get 0 s.span.peers k.val) 55 48 (since / s.span.period) := ⟨_, rfl⟩
  have hrow : execUnresponsive k dt s = .next (State.setPeer { s.pass dt with span := { s.span with peers := Tab.set 0 s.span.peers k.val v } } k.val 2) := by
    subst hv hs
    exact congrArg _ (if_pos ⟨h1, h2⟩)
  obtain ⟨peers, hp⟩ := setPeer_frame { s.pass dt with span := { s.span with peers := Tab.set 0 s.span.peers k.val v } } k.val 2
  refine ⟨_, hrow, by rw [hp], ?_, fun j hj => ?_⟩
  · rw [peerState_setPeer _ _ _ _ (by decide), if_pos rfl]
  · rw [peerState_setPeer _ _ _ _ (by decide), if_neg hj]
    unfold State.peerState
    dsimp only
    rw [get_set, if_neg hj]

theorem heartbeat_ignored {e : Engine} {f : HeartbeatFrame} (h : s.inSpan = false ∨ s.engineUp e.val = false ∨ f.index.val = s.ownIndex) :
    execHeartbeat e f s = .next s := by
  unfold execHeartbeat
  rcases h with h | h | h
  · rw [h]
    rfl
  · rw [h, if_neg (by simp)]
  · rw [heartbeat_own h, ite_self]

end

/-- What a new heartbeat leaves (R455). -/
theorem newBeat_spec (s : State) (e : Nat) (f : HeartbeatFrame) : ((s.newBeat e f).passOn e f).hopsVia e f.index.val = 64 - f.ttl.toNat
    ∧ (f.index.val, f.count) ∈ ((s.newBeat e f).passOn e f).span.hbSeen
    ∧ (s.conflicts f.index.val f.serial = false → ((s.newBeat e f).passOn e f).peerState f.index.val = 1
      ∧ Tab.get 0 ((s.newBeat e f).passOn e f).span.hbAt f.index.val = s.tclk)
    ∧ (2 ≤ f.ttl.toNat → ∀ d ∈ s.upEngines, d ≠ e → (d, PenFrame.heartbeat { f with ttl := f.ttl - 1 }) ∈ ((s.newBeat e f).passOn e f).span.out)
    ∧ (f.ttl.toNat ≤ 1 → fld ((s.newBeat e f).passOn e f).span.stat 15 0 = min 65535 (fld s.span.stat 15 0 + 1)) := by
  obtain ⟨r, peers, hbAt, roster, reg, out, hnew⟩ := newBeat_frame s e f
  obtain ⟨stat, more, hpass⟩ := passOn_frame (s.newBeat e f) e f
  refine ⟨?_, ?_, fun hc => ?_, fun httl d hd hde => passOn_sends httl ?_ hde, fun httl => (passOn_counts httl).trans ?_⟩
  · rw [hpass, hnew]
    exact get_set_same _ _ _ _
  · rw [hpass, hnew]
    exact List.mem_append_right _ List.mem_cons_self
  · rw [hpass]
    exact newBeat_alive s e f hc
  · rw [hnew]
    exact hd
  · rw [hnew]

/-- Settles O53: each frame is taken to the branch that answers it, and what follows leaves the parts that the statement names. -/
theorem spanRows : Obligations.SpanRows := by
  unfold Obligations.SpanRows
  refine ⟨?_, ?_, ?_, ?_, ?_, ?_, ?_⟩
  · intro s e l
    refine ⟨fun h => congrArg _ (trainLink_idle h), fun h1 h2 h3 => ?_, fun h => linkLoss_dark h l, fun h hl => linkLoss_down h hl, fun h hl => linkLoss_degraded h (Nat.not_lt.mpr hl), rfl⟩
    obtain ⟨t, ht, hspec⟩ := trainLink_spec (lanes := l.toNat) h1 h2 h3
    exact ⟨t, congrArg _ ht, hspec⟩
  · intro s e f
    refine ⟨ident_ignored, fun h1 h2 h3 => ⟨_, ident_row h1 h2 h3, ?_⟩⟩
    by_cases hm : f.spanId ≠ s.span.record.spanId ∨ f.index = s.span.record.index
    · obtain ⟨hpen, hroster⟩ := identified_mismatch_spec (e := e.val) hm
      obtain ⟨hidx, heng, hst⟩ := identWord_fields (s.pen e.val) f (st := 4) (by decide)
      rw [State.penState, hpen]
      exact ⟨hidx, heng, fun _ => ⟨hst, hroster⟩, fun hs hi => absurd hm (by rintro (h | h); exacts [h hs, hi h])⟩
    · obtain ⟨hspan, hindex⟩ := not_or.mp hm
      obtain ⟨hpen, hhops, hadmit, hconf⟩ := identified_match_spec (e := e.val) (not_not.mp hspan) hindex
      obtain ⟨hidx, heng, hst⟩ := identWord_fields (s.pen e.val) f (st := if fld (s.pen e.val) 59 56 = 8 then 2 else 3) (by split <;> decide)
      rw [State.penState, hpen]
      exact ⟨hidx, heng, fun h => absurd h hm, fun _ _ => ⟨hst, hhops, hadmit, hconf⟩⟩
  · intro s e f
    refine ⟨roster_ignored, fun h1 h2 h3 hl => ?_⟩
    have hrow : exec (.roster e f) s = .next (s.takeRoster e.val f) := congrArg _ (if_pos ⟨h1, by rw [h2]; decide, h3⟩)
    exact ⟨_, hrow, takeRoster_spec (record_member h1 h2) hl⟩
  · intro s r
    refine ⟨fun h => h ▸ recordRead_same, recordRead_waits, fun h hf => ?_⟩
    obtain ⟨h1, h2, h3, h4, h5⟩ := useRecord_spec { s with span := { s.span with waiting := some r } } r
    exact ⟨_, recordRead_used h hf, h1, h2, h3, h4, h5⟩
  · rintro s u dt rfl hw
    have htime := timeFrameSend_row hw dt
    have hbeat := heartbeatSend_row hw dt
    refine ⟨fun h => htime.trans (congrArg _ (if_neg ?_)), fun h1 h2 h3 => htime.trans (congrArg _ ((if_pos ⟨h1, h2, h3⟩).trans timeFrameSend_sends)),
      fun h1 h2 h3 => congrArg _ (if_pos ⟨h1, fun h => absurd (h2.symm.trans h) (by decide), h3⟩), tsyncLoss_quiet, fun h => hbeat.trans (congrArg _ (if_neg ?_)),
      fun h1 h2 => ?_, fun k since hs => ⟨fun h => congrArg _ (if_neg ?_), fun h1 h2 => unresponsive_spec hs h1 h2⟩⟩
    · rintro ⟨h1, h2, h3⟩
      rcases h with h | h | h
      · exact absurd (h.symm.trans h1) (by decide)
      · exact absurd (h.symm.trans h2) (by decide)
      · exact absurd h3 (Nat.not_le.mpr h)
    · rintro ⟨h1, h2⟩
      rcases h with h | h
      · exact absurd (h.symm.trans h1) (by decide)
      · exact absurd h2 (Nat.not_le.mpr h)
    · obtain ⟨hcount, hout⟩ := beat_spec (s.pass dt)
      exact ⟨_, hbeat.trans (congrArg _ (if_pos ⟨h1, h2⟩)), hcount, fun e he => ⟨_, hout e he, rfl, rfl, rfl, rfl⟩⟩
    · subst hs
      rintro ⟨h1, h2⟩
      rcases h with h | h
      · exact h h1
      · exact absurd h2 (Nat.not_le.mpr h)
  · rintro s e t age d rfl
    refine ⟨fun h => congrArg _ (if_neg ?_), fun h1 h2 h3 h4 h5 hctrl hstep => ?_⟩
    · rintro ⟨h1, h2, h3, h4, -⟩
      rcases h with h | h | h | h
      · exact absurd (h.symm.trans h1) (by decide)
      · exact h2 h
      · exact absurd (h.symm.trans h3) (by decide)
      · exact h h4
    · obtain ⟨u, hu, out, hrow⟩ := time_row (t := t) (age := age) h1 h2 h3 h4 h5
      subst hu
      refine ⟨fun hj hlo hhi => ?_, fun hbig => ?_⟩
      · obtain ⟨hreg, hslew, hc, hat⟩ := takeTime_slews (s := { s with span := { s.span with timeAt := s.tclk } }) hctrl hstep rfl hj hlo hhi
        exact ⟨_, hrow, hreg, hslew, hc, hat⟩
      · obtain ⟨hreg, hc, hv⟩ := takeTime_steps (s := { s with span := { s.span with timeAt := s.tclk } }) hctrl hstep rfl hbig
        exact ⟨_, hrow, hreg, hc, hv⟩
  · rintro s e f k rfl
    refine ⟨heartbeat_ignored, fun h1 h2 hown => ?_⟩
    have hrow : exec (.heartbeat e f) s = .next (s.heartbeat e.val f) := congrArg _ (if_pos ⟨h1, h2⟩)
    by_cases hs : (f.index.val, f.count) ∈ s.span.hbSeen
    · rw [heartbeat_seen hown hs] at hrow
      refine ⟨_, hrow, get_set_same _ _ _ _, fun _ => ⟨rfl, rfl⟩, fun h => absurd hs h⟩
    · rw [heartbeat_new hown hs] at hrow
      obtain ⟨h3, h4, h5, h6, h7⟩ := newBeat_spec s e.val f
      exact ⟨_, hrow, h3, fun h => absurd h hs, fun _ => ⟨h4, h5, h6, h7⟩⟩

end Sys2Proof.Machine
end

section
/-! SUPPORT. Data frames, handoffs and state copies (R448, R452, R456 to R463, R466). -/

namespace Sys2Proof.Machine

/-! ### DATA frames (R448, R452) -/

section
variable {s : State} {e : Engine} {f : Prefix} {k : Packet}

theorem data_ignored (h : s.inSpan = false ∨ s.engineUp e.val = false) : execData e f k s = .next s := by
  refine congrArg _ (if_neg ?_)
  rintro ⟨h1, h2⟩
  rcases h with h | h
  · exact absurd (h.symm.trans h1) (by decide)
  · exact absurd (h.symm.trans h2) (by decide)

/-- A frame for one panel: relayed, replicated by the lead, or delivered. -/
theorem dataFrame_unicast (hj : f.jobId = 0 ∨ s.isLead = false) (hmc : f.mc = false) (hm : f.dstPanel.val = s.ownIndex → f.mask = 0 ∨ s.isLead = false) :
    s.dataFrame e.val f k = if f.dstPanel.val ≠ s.ownIndex then s.relay f (fun h => s.routeFrame h.dstPanel.val h k) else s.deliverFrame (e.val / 4) f k := by
  have hnote : (f.jobId = 0 || !s.isLead) = true := by
    rw [Bool.or_eq_true, decide_eq_true_eq, Bool.not_eq_true']
    exact hj
  unfold State.dataFrame
  dsimp only
  rw [if_pos hnote, hmc, if_neg Bool.false_ne_true]
  split
  case isTrue => rfl
  case isFalse hown =>
    refine if_neg fun h => ?_
    rw [Bool.and_eq_true, decide_eq_true_eq] at h
    obtain ⟨h1, h2⟩ := h
    rcases hm (not_not.mp hown) with h | h
    · exact h1 h
    · exact absurd (h.symm.trans h2) (by decide)

theorem data_row {t : State} (h1 : s.inSpan = true) (h2 : s.engineUp e.val = true) (ht : s.dataFrame e.val f k = t) : execData e f k s = .next t.hoGo := by
  subst ht
  exact congrArg _ (if_pos ⟨h1, h2⟩)

theorem relay_goes {go : Prefix → State} (h : 2 ≤ f.ttl.toNat) : s.relay f go = go { f with ttl := f.ttl - 1 } := if_neg (by omega)

theorem relay_ends {go : Prefix → State} (h : f.ttl.toNat ≤ 1) : s.relay f go = { s with span := { s.span with stat := satFld s.span.stat 15 0 1 } } := if_pos h

theorem deliverFrame_job {g : Nat} (h1 : k.stream ≠ streamCopy) (h2 : k.opc ≠ 2) (h4 : k.opc ≠ 4) : s.deliverFrame g f k = s.deliverJob g f k :=
  (if_neg h1).trans (if_neg (by rw [Bool.or_eq_true, decide_eq_true_eq, decide_eq_true_eq]; rintro (h | h); exacts [h4 h, h2 h]))

section
variable {g : Nat}

theorem deliverJob_stale (h : f.epoch.toNat < (s.jobEpoch f.jobId).epoch.toNat) :
    s.deliverJob g f k = { s with span := { s.span with stat := satFld s.span.stat 47 32 1 } } := if_pos h

theorem deliverJob_absent (h : (s.jobEpoch f.jobId).epoch.toNat ≤ f.epoch.toNat) (hn : s.jobCtx f.jobId = none) : s.deliverJob g f k =
    State.peerReply { s with span := { s.span with stat := satFld s.span.stat 31 16 1 } } f (frameAck k stAbsent 1 0) := by
  unfold State.deliverJob
  rw [if_neg (Nat.not_lt.mpr h), hn]

theorem deliverJob_fenced (h : (s.jobEpoch f.jobId).epoch.toNat ≤ f.epoch.toNat) {n : Nat} (hn : s.jobCtx f.jobId = some n) (hmc : f.mc = false)
    (hf : s.ctxFenced n = true) : s.deliverJob g f k = s.peerReply f (frameAck k stDenied 1 0) := by
  unfold State.deliverJob
  rw [if_neg (Nat.not_lt.mpr h), hn]
  dsimp only
  rw [if_pos hf, hmc, if_neg Bool.false_ne_true]

theorem request_opc (ho : k.opc = 1 ∨ k.opc = 3) : ¬ (!(k.opc = 1 || k.opc = 3)) = true := by
  rcases ho with ho | ho <;> rw [ho] <;> decide

section
variable (h : (s.jobEpoch f.jobId).epoch.toNat ≤ f.epoch.toNat) {n : Nat} (hn : s.jobCtx f.jobId = some n) (hf : s.ctxFenced n = false)
  (ho : k.opc = 1 ∨ k.opc = 3)
include h hn hf ho

theorem deliverJob_refused {st : BitVec 4} (hr : s.resolve false k.daddr.toNat = .error st) : s.deliverJob g f k = s.peerReply f (frameAck k st 1 0) := by
  unfold State.deliverJob
  rw [if_neg (Nat.not_lt.mpr h), hn]
  dsimp only
  rw [hf, if_neg Bool.false_ne_true, if_neg (request_opc ho), hr]

theorem deliverJob_enters {d : BitVec 10 × BitVec 15} (hr : s.resolve false k.daddr.toNat = .ok d) : s.deliverJob g f k = State.send
    { s with span := { s.span with inbound := s.span.inbound ++ [{ stream := k.stream, seq := k.seq, frame := f }] } }
    [{ k with src := srcPeer f.srcPanel.val g, sclass := 3, ctx := BitVec.ofNat 10 n, vc := false, turned := false, didx := d.1 }] := by
  unfold State.deliverJob
  rw [if_neg (Nat.not_lt.mpr h), hn]
  dsimp only
  rw [hf, if_neg Bool.false_ne_true, if_neg (request_opc ho), hr]

end

end

end

/-! ### Handoffs (R456 to R458) -/

section
variable {s u : State} {d : BitVec 10 × BitVec 19 × BitVec 32} {rest : List (BitVec 10 × BitVec 19 × BitVec 32)}
  (hu : u = { s with span := { s.span with due := rest } })
include hu

theorem handoff_row (hd : s.span.due = d :: rest) : execHandoff s = .next (u.handoff d.1.toNat d.2.1 d.2.2).hoGo := by
  subst hu
  unfold execHandoff
  rw [hd]

theorem mute_due (n : Nat) : u.mute n = s.mute n := by
  subst hu
  rfl

theorem entry_due (h : Nat) : u.entry h = s.entry h := by
  subst hu
  rfl

end

section
variable {u t : State} {n : Nat} {h : BitVec 19} {pass : BitVec 32}

theorem handoff_mute (hm : u.mute n = true) : u.handoff n h pass = u := if_pos hm

theorem handoff_unread (hm : u.mute n = false) {st : BitVec 4} (hr : u.hbmRead (some n) ((u.entry h.toNat).img.toNat + 0x400) 0xC00 = (t, .error st)) :
    u.handoff n h pass = t.hoFail := by
  unfold State.handoff
  rw [hm, if_neg Bool.false_ne_true, hr]

theorem handoff_table (hm : u.mute n = false) {bs : List Byte} (hr : u.hbmRead (some n) ((u.entry h.toNat).img.toNat + 0x400) 0xC00 = (t, .ok bs)) :
    (hoEntries bs = none → u.handoff n h pass = t.hoFail)
    ∧ ∀ es js, hoEntries bs = some es → js = (es.zipIdx t.span.nextId).map (fun e =>
        ({ id := e.2, ctx := BitVec.ofNat 10 n, pass := pass, entry := e.1, started := false, left := 0, failed := false, since := 0 } : HandoffJob)) →
      u.handoff n h pass = { t with span := { t.span with handoffs := t.span.handoffs ++ js, nextId := t.span.nextId + js.length } } := by
  unfold State.handoff
  rw [hm, if_neg Bool.false_ne_true, hr]
  dsimp only
  refine ⟨fun he => ?_, fun es js he hjs => ?_⟩
  · rw [he]
  · subst hjs
    rw [he]

end

theorem hoEntries_bad {bs : List Byte} (h : 47 < leAt bs 0 4 ∨ leAt bs 4 12 ≠ 0) : hoEntries bs = none := by
  refine if_neg fun hok => ?_
  rw [Bool.and_eq_true, decide_eq_true_eq, decide_eq_true_eq] at hok
  rcases h with h | h
  · omega
  · exact h hok.2

theorem hoEntries_good {bs : List Byte} (h1 : leAt bs 0 4 ≤ 47) (h2 : leAt bs 4 12 = 0) :
    hoEntries bs = some ((List.range (leAt bs 0 4)).map fun e => (bs.drop (0x10 + 64 * e)).take 64) :=
  if_pos (by rw [decide_eq_true h1, decide_eq_true h2]; rfl)

/-- The numbers that the entries of a table get. -/
theorem zipIdx_map_range {α β : Type} (f : Nat → α) (n k : Nat) (g : α × Nat → β) :
    (((List.range n).map f).zipIdx k).map g = (List.range n).map fun i => g (f i, k + i) := by
  refine List.ext_getElem (by simp) fun i h1 h2 => ?_
  simp

theorem handoffTimeout_none {s : State} {id dt : Nat} (h : ∀ j ∈ s.span.handoffs, j.id ≠ id ∨ j.started = false) :
    execHandoffTimeout id dt s = .next (s.pass dt) := by
  have hnone : (s.pass dt).span.handoffs.find? (fun j => j.id = id && j.started) = none := List.find?_eq_none.mpr fun j hj hp => by
    rw [Bool.and_eq_true, decide_eq_true_eq] at hp
    rcases h j hj with h | h
    · exact h hp.1
    · exact absurd (h.symm.trans hp.2) (by decide)
  unfold execHandoffTimeout
  dsimp only
  rw [hnone]

theorem handoffTimeout_some {s : State} {id dt : Nat} {j : HandoffJob} (h : s.span.handoffs.find? (fun j => j.id = id && j.started) = some j) :
    execHandoffTimeout id dt s = .next (if j.since + 1000000 ≤ s.tclk + dt then ((s.pass dt).hoEnd j true).hoGo else s.pass dt) := by
  have h : (s.pass dt).span.handoffs.find? (fun j => j.id = id && j.started) = some j := h
  unfold execHandoffTimeout
  dsimp only
  rw [h]
  rfl

/-! ### State copies (R462, R463) -/

theorem copies_routeFrame (s : State) (dst : Nat) (f : Prefix) (k : Packet) : (s.routeFrame dst f k).span.copies = s.span.copies := by
  unfold State.routeFrame
  split <;> rfl

theorem copies_copySend (s : State) (j : CopyJob) (k : Packet) : (s.copySend j k).span.copies = s.span.copies := by
  unfold State.copySend
  by_cases h : (if j.recv = true then s.ctxFenced j.ctx.toNat else s.mute j.ctx.toNat) = true
  · rw [if_pos h]
  · rw [if_neg h]
    exact copies_routeFrame _ _ _ _

/-- The copy that a STATE_COPY command begins (R462). -/
def State.copyBegun (s : State) (c : Cmd) : CopyJob :=
  { cmd := c, ctx := BitVec.ofNat 10 c.ctx, recv := bit c.desc.w2 8, peer := fld c.desc.w2 5 0, session := c.desc.w3, paired := false,
    regions := if bit c.desc.w2 8 then [] else ((s.ctx c.ctx).map Ctx.ordered).getD [], off := 0, moved := 0, unacked := [], since := s.tclk, sent := false }

theorem copyStart_copies (s : State) (c : Cmd) : (s.copyStart c).span.copies = s.span.copies ++ [s.copyBegun c] := copies_copySend _ _ _

section
variable {s : State} {c : Cmd}

theorem stateCopy_first (h : ∀ j ∈ s.span.copies, j.cmd ≠ c) : execStateCopy c s = .next (s.run c 0x33 fun t => t.copyStart c) := by
  have hnone : s.span.copies.find? (fun j => j.cmd = c) = none := List.find?_eq_none.mpr fun j hj hp => h j hj (of_decide_eq_true hp)
  unfold execStateCopy
  rw [hnone]

theorem stateCopy_later {j : CopyJob} (h : s.span.copies.find? (fun j => j.cmd = c) = some j) :
    execStateCopy c s = .next (if j.recv || !j.paired || s.fw.restarting then s else s.copyNext j) := by
  unfold execStateCopy
  rw [h]

end

theorem copyNext_sends {s t : State} {j : CopyJob} {x : Ctx} (hx : s.ctx j.ctx.toNat = some x) (hc : x.closing = false) (hl : s.ledger.state = .idle)
    {a left n : Nat} {bs : List Byte} (ha : copyAt j.regions j.off = some (a, left)) (hn : n = min left (4096 - a % 4096))
    (hr : s.hbmRead none a n = (t, .ok bs)) : s.copyNext j =
    (t.setCopy j { j with off := j.off + n, unacked := j.unacked ++ [(BitVec.ofNat 16 (j.off / 8), n)], since := t.tclk }).copySend j
      { Packet.empty with opc := 3, tc := 2, daddr := BitVec.ofNat 48 a, seq := BitVec.ofNat 16 (j.off / 8), len := BitVec.ofNat 14 n
                          aux := j.session.setWidth 48, data := bs } := by
  subst hn
  unfold State.copyNext
  rw [hx, Option.any_some, hc, if_neg (by decide), hl, if_neg (by simp), ha]
  dsimp only
  rw [hr]

section
variable {s : State} {ctx : BitVec 10} {j : CopyJob} (hj : s.span.copies = [j])
include hj

theorem pairTimeout_row (dt : Nat) : execStateCopyPairTimeout ctx dt s = .next
    (if j.ctx = ctx ∧ j.paired = false ∧ j.since + 10000000000 ≤ s.tclk + dt then (s.pass dt).copyOver j 0x17 else s.pass dt) := by
  have hcond : (j.ctx = ctx && !j.paired && decide (j.since + 10000000000 ≤ (s.pass dt).tclk)) = true
      ↔ j.ctx = ctx ∧ j.paired = false ∧ j.since + 10000000000 ≤ s.tclk + dt := by
    rw [Bool.and_eq_true, Bool.and_eq_true, decide_eq_true_eq, decide_eq_true_eq, Bool.not_eq_true', and_assoc]
    rfl
  have hj : (s.pass dt).span.copies = [j] := hj
  unfold execStateCopyPairTimeout
  dsimp only
  rw [hj, List.filter_cons, List.filter_nil]
  by_cases h : j.ctx = ctx ∧ j.paired = false ∧ j.since + 10000000000 ≤ s.tclk + dt
  · rw [if_pos h, if_pos (hcond.mpr h)]
    rfl
  · rw [if_neg h, if_neg (mt hcond.mp h)]
    rfl

theorem sourceLost_row : execSourceLost ctx s = .next
    (if j.ctx = ctx ∧ s.copyLost j = true then s.copyOver j (if j.recv = true ∧ j.moved ≠ 0 then 0x33 else 0x17) else s) := by
  have hcond : (j.ctx = ctx && s.copyLost j) = true ↔ j.ctx = ctx ∧ s.copyLost j = true := by
    rw [Bool.and_eq_true, decide_eq_true_eq]
  have hst : (if j.recv && j.moved ≠ 0 then 0x33 else 0x17) = if j.recv = true ∧ j.moved ≠ 0 then 0x33 else 0x17 :=
    if_congr (by rw [Bool.and_eq_true, decide_eq_true_eq]) rfl rfl
  unfold execSourceLost
  rw [hj, List.filter_cons, List.filter_nil]
  by_cases h : j.ctx = ctx ∧ s.copyLost j = true
  · rw [if_pos h, if_pos (hcond.mpr h), ← hst]
    rfl
  · rw [if_neg h, if_neg (mt hcond.mp h)]
    rfl

end

/-- Settles O54: a frame, a handoff or a copy takes the branch that its head, its table or its peer selects. -/
theorem spanDataRows : Obligations.SpanDataRows := by
  unfold Obligations.SpanDataRows
  refine ⟨?_, ?_, ?_, ?_, ?_, ?_, ?_⟩
  · intro s e f k hj
    refine ⟨data_ignored, fun h1 h2 hmc => ⟨fun hd => ?_, fun hd hm hs h2' h4' => ?_⟩⟩
    · have hframe := (dataFrame_unicast (k := k) (e := e) hj hmc (fun h => absurd h hd)).trans (if_pos hd)
      exact ⟨fun h => data_row h1 h2 (hframe.trans (relay_goes h)), fun h => data_row h1 h2 (hframe.trans (relay_ends h))⟩
    · have hframe := ((dataFrame_unicast (e := e) hj hmc (fun _ => hm)).trans (if_neg (not_not.mpr hd))).trans (deliverFrame_job hs h2' h4')
      have hnext : ∀ {t : State}, s.deliverJob (e.val / 4) f k = t → exec (.data e f k) s = .next t.hoGo := fun ht => data_row h1 h2 (hframe.trans ht)
      refine ⟨fun h => hnext (deliverJob_stale h), fun h => ⟨fun hn => hnext (deliverJob_absent h hn), fun n hn => ⟨fun hf => hnext (deliverJob_fenced h hn hmc hf),
        fun hf ho => ⟨fun st hr => hnext (deliverJob_refused h hn hf ho hr), fun d hr => hnext (deliverJob_enters h hn hf ho hr)⟩⟩⟩⟩
  · rintro s u d rest hd hu
    have hrow := handoff_row hu hd
    have hnext : ∀ {t : State}, u.handoff d.1.toNat d.2.1 d.2.2 = t → exec .handoff s = .next t.hoGo := fun ht => ht ▸ hrow
    have hmute := mute_due hu d.1.toNat
    refine ⟨fun hm => hnext (handoff_mute (hmute.trans hm)), fun hm => ⟨fun t st hr => ?_, fun t bs hr => ?_⟩⟩
    · rw [← entry_due hu] at hr
      exact hnext (handoff_unread (hmute.trans hm) hr)
    · rw [← entry_due hu] at hr
      obtain ⟨hbad, hgood⟩ := handoff_table (pass := d.2.2) (hmute.trans hm) hr
      refine ⟨fun h => hnext (hbad (hoEntries_bad h)), fun js h1 h2 hjs => hnext (hgood _ js (hoEntries_good h1 h2) ?_)⟩
      rw [zipIdx_map_range, BitVec.ofNat_toNat, BitVec.setWidth_eq, hjs]
  · intro s h
    show execHandoff s = _
    unfold execHandoff
    rw [h]
  · rintro s u id dt rfl
    refine ⟨handoffTimeout_none, fun j hj => ⟨fun h => ?_, fun h => ?_⟩⟩
    · exact (handoffTimeout_some hj).trans (congrArg _ (if_neg (Nat.not_le.mpr h)))
    · exact (handoffTimeout_some hj).trans (congrArg _ (if_pos h))
  · intro s u c hc ht
    have hrow : exec (.stateCopy c) s = .next (u.copyStart c) := (stateCopy_first hc).trans (congrArg _ (run_turn ht _))
    obtain rfl := turn_eq ht
    refine ⟨_, hrow, (s.started c).copyBegun c, copyStart_copies _ c, rfl, rfl, rfl, rfl, rfl, rfl, rfl, fun hrecv x hx => ?_⟩
    have hx : (s.started c).ctx c.ctx = some x := hx
    have hrecv : bit c.desc.w2 8 = false := hrecv
    unfold State.copyBegun
    dsimp only
    rw [hrecv, if_neg Bool.false_ne_true, hx]
    rfl
  · intro s c j hj
    have hrow := stateCopy_later hj
    refine ⟨fun h => hrow.trans (congrArg _ (if_pos ?_)), fun h1 h2 h3 x hx hc hl a left n t bs ha hn hr => ?_⟩
    · rw [Bool.or_eq_true, Bool.or_eq_true, Bool.not_eq_true', or_assoc]
      exact h
    · exact hrow.trans (congrArg _ ((if_neg (by rw [h1, h2, h3]; decide)).trans (copyNext_sends hx hc hl ha hn hr)))
  · rintro s u ctx dt j rfl hj
    have hpair := pairTimeout_row (ctx := ctx) hj dt
    have hlost := sourceLost_row (ctx := ctx) hj
    refine ⟨fun h1 h2 h3 => hpair.trans (congrArg _ (if_pos ⟨h1, h2, h3⟩)), fun h => hpair.trans (congrArg _ (if_neg ?_)),
      fun h1 h2 => hlost.trans (congrArg _ (if_pos ⟨h1, h2⟩)), fun h => hlost.trans (congrArg _ (if_neg ?_))⟩
    · rintro ⟨h1, h2, h3⟩
      rcases h with h | h | h
      · exact h h1
      · exact absurd (h.symm.trans h2) (by decide)
      · exact absurd h3 (Nat.not_le.mpr h)
    · rintro ⟨h1, h2⟩
      rcases h with h | h
      · exact h h1
      · exact absurd (h.symm.trans h2) (by decide)

end Sys2Proof.Machine
end
